-- ==== Sys2Proof/Word.lean ====
section
/-! DEFINITION. The plain word and number types of the JK4208 (spec/00_scope.md, sections 3 and 6.3). -/

namespace Sys2Proof

/-- A 4-byte word of table memory, little-endian. -/
abbrev Word := BitVec 32

/-- One byte. -/
abbrev Byte := BitVec 8

/-- A 24-bit byte address of the host or of the SRAM. -/
abbrev Addr := BitVec 24

/-- An attenuation in units of 0.1 dB; 255 is dark. -/
abbrev Attn := BitVec 8

/-- The attenuation that means dark. -/
abbrev dark : Attn := 255#8

/-- A line way W0-W3. -/
abbrev Way := Fin 4

/-- A grid slot of a way. -/
abbrev GridSlot := Fin 96

/-- A destination index (R1): 0-383 line, 384-431 drop. -/
abbrev Dest := Fin 432

/-- An add-port identity, bank times 24 plus port. -/
abbrev Port := Fin 48

/-- A ramp slot of the RE (R70). -/
abbrev SlotNo := Fin 16

/-- A restoration plan (R106). -/
abbrev Plan := Fin 8

/-- A delayed-read slot of the CBP (R133). -/
abbrev ReadSlotNo := Fin 2

end Sys2Proof
end

