-- ==== Sys2Proof/Syntax.lean ====
section
/-! DEFINITION. The commands of the JK4208: one constructor for each row of spec/opcode_table.json. -/

namespace Sys2Proof

/-- The 37 steps of the part. A step that the host, the card or time causes carries its operands; a step of the part's own
works on what State holds. -/
inductive Instr where
  /-- RESET_ASSERT (R145): RESET_N goes low; `accessUnderWay` says whether the access that the arbiter grants next is under
  way at that moment and so is cut off. -/
  | resetAssert (accessUnderWay : Bool)
  /-- RESET_RELEASE (R145): RESET_N goes high with the straps at these levels. -/
  | resetRelease (winsel : BitVec 2) (lockout romen : Bool)
  /-- PRELOAD_END (R149): the image clocked in from the serial ROM has been judged (bytes 0-19, R146). -/
  | preloadEnd (image : List Byte)
  /-- TIMEBASE_TICK (R142). -/
  | timebaseTick
  /-- HOST_WRITE (R124, R126): bit i of `enables` says that byte enable i is asserted. -/
  | hostWrite (addr : Addr) (enables : BitVec 4) (data : Word)
  /-- HOST_READ (R124, R131). -/
  | hostRead (addr : Addr) (enables : BitVec 4)
  /-- DELAYED_READ_ISSUE (R133) of one slot. -/
  | delayedReadIssue (slot : ReadSlotNo)
  /-- DISCARD_TIMER_EXPIRY (R135) of one slot. -/
  | discardTimerExpiry (slot : ReadSlotNo)
  /-- PATH_WRITE (R23). -/
  | pathWrite
  /-- MASK_VIEW_WRITE (R87). -/
  | maskViewWrite
  /-- WRITE_THROUGH (R127). -/
  | writeThrough
  /-- PLAN_HEADER_WRITE (R109). -/
  | planHeaderWrite
  /-- STATUS_ZONE_WRITE (R129). -/
  | statusZoneWrite
  /-- NARROW_COMMAND_WRITE (R128). -/
  | narrowCommandWrite
  /-- CMD_UNLOCK (R130). -/
  | cmdUnlock
  /-- CMD_ABORT_SET (R33). -/
  | cmdAbortSet
  /-- CMD_EXCHANGE (R112). -/
  | cmdExchange
  /-- CMD_RELEASE (R103). -/
  | cmdRelease
  /-- CMD_RING_TAIL (R141). -/
  | cmdRingTail
  /-- CMD_RESTART (R153). -/
  | cmdRestart
  /-- CTL_WRITE_GRANT (R127). -/
  | ctlWriteGrant
  /-- CTL_READ_GRANT (R133). -/
  | ctlReadGrant
  /-- TBL_GRANT (R17). -/
  | tblGrant
  /-- RAMP_TICK_EXPIRY (R66). -/
  | rampTickExpiry
  /-- WAY_PASS (R67) of one way. -/
  | wayPass (w : Way)
  /-- ARBITER_OCCASION (R75). -/
  | arbiterOccasion
  /-- CHECK_INTERVAL_EXPIRY (R95). -/
  | checkIntervalExpiry
  /-- LOS_CHANGE (R94): the line of way `w` goes to `level` (true is high). -/
  | losChange (w : Way) (level : Bool)
  /-- WAY_EVALUATION (R96) of one way. -/
  | wayEvaluation (w : Way)
  /-- EXCHANGE_START (R113). -/
  | exchangeStart
  /-- EXCHANGE_ACCESS_GRANT (R114). -/
  | exchangeAccessGrant
  /-- EXCHANGE_SWAP (R116). -/
  | exchangeSwap
  /-- ADOPTION_START (R153). -/
  | adoptionStart
  /-- ADOPTION_ACCESS_GRANT (R150). -/
  | adoptionAccessGrant
  /-- EVENT_RECORD_GRANT (R140). -/
  | eventRecordGrant
  /-- RING_WORD_GRANT (R141). -/
  | ringWordGrant
  /-- STATUS_ZONE_GRANT (R143). -/
  | statusZoneGrant
  deriving DecidableEq, Repr

end Sys2Proof
end

