-- ==== Sys2Proof/Decode.lean ====
section
/-! DEFINITION. Reading a command from a word: spec/opcode_table.json gives no row any bits, so no word spells a command. -/

namespace Sys2Proof

/-- The command that a word of `nbits` bits spells by the table. The table gives bits to no row: every command comes from
outside with its operands, or from the part itself, so no word spells one. -/
def decodeTableWord (_nbits _w : Nat) : Option Instr := none

end Sys2Proof
end

