-- ==== Sys2Proof/Config.lean ====
section
/-! DEFINITION. What an implementation fixes and what the manual leaves free. -/

namespace Sys2Proof.Config

/-- What a byte of the SRAM that nothing has written reads as. DESIGN CHOICE (log 1), unsafe: the spec gives the SRAM no
contents at power-on. -/
def unwrittenByte : Byte := 0#8

/-- FREE VALUE (log 7): whether the byte of an SRAM access cut off by RESET_N that is read with counter value `n` holds
its new value. R145: "Each byte it was writing holds either its old value or its new one." -/
opaque cutByteWritten : Nat → Bool

/-- Capacity of the posted write queue (R126). -/
def postedCapacity : Nat := 8

/-- Capacity of the event queue (R138). -/
def eventCapacity : Nat := 8

/-- Capacity of the open set and of a change set (R23). -/
def setCapacity : Nat := 4

/-- Capacity of the set queue (R34). -/
def setQueueCapacity : Nat := 4

/-- Where the dropped count stays (R138). -/
def droppedLimit : Nat := 65535

end Sys2Proof.Config
end

