-- ==== Sys2Proof/Machine/Params.lean ====
section
/-! DEFINITION. The settings of the part: the parameters of R148, their defaults, and the judging of the serial ROM image
(R146, R147, R163, R164). -/

namespace Sys2Proof.Machine

/-- The four requesters of SRAM port A (R136). -/
inductive Requester where
  | ctl | tbl | xch | evt
  deriving DecidableEq, Repr

/-- Which requesters are in the high group (R136; byte 5 of R163). -/
structure Groups where
  ctl : Bool
  tbl : Bool
  xch : Bool
  evt : Bool
  deriving DecidableEq, Repr

/-- Whether requester `r` is in the high group. -/
def Groups.isHigh (g : Groups) : Requester → Bool
  | .ctl => g.ctl
  | .tbl => g.tbl
  | .xch => g.xch
  | .evt => g.evt

/-- The mode of a way's loss latch (R94). -/
inductive LosMode where
  | level | edge
  deriving DecidableEq, Repr

/-- The parameters and settings that preload sets (R148). -/
structure Params where
  /-- Address bits 23:16 of the path window. -/
  windowBase : Byte
  /-- Records of the event ring, 16-2048. -/
  ringLength : Nat
  groups : Groups
  /-- T: the ramp tick period in units of 50 µs, 1-255. -/
  tickPeriod : Nat
  /-- S: the maximum step, 1-50. -/
  maxStep : Nat
  /-- k: the slew fraction in 256ths, 1-64. -/
  slewFraction : Nat
  /-- F: the budget floor in weight, 96-4095. -/
  budgetFloor : Nat
  /-- The check interval in units of 50 µs, 1-255. -/
  checkInterval : Nat
  /-- Per way: LOSn reports loss when low. -/
  losActiveLow : Vector Bool 4
  losMode : Vector LosMode 4
  /-- Per way: its restoration plan, if any. -/
  plan : Vector (Option Plan) 4
  /-- Per way: manual recovery (R100). -/
  manual : Vector Bool 4
  /-- The discard time in units of 10 µs, 1-255. -/
  discardTime : Nat
  deriving DecidableEq, Repr

/-- The outcome of preload (R147). -/
inductive PreloadOutcome where
  | romUsed | disabled | signature | sum
  deriving DecidableEq, Repr

/-- The preload outcome code (R147). -/
def PreloadOutcome.code : PreloadOutcome → Nat
  | .romUsed => 0
  | .disabled => 1
  | .signature => 2
  | .sum => 3

/-- TBL and XCH high, CTL and EVT low (R136). -/
def defaultGroups : Groups :=
  { ctl := false, tbl := true, xch := true, evt := false }

/-- Every default of R148, with the given window base. -/
def defaultParams (base : Byte) : Params :=
  { windowBase := base
    ringLength := 256
    groups := defaultGroups
    tickPeriod := 20
    maxStep := 10
    slewFraction := 16
    budgetFloor := 256
    checkInterval := 5
    losActiveLow := Vector.replicate 4 false
    losMode := Vector.replicate 4 .level
    plan := Vector.replicate 4 none
    manual := Vector.replicate 4 false
    discardTime := 50 }

/-- The path window base that the WINSEL straps select (R145). -/
def strapWindowBase (winsel : BitVec 2) : Byte :=
  if winsel = 0#2 then 0x00#8 else if winsel = 1#2 then 0x10#8 else if winsel = 2#2 then 0x40#8 else 0x80#8

/-- The value replaced by the nearer limit of its range (R148). -/
def clampTo (lo hi v : Nat) : Nat := max lo (min hi v)

/-- Byte `n` of the ROM image; a byte that is not there reads 0 (log 27; a well-formed image has all twenty). -/
def romByte (image : List Byte) (n : Nat) : Byte := image.getD n 0#8

/-- The two-byte parameter at bytes `n` and `n + 1`, low byte first (R164). -/
def romPair (image : List Byte) (n : Nat) : Nat :=
  (romByte image n).toNat + 256 * (romByte image (n + 1)).toNat

/-- The sum of the twenty bytes modulo 256 (R147). -/
def romSum (image : List Byte) : Byte :=
  (List.range 20).foldl (fun acc n => acc + romByte image n) 0#8

/-- The restoration plan that a ROM byte names: 0-7, and none for any other value (R164). -/
def romPlan (b : Byte) : Option Plan :=
  if h : b.toNat < 8 then some ⟨b.toNat, h⟩ else none

/-- The parameters that a good image gives, clamped (R163, R164). -/
def romParams (image : List Byte) : Params :=
  { windowBase := romByte image 2
    ringLength := clampTo 16 2048 (romPair image 3)
    groups :=
      { ctl := (romByte image 5).getLsbD 0
        tbl := (romByte image 5).getLsbD 1
        xch := (romByte image 5).getLsbD 2
        evt := (romByte image 5).getLsbD 3 }
    tickPeriod := clampTo 1 255 (romByte image 6).toNat
    maxStep := clampTo 1 50 (romByte image 7).toNat
    slewFraction := clampTo 1 64 (romByte image 8).toNat
    budgetFloor := clampTo 96 4095 (romPair image 9)
    checkInterval := clampTo 1 255 (romByte image 11).toNat
    losActiveLow := Vector.ofFn fun w : Way => (romByte image 12).getLsbD w.val
    losMode := Vector.ofFn fun w : Way => if (romByte image 12).getLsbD (4 + w.val) then .edge else .level
    plan := Vector.ofFn fun w : Way => romPlan (romByte image (13 + w.val))
    manual := Vector.ofFn fun w : Way => (romByte image 17).getLsbD w.val
    discardTime := clampTo 1 255 (romByte image 18).toNat }

/-- The judging of the image, first failing check first (R147). -/
def judgeImage (romen : Bool) (image : List Byte) : PreloadOutcome :=
  if romen = false then .disabled
  else if romByte image 0 ≠ 0xC3#8 ∨ romByte image 1 ≠ 17#8 then .signature
  else if romSum image ≠ 0#8 then .sum
  else .romUsed

/-- The parameters that preload puts into effect (R147, R148). -/
def preloadParams (outcome : PreloadOutcome) (winsel : BitVec 2) (image : List Byte) : Params :=
  match outcome with
  | .romUsed => romParams image
  | .disabled => defaultParams (strapWindowBase winsel)
  | .signature => defaultParams (strapWindowBase winsel)
  | .sum => defaultParams (strapWindowBase winsel)

/-- Detail B of BOOT_DEFAULTS: the signature byte at 7:0 and the sum at 15:8, both 0 for DISABLED (R147, R162). -/
def bootDetail (outcome : PreloadOutcome) (image : List Byte) : Word :=
  match outcome with
  | .disabled => 0#32
  | .romUsed => 0#32
  | .signature => BitVec.ofNat 32 ((romByte image 0).toNat + 256 * (romSum image).toNat)
  | .sum => BitVec.ofNat 32 ((romByte image 0).toNat + 256 * (romSum image).toNat)

end Sys2Proof.Machine
end

