-- ==== Sys2Proof/Machine/State.lean ====
section
/-! DEFINITION. The state of the JK4208, block by block (spec/00_scope.md section 4), as plain data, and the state after a
hard reset. -/

namespace Sys2Proof.Machine

/-- Why the part could stop. No command of the JK4208 stops it: FAULT is a host response (R124) and is state, so this type
has no constructor. -/
inductive Fault where
  deriving DecidableEq, Repr

/-- Why a command could be left without a meaning. -/
inductive Refusal where
  /-- Raised only by an arm of exec that gives its command no meaning; no arm does. Safe. -/
  | notModelled (mnemonic : String)
  deriving DecidableEq, Repr

/-- The source of a destination (R2). A line destination takes none, an express way or an add port; a drop destination
takes none, or a way and grid slot. -/
inductive Source where
  | none
  | express (k : Way)
  | port (p : Port)
  | drop (k : Way) (n : GridSlot)
  deriving DecidableEq, Repr

/-- A destination record (R2). A drop record's `blocked` and `wanted` stay false and its `slot` stays absent. -/
structure DestRecord where
  intentSrc : Source
  intentAttn : Attn
  curSrc : Source
  curAttn : Attn
  blocked : Bool
  forced : Bool
  queued : Nat
  wanted : Bool
  slot : Option SlotNo
  deriving DecidableEq, Repr

/-- An add-port record (R48). -/
structure PortRecord where
  holder : Option Dest
  claimant : Option Dest
  deriving DecidableEq, Repr

/-- An entry of the table-update list with its host tag (R16, R18). A tag is the posted write's place in the order of
giving out (log 16). -/
structure UpdateEntry where
  dest : Dest
  tag : Option Nat
  deriving DecidableEq, Repr

/-- The DT's state. -/
structure DestTable where
  records : Vector (Option DestRecord) 432
  ports : Vector PortRecord 48
  updates : List UpdateEntry
  isolated : Vector Bool 4
  deriving DecidableEq, Repr

/-- The phase of an occupied ramp slot (R70). -/
inductive Phase where
  | dimming | brightening | portWait
  deriving DecidableEq, Repr

/-- An occupied ramp slot (R70); its way is its destination's and its list position is its place in `RampEngine.list`.
`serves` names a set by its identity (log 17). -/
structure RampSlot where
  dest : Dest
  phase : Phase
  goal : Attn
  serves : Option Nat
  deriving DecidableEq, Repr

/-- The RE's state. `passesDue` counts, for each way, the passes of running ticks that are still to be taken (R67; log 11);
`occasionDue` says that an occasion of the arbiter is still to be taken (R75; log 12). -/
structure RampEngine where
  slots : Vector (Option RampSlot) 16
  list : List SlotNo
  loads : Vector Nat 4
  tickTimer : Bool
  deferred : Bool
  passesDue : Vector Nat 4
  occasionDue : Bool
  deriving DecidableEq, Repr

/-- An entry of the open set (R23). -/
structure OpenEntry where
  dest : Dest
  word : Word
  deriving DecidableEq, Repr

/-- An entry of a queued set (R31). -/
structure SetEntry where
  dest : Dest
  src : Source
  attn : Attn
  word : Word
  deriving DecidableEq, Repr

/-- A queued set (R31). -/
structure QueuedSet where
  label : BitVec 4
  entries : List SetEntry
  deriving DecidableEq, Repr

/-- An entry of the settling-set list (R42), with the identity that ramp slots name it by (log 17). -/
structure SettlingSet where
  id : Nat
  label : BitVec 4
  entries : Nat
  remaining : Nat
  interrupted : Nat
  deriving DecidableEq, Repr

/-- The CSA's state. `nextSet` is the model's own: the identity of the next applied set (log 17). -/
structure SetAssembler where
  openSet : List OpenEntry
  queue : List QueuedSet
  settling : List SettlingSet
  nextSet : Nat
  deriving DecidableEq, Repr

/-- The state of a way (R96). -/
inductive WayState where
  | clear | warning | degraded | isolated | awaitRelease
  deriving DecidableEq, Repr

/-- The LM's record of one way (R96). -/
structure WayRecord where
  latch : Bool
  state : WayState
  counter : Nat
  recovery : Nat
  planRequested : Bool
  deriving DecidableEq, Repr

/-- The LM's state. `evalsDue` counts, for each way, the evaluations of expiries that are still to be taken; `evalAhead`
marks a way whose evaluation was taken before the snapshot of its expiry (R95; log 9). -/
structure LightMonitor where
  ways : Vector WayRecord 4
  watching : Bool
  checkTimer : Bool
  evalsDue : Vector Nat 4
  evalAhead : Vector Bool 4
  deriving DecidableEq, Repr

/-- The origin of an exchange request (R110). -/
inductive Origin where
  | controller
  | fault (w : Way)
  deriving DecidableEq, Repr

/-- An exchange request (R110). -/
structure ExchangeRequest where
  origin : Origin
  plan : Plan
  deriving DecidableEq, Repr

/-- The XE's condition of a plan (R108). -/
inductive PlanCondition where
  | idle | torn
  deriving DecidableEq, Repr

/-- What a running exchange does next (R114). -/
inductive ExchangeStage where
  /-- Write the header IN_PROGRESS with the present step and counts. -/
  | header
  /-- Read the key word of the entry. -/
  | key
  /-- Read the plan path word of the entry. -/
  | path
  /-- The entry passed the static checks; the DT's swap request comes next. -/
  | swap
  /-- Write the kept word as the entry's plan path word. -/
  | kept (w : Word)
  /-- Write the header IDLE with the final counts and end. -/
  | final
  deriving DecidableEq, Repr

/-- The running exchange (R110) with the key and path words of the entry in hand (section 7.5). -/
structure RunningExchange where
  request : ExchangeRequest
  step : Fin 16
  swapped : Nat
  skipped : Nat
  stage : ExchangeStage
  keyWord : Word
  pathWord : Word
  deriving DecidableEq, Repr

/-- The XE's state. -/
structure ExchangeEngine where
  list : List ExchangeRequest
  conditions : Vector PlanCondition 8
  running : Option RunningExchange
  deriving DecidableEq, Repr

/-- The kinds of event record (section 9.6). -/
inductive RecordKind where
  | setRejected | trialPassed | setSettled | setAbandoned | wayState | exchangeDone | exchangeRefused | exchangeMerged
  | planEntrySkipped | planTorn | readDiscarded | writeIgnored | tailRefused | releaseIgnored | bootDefaults
  | adoptionDone | adoptionFixed
  deriving DecidableEq, Repr

/-- An event record (R138, R161). -/
structure EventRecord where
  kind : RecordKind
  reason : Byte
  subject : BitVec 16
  detailA : Word
  detailB : Word
  stamp : Word
  deriving DecidableEq, Repr

/-- A status-zone rewrite in hand (R143): the snapshot of words 1 to 12, and the word that is written next, 0-12. -/
structure StatusRewrite where
  snapshot : Vector Word 12
  next : Fin 13
  deriving DecidableEq, Repr

/-- The EW's state. `stage` counts the grants made of the front record (R140); `recordFirst` says that the front record is
written before a rewrite that was begun again (R140; log 22). -/
structure EventWriter where
  queue : List EventRecord
  dropped : Nat
  head : Nat
  tail : Nat
  stage : Fin 5
  ringWordDue : Bool
  rewrite : Option StatusRewrite
  recordFirst : Bool
  timebase : Word
  evtAsserted : Bool
  deriving DecidableEq, Repr

/-- The size of a host access (R124). -/
inductive Size where
  | one | two | four
  deriving DecidableEq, Repr

/-- The four views of a mask word (R84). -/
inductive MaskView where
  | direct | setOnes | clearOnes | toggleOnes
  deriving DecidableEq, Repr

/-- The zones that the WD classifies an address into (R125). -/
inductive Zone where
  | passThrough
  | linePath
  | dropPath
  | mask (view : MaskView)
  | command
  | status
  | planStore
  | planHeader
  | ring
  | plain
  deriving DecidableEq, Repr

/-- An entry of the posted write queue (R126). `tag` is its place in the order of giving out sequence numbers (log 16). -/
structure PostedWrite where
  addr : Addr
  size : Size
  data : Word
  zone : Zone
  tag : Nat
  deriving DecidableEq, Repr

/-- One access of the SRAM port, inside one word (R136). -/
inductive Access where
  | read (addr : Nat) (count : Nat)
  | write (addr : Nat) (bytes : List Byte)
  deriving DecidableEq, Repr

/-- The condition of the posted write queue's head (R127). -/
inductive HeadStage where
  /-- Not yet taken by its owner. -/
  | waiting
  /-- A mask view write in handling: the word, and its changed bits, ascending, whose blocked-flag requests are still to be
  sent (R87). -/
  | masking (m : Fin 12) (todo : List (Fin 32))
  /-- In handling: the memory writes still to be granted; `restart` marks the mailbox of CMD_RESTART (R153). -/
  | writing (todo : List Access) (restart : Bool)
  /-- An accepted CMD_RING_TAIL whose ring word is still to be written (R141). -/
  | ringWord
  /-- A CMD_RESTART that has been carried out and whose adoption has not ended (R128). -/
  | restarting
  deriving DecidableEq, Repr

/-- The state of an occupied delayed-read slot (R133). -/
inductive ReadState where
  | latched
  /-- The bytes already read of a crossing read. -/
  | issued (got : List Byte)
  /-- The bytes read, lowest address first. -/
  | complete (data : List Byte)
  deriving DecidableEq, Repr

/-- An occupied delayed-read slot (R133). -/
structure ReadSlot where
  addr : Addr
  size : Size
  state : ReadState
  barrier : Option Nat
  deriving DecidableEq, Repr

/-- A host transaction held with WAIT (R126, R132). -/
inductive HeldTransaction where
  | write (addr : Addr) (size : Size) (data : Word)
  | read (addr : Addr) (size : Size) (got : List Byte)
  deriving DecidableEq, Repr

/-- The window lock (R130). -/
inductive Lock where
  | opened | adopting | held
  deriving DecidableEq, Repr

/-- The response that the CBP last drove on HRSP2-HRSP0, with the bytes of DATA on HD31-HD0 (R124; log 30). -/
inductive Response where
  | idle
  | done
  /-- DATA with the bytes of the read, the one at the address on HD7-HD0. -/
  | data (bytes : List Byte)
  | wait
  | retry
  | fault
  deriving DecidableEq, Repr

/-- The CBP's state. -/
structure BusPort where
  queue : List PostedWrite
  head : HeadStage
  postedCount : Nat
  slots : Vector (Option ReadSlot) 2
  latchOrder : List ReadSlotNo
  held : Option HeldTransaction
  lock : Lock
  response : Response
  deriving DecidableEq, Repr

/-- A position of the upper ring (R136). -/
inductive UpperPosition where
  | requester (r : Requester)
  | low
  deriving DecidableEq, Repr

/-- The TMP's pointers (R136). -/
structure MemoryPort where
  upper : UpperPosition
  lower : Requester
  deriving DecidableEq, Repr

/-- How far the part is from a hard reset (R145, R149). -/
inductive Power where
  | resetAsserted | preload | running
  deriving DecidableEq, Repr

/-- What adoption does next (R150, R151, R153). -/
inductive AdoptionStage where
  /-- Wait for TBL to drain the table-update list (restart only). -/
  | drain
  | mask (m : Fin 12)
  | path (d : Dest)
  | fixedWord (d : Dest) (w : Word)
  | header (p : Plan)
  | tornHeader (p : Plan) (w : Word)
  deriving DecidableEq, Repr

/-- The adoption under way, with its counts. -/
structure Adoption where
  stage : AdoptionStage
  adopted : Nat
  fixed : Nat
  deriving DecidableEq, Repr

/-- The PU's state. -/
structure PreloadUnit where
  power : Power
  winsel : BitVec 2
  lockout : Bool
  romen : Bool
  params : Params
  outcome : PreloadOutcome
  adoption : Option Adoption
  /-- The level of SRCS_N. -/
  srcsN : Bool
  /-- The bytes shifted out on SRDO in this preload. -/
  romSent : List Byte
  deriving DecidableEq, Repr

/-- The whole part, with the table SRAM, the LOS lines, and two fields of the model's own: the queue of commands that wait
(log 3) and the counter that free values are read with (log 7). -/
structure State where
  pending : List Instr
  cbp : BusPort
  csa : SetAssembler
  dt : DestTable
  re : RampEngine
  masks : Vector (Option Word) 12
  lm : LightMonitor
  xe : ExchangeEngine
  ew : EventWriter
  tmp : MemoryPort
  pu : PreloadUnit
  /-- The levels of LOS3-LOS0. -/
  los : Vector Bool 4
  /-- The table SRAM: the bytes that differ from an unwritten one, addresses strictly rising. -/
  mem : List Host.Cell
  freeCount : Nat
  deriving DecidableEq, Repr

/-- The machine with RESET_N asserted: every piece of state as a hard reset leaves it (R145; log 2). -/
def State.reset : State :=
  { pending := []
    cbp :=
      { queue := [], head := .waiting, postedCount := 0, slots := Vector.replicate 2 none, latchOrder := []
        held := none, lock := .adopting, response := .idle }
    csa := { openSet := [], queue := [], settling := [], nextSet := 0 }
    dt :=
      { records := Vector.replicate 432 none
        ports := Vector.replicate 48 { holder := none, claimant := none }
        updates := []
        isolated := Vector.replicate 4 false }
    re :=
      { slots := Vector.replicate 16 none, list := [], loads := Vector.replicate 4 0, tickTimer := false
        deferred := false, passesDue := Vector.replicate 4 0, occasionDue := false }
    masks := Vector.replicate 12 none
    lm :=
      { ways := Vector.replicate 4
          { latch := false, state := .clear, counter := 0, recovery := 0, planRequested := false }
        watching := false, checkTimer := false
        evalsDue := Vector.replicate 4 0, evalAhead := Vector.replicate 4 false }
    xe := { list := [], conditions := Vector.replicate 8 .idle, running := none }
    ew :=
      { queue := [], dropped := 0, head := 0, tail := 0, stage := 0, ringWordDue := false, rewrite := none
        recordFirst := false, timebase := 0#32, evtAsserted := false }
    tmp := { upper := .low, lower := .ctl }
    pu :=
      { power := .resetAsserted, winsel := 0#2, lockout := false, romen := false, params := defaultParams 0#8
        outcome := .romUsed, adoption := none, srcsN := true, romSent := [] }
    los := Vector.replicate 4 false
    mem := []
    freeCount := 0 }

end Sys2Proof.Machine
end

