-- ==== Sys2Proof/Machine/Operands.lean ====
section
/-! DEFINITION. Operand forms: fields and bytes of words, host accesses and their zones, path words and their sources, and
the packings of record details, status words, plan words and mask words. -/

namespace Sys2Proof.Machine

/-! ### Fields and bytes (section 6.3) -/

/-- Bits `lo + len - 1` down to `lo` of a word, as a number. -/
def field (w : Word) (lo len : Nat) : Nat := w.toNat / 2 ^ lo % 2 ^ len

/-- Byte `i` of a word, byte 0 at the lowest address. -/
def byteAt (w : Word) (i : Nat) : Byte := BitVec.ofNat 8 (w.toNat / 2 ^ (8 * i))

/-- The four bytes of a word, lowest address first. -/
def wordBytes (w : Word) : List Byte := [byteAt w 0, byteAt w 1, byteAt w 2, byteAt w 3]

/-- The word that bytes make, lowest address first. -/
def wordOfBytes (bytes : List Byte) : Word :=
  BitVec.ofNat 32 (bytes.foldr (fun b acc => b.toNat + 256 * acc) 0)

/-- `base` with `bytes` put in at byte position `pos`; the other bytes are kept (R24, R85). -/
def mergeBytes (base : Word) (pos : Nat) (bytes : List Byte) : Word :=
  wordOfBytes ((wordBytes base).take pos ++ bytes ++ (wordBytes base).drop (pos + bytes.length))

/-- Bytes at their byte positions with every other byte 0 (R162). -/
def bytesInPlace (pos : Nat) (bytes : List Byte) : Word := mergeBytes 0#32 pos bytes

/-- A number as a record subject that is limited to 65,535 (R162). -/
def limitSubject (n : Nat) : BitVec 16 := BitVec.ofNat 16 (min n 65535)

/-! ### Host accesses and the window (R124, R125) -/

/-- The number of bytes of an access. -/
def Size.bytes : Size → Nat
  | .one => 1
  | .two => 2
  | .four => 4

/-- The number of byte enables asserted. -/
def enabledCount (enables : BitVec 4) : Nat :=
  (enables.getLsbD 0).toNat + (enables.getLsbD 1).toNat + (enables.getLsbD 2).toNat + (enables.getLsbD 3).toNat

/-- The size that the byte enables select; 0 or 3 asserted select none (R124). -/
def sizeOfEnables (enables : BitVec 4) : Option Size :=
  match enabledCount enables with
  | 1 => some .one
  | 2 => some .two
  | 4 => some .four
  | _ => none

/-- The offset of an address inside its 64 KiB region. -/
def offsetOf (a : Addr) : Nat := a.toNat % 65536

/-- Address bits 23:16 equal the window base (R125). -/
def inWindow (p : Params) (a : Addr) : Bool := a.toNat / 65536 == p.windowBase.toNat

/-- The SRAM address of a window offset. -/
def windowAddr (p : Params) (offset : Nat) : Nat := p.windowBase.toNat * 65536 + offset

/-- The bytes of the access cross a 4-byte boundary (R125). -/
def crosses (a : Addr) (size : Size) : Bool := decide (4 < a.toNat % 4 + size.bytes)

/-- The last byte of the access lies in the window. -/
def lastInWindow (p : Params) (a : Addr) (size : Size) : Bool :=
  (a.toNat + size.bytes - 1) / 65536 == p.windowBase.toNat

/-- The access is answered FAULT: it runs past 0xFFFFFF, or it crosses and touches the window (R125). -/
def accessFaults (p : Params) (a : Addr) (size : Size) : Bool :=
  decide (2 ^ 24 < a.toNat + size.bytes) || (crosses a size && (inWindow p a || lastInWindow p a size))

/-- The zone of a window offset (R125). -/
def zoneOfOffset (ringLength : Nat) (o : Nat) : Zone :=
  if o < 0x600 then .linePath
  else if o < 0x6C0 then .dropPath
  else if 0x700 ≤ o ∧ o < 0x730 then .mask .direct
  else if 0x740 ≤ o ∧ o < 0x770 then .mask .setOnes
  else if 0x780 ≤ o ∧ o < 0x7B0 then .mask .clearOnes
  else if 0x7C0 ≤ o ∧ o < 0x7F0 then .mask .toggleOnes
  else if 0x800 ≤ o ∧ o < 0x818 then .command
  else if 0x900 ≤ o ∧ o < 0x934 then .status
  else if 0x1000 ≤ o ∧ o < 0x1400 then .planStore
  else if 0x1400 ≤ o ∧ o < 0x1420 then .planHeader
  else if 0x8000 ≤ o ∧ o < 0x8000 + 16 * ringLength then .ring
  else .plain

/-- The zone of a host address (R125). -/
def zoneOf (p : Params) (a : Addr) : Zone :=
  if inWindow p a then zoneOfOffset p.ringLength (offsetOf a) else .passThrough

/-- The start of a mask view's zone (R84). -/
def viewOffset : MaskView → Nat
  | .direct => 0x700
  | .setOnes => 0x740
  | .clearOnes => 0x780
  | .toggleOnes => 0x7C0

/-- The SRAM address that a host read at `a` is served from: an alias view is redirected to the direct view (R88, R131). -/
def readAddr (p : Params) (a : Addr) : Nat :=
  match zoneOf p a with
  | .mask v => windowAddr p (0x700 + (offsetOf a - viewOffset v))
  | _ => a.toNat

/-- The single-word accesses of `count` bytes at `a`, in ascending address order (R125). -/
def splitWords (a count : Nat) : List (Nat × Nat) :=
  if a % 4 + count ≤ 4 then [(a, count)] else [(a, 4 - a % 4), (a + (4 - a % 4), count - (4 - a % 4))]

/-- The bytes that a posted write of `size` carries: the low bytes of the data, the byte at the address on HD7-HD0 (R124). -/
def postedBytes (size : Size) (data : Word) : List Byte := (wordBytes data).take size.bytes

/-- The memory writes of a posted write that is written through exactly as posted (R127). -/
def throughWrites (a : Addr) (size : Size) (data : Word) : List Access :=
  (splitWords a.toNat size.bytes).map fun piece =>
    .write piece.1 (((postedBytes size data).drop (piece.1 - a.toNat)).take piece.2)

/-- The number of the command word that an offset of the command zone names: 0 for CMD_UNLOCK to 5 for CMD_RESTART (R128). -/
def commandOffset (n : Nat) : Nat := 0x800 + 4 * n

/-! ### Destinations (R1) -/

/-- All destinations, ascending. -/
def allDests : List Dest := List.finRange 432

/-- Indices 0-383 are line destinations. -/
def isLine (d : Dest) : Bool := decide (d.val < 384)

/-- The way of a line destination. -/
def wayOf (d : Dest) : Way := ⟨d.val / 96 % 4, Nat.mod_lt _ (by decide)⟩

/-- The grid slot of a line destination. -/
def gridOf (d : Dest) : Nat := d.val % 96

/-- The window offset of a destination's path word (R1). -/
def pathOffset (d : Dest) : Nat := 4 * d.val

/-- The destination that a path-image offset names (R23). -/
def destOfOffset (o : Nat) : Option Dest :=
  if h : o / 4 < 432 then some ⟨o / 4, h⟩ else none

/-- The destination that a plan key names, if it is one of the table (R107). -/
def destOfNat (n : Nat) : Option Dest := if h : n < 432 then some ⟨n, h⟩ else none

/-! ### Mask words (R83, R155) -/

/-- The mask word that carries a line destination's bit. -/
def maskWordOf (d : Dest) : Fin 12 := ⟨d.val / 32 % 12, Nat.mod_lt _ (by decide)⟩

/-- The bit of that word. -/
def maskBitOf (d : Dest) : Nat := d.val % 32

/-- The line destination of bit `b` of mask word `m`. -/
def maskDest (m : Fin 12) (b : Fin 32) : Dest := ⟨32 * m.val + b.val, by omega⟩

/-- The new value of a mask word after a write through a view (R85, R86). -/
def maskWrite (view : MaskView) (old : Word) (pos : Nat) (bytes : List Byte) : Word :=
  match view with
  | .direct => mergeBytes old pos bytes
  | .setOnes => old ||| bytesInPlace pos bytes
  | .clearOnes => old &&& ~~~ (bytesInPlace pos bytes)
  | .toggleOnes => old ^^^ bytesInPlace pos bytes

/-! ### Path words (R14, R25, R154) -/

/-- The way that feeds a destination with this source (R7). -/
def Source.feed : Source → Option Way
  | .none => Option.none
  | .express k => some k
  | .port _ => Option.none
  | .drop k _ => some k

/-- The SRC code of a source (R14). -/
def Source.srcCode : Source → Nat
  | .none => 0
  | .express k => 1 + k.val
  | .port p => if p.val < 24 then 5 else 6
  | .drop k _ => 1 + k.val

/-- The INDEX field of a source (R14). -/
def Source.indexField : Source → Nat
  | .none => 0
  | .express _ => 0
  | .port p => if p.val < 24 then p.val else p.val - 24
  | .drop _ n => n.val

/-- A path word with the given fields; LABEL, TRIAL, CLOSE and the unassigned bits are 0 (R14, R154). -/
def composePath (src : Source) (attn : Attn) (state : Nat) : Word :=
  BitVec.ofNat 32 (attn.toNat + src.srcCode * 2 ^ 8 + src.indexField * 2 ^ 11 + state * 2 ^ 20)

/-- The ATTN field. -/
def pathAttn (w : Word) : Attn := BitVec.ofNat 8 (field w 0 8)

/-- The source that SRC and INDEX give to a line destination; none where BAD_SOURCE holds (R25, R29). -/
def lineSource (w : Word) : Option Source :=
  match field w 8 3 with
  | 0 => some .none
  | 1 => some (.express 0)
  | 2 => some (.express 1)
  | 3 => some (.express 2)
  | 4 => some (.express 3)
  | 5 => if h : field w 11 7 < 24 then some (.port ⟨field w 11 7, by omega⟩) else Option.none
  | 6 => if h : field w 11 7 < 24 then some (.port ⟨24 + field w 11 7, by omega⟩) else Option.none
  | _ => Option.none

/-- The way that SRC 1-4 gives to a drop destination. -/
def dropWay (src : Nat) : Option Way :=
  match src with
  | 1 => some 0
  | 2 => some 1
  | 3 => some 2
  | 4 => some 3
  | _ => Option.none

/-- The source that SRC and INDEX give to a drop destination; none where BAD_SOURCE holds (R25, R29). -/
def dropSource (w : Word) : Option Source :=
  if field w 8 3 = 0 then some .none
  else
    match dropWay (field w 8 3) with
    | some k => if h : field w 11 7 < 96 then some (.drop k ⟨field w 11 7, h⟩) else Option.none
    | Option.none => Option.none

/-- The source that a path word gives to destination `d` (R25). -/
def pathSource (d : Dest) (w : Word) : Option Source := if isLine d then lineSource w else dropSource w

/-- The source is express from the line destination's own way (R29, UTURN). -/
def isUturn (d : Dest) (src : Source) : Bool := isLine d && src == .express (wayOf d)

/-- The word that the CSA stores: LABEL, TRIAL and CLOSE cleared (R25). -/
def storedWord (w : Word) : Word := w &&& 0x30FFFFFF#32

/-- The LABEL field. -/
def pathLabel (w : Word) : BitVec 4 := BitVec.ofNat 4 (field w 24 4)

/-- The TRIAL bit. -/
def pathTrial (w : Word) : Bool := w.getLsbD 30

/-- The CLOSE bit. -/
def pathClose (w : Word) : Bool := w.getLsbD 31

/-! ### Codes (section 11) -/

/-- The window lock code (R130). -/
def Lock.code : Lock → Nat
  | .opened => 0
  | .adopting => 1
  | .held => 2

/-- The way state code (R96). -/
def WayState.code : WayState → Nat
  | .clear => 0
  | .warning => 1
  | .degraded => 2
  | .isolated => 3
  | .awaitRelease => 4

/-- The STATE code of a slot's phase (R13). -/
def Phase.code : Phase → Nat
  | .dimming => 2
  | .brightening => 3
  | .portWait => 4

/-- The HRSP2-HRSP0 code of a response (R124). -/
def Response.code : Response → Nat
  | .idle => 0
  | .done => 1
  | .data _ => 2
  | .wait => 3
  | .retry => 4
  | .fault => 5

/-- The kind codes of section 9.6. -/
def RecordKind.code : RecordKind → Nat
  | .setRejected => 0x01
  | .trialPassed => 0x02
  | .setSettled => 0x03
  | .setAbandoned => 0x04
  | .wayState => 0x05
  | .exchangeDone => 0x06
  | .exchangeRefused => 0x07
  | .exchangeMerged => 0x08
  | .planEntrySkipped => 0x09
  | .planTorn => 0x0A
  | .readDiscarded => 0x0B
  | .writeIgnored => 0x0C
  | .tailRefused => 0x0D
  | .releaseIgnored => 0x0E
  | .bootDefaults => 0x0F
  | .adoptionDone => 0x10
  | .adoptionFixed => 0x11

/-! ### Plan words (R160) -/

/-- The window offset of entry `i` of plan `p`: its key word (R106). -/
def planKeyOffset (p : Plan) (i : Nat) : Nat := 0x1000 + 0x80 * p.val + 8 * i

/-- The window offset of its plan path word. -/
def planPathOffset (p : Plan) (i : Nat) : Nat := planKeyOffset p i + 4

/-- The window offset of a plan's header (R108). -/
def planHeaderOffset (p : Plan) : Nat := 0x1400 + 4 * p.val

/-- A plan header word: state 0 IDLE, 1 IN_PROGRESS, 2 TORN (R160). -/
def planHeader (state step swapped skipped : Nat) : Word :=
  BitVec.ofNat 32 (state + step * 2 ^ 4 + swapped * 2 ^ 8 + skipped * 2 ^ 16)

/-- A header found torn, written back: state TORN, the step and counts as found, every other bit 0 (R151). -/
def tornHeaderWord (found : Word) : Word :=
  planHeader 2 (field found 4 4) (field found 8 8) (field found 16 8)

/-- VALID of a key word. -/
def keyValid (w : Word) : Bool := w.getLsbD 31

/-- The destination field of a key word. -/
def keyDest (w : Word) : Nat := field w 0 9

/-! ### Record words and details (R161, R162) -/

/-- Word 0 of a record. -/
def recordWord0 (r : EventRecord) : Word :=
  BitVec.ofNat 32 (r.kind.code + r.reason.toNat * 2 ^ 8 + r.subject.toNat * 2 ^ 16)

/-- Label, entry count, trial mark, queued mark. -/
def setDetail (label : BitVec 4) (entries : Nat) (trial queued : Bool) : Word :=
  BitVec.ofNat 32 (label.toNat + entries * 2 ^ 8 + trial.toNat * 2 ^ 16 + queued.toNat * 2 ^ 17)

/-- Entry count and remaining count. -/
def abandonDetail (entries remaining : Nat) : Word := BitVec.ofNat 32 (entries + remaining * 2 ^ 8)

/-- Add port and conflicting destination. -/
def portDetail (p : Port) (d : Dest) : Word := BitVec.ofNat 32 (p.val + d.val * 2 ^ 16)

/-- Old and new state codes. -/
def stateDetail (old new : WayState) : Word := BitVec.ofNat 32 (old.code + new.code * 2 ^ 8)

/-- Counter and recovery count. -/
def counterDetail (counter recovery : Nat) : Word := BitVec.ofNat 32 (counter + recovery * 2 ^ 8)

/-- Origin and way. -/
def originDetail : Origin → Word
  | .controller => 0#32
  | .fault w => BitVec.ofNat 32 (1 + w.val * 2 ^ 8)

/-- Swapped and skipped counts. -/
def countsDetail (swapped skipped : Nat) : Word := BitVec.ofNat 32 (swapped + skipped * 2 ^ 8)

/-- Merged-with description: listed or running, with the origin and way of the request merged with. -/
def mergedDetail (running : Bool) : Origin → Word
  | .controller => BitVec.ofNat 32 running.toNat
  | .fault w => BitVec.ofNat 32 (running.toNat + 2 ^ 8 + w.val * 2 ^ 16)

/-- Plan and entry index. -/
def entryDetail (p : Plan) (i : Nat) : Word := BitVec.ofNat 32 (p.val + i * 2 ^ 8)

/-! ### Status zone words (R158) -/

/-- The ring word. -/
def ringWordOf (head tail : Nat) : Word := BitVec.ofNat 32 (head + tail * 2 ^ 16)

/-- The part-state word: bits 14:12 carry the running plan, 0 while the XE is idle. -/
def partStateWord (lock : Lock) (outcome : PreloadOutcome) (running : Option Plan) (listed : Nat) : Word :=
  match running with
  | some p => BitVec.ofNat 32 (lock.code + outcome.code * 2 ^ 4 + 2 ^ 8 + p.val * 2 ^ 12 + listed * 2 ^ 16)
  | none => BitVec.ofNat 32 (lock.code + outcome.code * 2 ^ 4 + listed * 2 ^ 16)

/-- The counts word. -/
def countsWord (openEntries queued freeSlots settling : Nat) : Word :=
  BitVec.ofNat 32 (openEntries + queued * 2 ^ 8 + freeSlots * 2 ^ 16 + settling * 2 ^ 24)

/-- A way's state word. -/
def wayStateWord (r : WayRecord) : Word :=
  BitVec.ofNat 32 (r.state.code + r.counter * 2 ^ 8 + r.recovery * 2 ^ 16)

end Sys2Proof.Machine
end

