-- ==== Sys2Proof/Machine/Power.lean ====
section
/-! DEFINITION. Relative optical power: the weight table of R62 and the arithmetic of costs and budgets (R63, R67). -/

namespace Sys2Proof.Machine

/-- The 256 weights of R62, in order of attenuation. -/
def weightTable : List Nat :=
  [4096, 4003, 3912, 3823, 3736, 3651, 3567, 3486, 3407, 3329, 3254, 3180, 3107, 3036, 2967, 2900] ++
  [2834, 2769, 2706, 2645, 2584, 2526, 2468, 2412, 2357, 2303, 2251, 2200, 2150, 2101, 2053, 2006] ++
  [1960, 1916, 1872, 1830, 1788, 1747, 1707, 1669, 1631, 1594, 1557, 1522, 1487, 1453, 1420, 1388] ++
  [1356, 1325, 1295, 1266, 1237, 1209, 1181, 1154, 1128, 1102, 1077, 1053, 1029, 1005, 983, 960] ++
  [938, 917, 896, 876, 856, 836, 817, 799, 780, 763, 745, 728, 712, 696, 680, 664] ++
  [649, 634, 620, 606, 592, 579, 565, 553, 540, 528, 516, 504, 492, 481, 470, 460] ++
  [449, 439, 429, 419, 410, 400, 391, 382, 374, 365, 357, 349, 341, 333, 325, 318] ++
  [311, 304, 297, 290, 283, 277, 271, 264, 258, 253, 247, 241, 236, 230, 225, 220] ++
  [215, 210, 205, 201, 196, 192, 187, 183, 179, 175, 171, 167, 163, 159, 156, 152] ++
  [149, 145, 142, 139, 136, 133, 130, 127, 124, 121, 118, 115, 113, 110, 108, 105] ++
  [103, 101, 98, 96, 94, 92, 90, 88, 86, 84, 82, 80, 78, 76, 75, 73] ++
  [71, 70, 68, 66, 65, 63, 62, 61, 59, 58, 57, 55, 54, 53, 52, 50] ++
  [49, 48, 47, 46, 45, 44, 43, 42, 41, 40, 39, 38, 37, 37, 36, 35] ++
  [34, 33, 33, 32, 31, 30, 30, 29, 28, 28, 27, 26, 26, 25, 25, 24] ++
  [24, 23, 23, 22, 21, 21, 21, 20, 20, 19, 19, 18, 18, 17, 17, 17] ++
  [16, 16, 16, 15, 15, 15, 14, 14, 14, 13, 13, 13, 12, 12, 12, 0]

/-- w(A): the relative optical power at attenuation A (R62). -/
def weight (a : Attn) : Nat := weightTable.getD a.toNat 0

/-- The cost of moving between two attenuations, the same in either direction (R62). -/
def cost (a a' : Attn) : Nat := (weight a' - weight a) + (weight a - weight a')

/-- A destination's contribution to its way's load (R63). -/
def contribution (r : DestRecord) : Nat := if r.curSrc = .none then 0 else weight r.curAttn

/-- The budget of a way's pass: max(F, floor(L k / 256)) (R67). -/
def passBudget (floor slew load : Nat) : Nat := max floor (load * slew / 256)

/-- The attenuation `delta` units from `a` toward `g` (R68). -/
def stepToward (a g : Attn) (delta : Nat) : Attn :=
  if a.toNat < g.toNat then BitVec.ofNat 8 (a.toNat + delta) else BitVec.ofNat 8 (a.toNat - delta)

/-- The distance from `a` to `g`. -/
def distance (a g : Attn) : Nat := (g.toNat - a.toNat) + (a.toNat - g.toNat)

/-- The first step, from `delta` units down to 1, whose cost is at most `budget` (R68). -/
def findStep (a g : Attn) (budget : Nat) : Nat → Option Attn
  | 0 => none
  | delta + 1 =>
    if cost a (stepToward a g (delta + 1)) ≤ budget then some (stepToward a g (delta + 1))
    else findStep a g budget delta

end Sys2Proof.Machine
end

