-- ==== Sys2Proof/Machine/Flags.lean ====
section
/-! DEFINITION. What the part reads off its state without storing it: a destination's effective target, its rest, its forced
flag and STATE code, a port's condition, and what each block counts. -/

namespace Sys2Proof.Machine

/-- A record that is absent reads as no source, dark, no flags (log 34). -/
def blankRecord : DestRecord :=
  { intentSrc := .none, intentAttn := dark, curSrc := .none, curAttn := dark, blocked := false, forced := false
    queued := 0, wanted := false, slot := none }

/-- The record of a destination. -/
def State.record (s : State) (d : Dest) : DestRecord := s.dt.records[d].getD blankRecord

/-- The effective target (R5). -/
def effectiveTarget (d : Dest) (r : DestRecord) : Attn :=
  if r.intentSrc = .none ∨ (isLine d = true ∧ r.blocked = true) ∨ r.forced = true then dark else r.intentAttn

/-- The destination is at rest (R5). -/
def atRest (d : Dest) (r : DestRecord) : Bool := r.curSrc == r.intentSrc && r.curAttn == effectiveTarget d r

/-- The forced flag that R7 requires for an intent source. -/
def State.forcedFor (s : State) (src : Source) : Bool :=
  match src.feed with
  | some k => s.dt.isolated[k]
  | none => false

/-- The phase of the slot that a record names, if it is occupied. -/
def State.slotPhase (s : State) (r : DestRecord) : Option Phase :=
  match r.slot with
  | some n => s.re.slots[n].map RampSlot.phase
  | none => none

/-- The STATE code of a destination, the first line of R13's table that holds. -/
def State.stateCode (s : State) (d : Dest) : Nat :=
  match s.slotPhase (s.record d) with
  | some ph => ph.code
  | none =>
    if (s.record d).forced then 5
    else if 0 < (s.record d).queued then 1
    else if (s.record d).blocked = true ∧ (s.record d).curAttn = dark then 6
    else 0

/-- The current word of a destination (R14). -/
def State.currentWord (s : State) (d : Dest) : Word :=
  composePath (s.record d).curSrc (s.record d).curAttn (s.stateCode d)

/-- The intent word of a destination (R14). -/
def State.intentWord (s : State) (d : Dest) : Word :=
  composePath (s.record d).intentSrc (s.record d).intentAttn 0

/-- The five conditions of an add port (R51). -/
inductive PortCondition where
  | free | held | releasing | claimed | handover
  deriving DecidableEq, Repr

/-- The condition that a port's two fields put it in (R51). -/
def portCondition (r : PortRecord) : PortCondition :=
  match r.holder, r.claimant with
  | none, none => .free
  | none, some _ => .claimed
  | some _, none => .releasing
  | some h, some c => if h = c then .held else .handover

/-- The destination other than `d` that holds the port of an intent source, if there is one (R52). -/
def State.otherHolder (s : State) (d : Dest) : Source → Option Dest
  | .port p =>
    match s.dt.ports[p].holder with
    | some h => if h = d then none else some h
    | none => none
  | .none => none
  | .express _ => none
  | .drop _ _ => none

/-- The free ramp slots, lowest number first (R70, R77). -/
def State.freeSlots (s : State) : List SlotNo := (List.finRange 16).filter fun n => s.re.slots[n].isNone

/-- The way of a ramp slot: its destination's (R70). -/
def State.slotWay (s : State) (n : SlotNo) : Option Way := s.re.slots[n].map fun sl => wayOf sl.dest

/-- The slots of one way in ramp-list order (R67). -/
def State.slotsOfWay (s : State) (w : Way) : List SlotNo := s.re.list.filter fun n => s.slotWay n == some w

/-- The number of records that adoption has built: on restart too a record counts as built once its path word has been
read (R152). -/
def Adoption.built (a : Adoption) : Nat :=
  match a.stage with
  | .drain => 0
  | .mask _ => 0
  | .path d => d.val
  | .fixedWord d _ => d.val + 1
  | .header _ => 432
  | .tornHeader _ _ => 432

/-- Whether a destination's record counts as built (R152). -/
def State.isBuilt (s : State) (d : Dest) : Bool :=
  match s.pu.adoption with
  | none => true
  | some a => decide (d.val < a.built)

/-- The oldest host tag on the table-update list is at or before `t` (R18, R133). -/
def State.tagAtOrBefore (s : State) (t : Nat) : Bool :=
  s.dt.updates.any fun e => match e.tag with
    | some x => decide (x ≤ t)
    | none => false

/-- Some entry of the table-update list carries a host tag (R131). -/
def State.anyTag (s : State) : Bool := s.dt.updates.any fun e => e.tag.isSome

/-- The tag of the latest posted write, if any write was posted (R133). -/
def State.latestTag (s : State) : Option Nat := if s.cbp.postedCount = 0 then none else some (s.cbp.postedCount - 1)

/-- The line reports loss of light (R93). -/
def State.losActive (s : State) (w : Way) : Bool := s.los[w] != s.pu.params.losActiveLow[w]

/-- The destinations that an applied, queued or closed set names. -/
def entryDests (es : List SetEntry) : List Dest := es.map SetEntry.dest

/-- The ring has room for a record: writing it would not make the head equal the tail (R140). -/
def State.ringHasRoom (s : State) : Bool := (s.ew.head + 1) % s.pu.params.ringLength != s.ew.tail

end Sys2Proof.Machine
end

