-- ==== Sys2Proof/Machine/Ops.lean ====
section
/-! DEFINITION. The named operations: table memory, event records, and the requests of the DT and the RE on destination
records, the add-port map, ramp slots and the settling-set list. -/

namespace Sys2Proof.Machine

/-! ### Table memory -/

/-- The byte at an address; an unlisted address reads as an unwritten byte (log 1). -/
def memRead : List Host.Cell → Nat → Byte
  | [], _ => Config.unwrittenByte
  | (x, b) :: rest, a => if x = a then b else memRead rest a

/-- Memory with the byte at an address replaced, in canonical form. -/
def memWrite : List Host.Cell → Nat → Byte → List Host.Cell
  | [], a, b => if b = Config.unwrittenByte then [] else [(a, b)]
  | (x, c) :: rest, a, b =>
    if a < x then (if b = Config.unwrittenByte then (x, c) :: rest else (a, b) :: (x, c) :: rest)
    else if a = x then (if b = Config.unwrittenByte then rest else (a, b) :: rest)
    else (x, c) :: memWrite rest a b

/-- The canonical form: addresses strictly rising, and no cell that an unlisted address would read as. -/
abbrev Memory.wf (m : List Host.Cell) : Prop :=
  m.Pairwise (fun x y => x.1 < y.1) ∧ ∀ c ∈ m, c.2 ≠ Config.unwrittenByte

/-- Memory with bytes written from an address upward. -/
def memWriteBytes : List Host.Cell → Nat → List Byte → List Host.Cell
  | m, _, [] => m
  | m, a, b :: rest => memWriteBytes (memWrite m a b) (a + 1) rest

/-- `n` bytes from an address upward. -/
def memReadBytes (m : List Host.Cell) (a n : Nat) : List Byte := (List.range n).map fun i => memRead m (a + i)

/-- The word at an address. -/
def memReadWord (m : List Host.Cell) (a : Nat) : Word := wordOfBytes (memReadBytes m a 4)

/-- The part writes bytes to the SRAM. -/
def State.store (s : State) (a : Nat) (bytes : List Byte) : State := { s with mem := memWriteBytes s.mem a bytes }

/-- The part writes a whole word at a window offset (R156). -/
def State.storeWord (s : State) (offset : Nat) (w : Word) : State :=
  s.store (windowAddr s.pu.params offset) (wordBytes w)

/-- The word at a window offset. -/
def State.loadWord (s : State) (offset : Nat) : Word := memReadWord s.mem (windowAddr s.pu.params offset)

/-! ### Event records -/

/-- The dropped count after a drop: one more, up to 65,535, where it stays (R138). -/
def countDropped (n : Nat) : Nat := if n < Config.droppedLimit then n + 1 else n

/-- A record handed to the event queue, stamped with the timebase, or dropped and counted (R138). -/
def State.emit (s : State) (kind : RecordKind) (reason : Nat) (subject : BitVec 16) (a b : Word) : State :=
  if s.ew.queue.length < Config.eventCapacity then
    let record : EventRecord :=
      { kind := kind, reason := BitVec.ofNat 8 reason, subject := subject, detailA := a, detailB := b
        stamp := s.ew.timebase }
    { s with ew := { s.ew with queue := s.ew.queue ++ [record] } }
  else { s with ew := { s.ew with dropped := countDropped s.ew.dropped } }

/-! ### The table-update list -/

/-- One destination put on the list: a new entry goes to the end; an entry already there keeps its place, and takes the
host tag of a marking that has one (R16, R18). -/
def markUpdate (tag : Option Nat) : List UpdateEntry → Dest → List UpdateEntry
  | [], d => [{ dest := d, tag := tag }]
  | e :: rest, d =>
    if e.dest = d then { e with tag := (match tag with | some t => some t | none => e.tag) } :: rest
    else e :: markUpdate tag rest d

/-- Destinations put on the list, in the order given. -/
def State.markAll (s : State) (tag : Option Nat) (ds : List Dest) : State :=
  { s with dt := { s.dt with updates := ds.foldl (markUpdate tag) s.dt.updates } }

/-! ### A request under way -/

/-- A request of the DT or the RE that is being carried out (R19): the state so far, the destinations it has marked, in
ascending order (R16), whether it freed a ramp slot, and whether it raised a wanted flag (R75). -/
structure Work where
  st : State
  marks : List Dest
  freed : Bool
  raised : Bool
  deriving DecidableEq, Repr

/-- A request begins. -/
def State.begin (s : State) : Work := { st := s, marks := [], freed := false, raised := false }

/-- A destination kept in ascending order among those marked. -/
def insertDest (d : Dest) : List Dest → List Dest
  | [] => [d]
  | x :: rest => if d < x then d :: x :: rest else if d = x then x :: rest else x :: insertDest d rest

/-- The request marks a destination for the table-update list. -/
def Work.mark (w : Work) (d : Dest) : Work := { w with marks := insertDest d w.marks }

/-- The request ends: its destinations join the table-update list in ascending index (R16), and the arbiter gets an
occasion if it freed a slot or raised a wanted flag (R75). -/
def Work.finish (w : Work) (tag : Option Nat) : State :=
  { w.st.markAll tag w.marks with
    re := { w.st.re with occasionDue := w.st.re.occasionDue || w.freed || w.raised } }

/-- The request raises an event record. -/
def Work.emit (w : Work) (kind : RecordKind) (reason : Nat) (subject : BitVec 16) (a b : Word) : Work :=
  { w with st := w.st.emit kind reason subject a b }

/-! ### Records, loads and the add-port map -/

/-- A destination's record replaced. -/
def State.setRecord (s : State) (d : Dest) (r : DestRecord) : State :=
  { s with dt := { s.dt with records := s.dt.records.set d (some r) } }

/-- A destination's record replaced within a request. -/
def Work.setRecord (w : Work) (d : Dest) (r : DestRecord) : Work := { w with st := w.st.setRecord d r }

/-- An add-port record replaced. -/
def State.setPort (s : State) (p : Port) (r : PortRecord) : State :=
  { s with dt := { s.dt with ports := s.dt.ports.set p r } }

/-- The load report of a line destination: the old contribution is subtracted and the new one added (R63). A drop
destination carries no load. -/
def State.reportLoad (s : State) (d : Dest) (old new : DestRecord) : State :=
  if isLine d then
    let load := s.re.loads[wayOf d] - contribution old + contribution new
    { s with re := { s.re with loads := s.re.loads.set (wayOf d) load } }
  else s

/-- The holder of the old current source's port is cleared (R50). -/
def State.clearHolder (s : State) : Source → State
  | .port p => s.setPort p { s.dt.ports[p] with holder := none }
  | .none => s
  | .express _ => s
  | .drop _ _ => s

/-- The destination becomes the holder of the new current source's port (R50). -/
def State.takeHolder (s : State) (d : Dest) : Source → State
  | .port p => s.setPort p { s.dt.ports[p] with holder := some d }
  | .none => s
  | .express _ => s
  | .drop _ _ => s

/-- The claimant of the old intent source's port is cleared if it names this destination (R49, step 1). -/
def State.clearClaimant (s : State) (d : Dest) : Source → State
  | .port p => if s.dt.ports[p].claimant = some d then s.setPort p { s.dt.ports[p] with claimant := none } else s
  | .none => s
  | .express _ => s
  | .drop _ _ => s

/-- The destination becomes the claimant of the new intent source's port (R49, step 2). -/
def State.takeClaimant (s : State) (d : Dest) : Source → State
  | .port p => s.setPort p { s.dt.ports[p] with claimant := some d }
  | .none => s
  | .express _ => s
  | .drop _ _ => s

/-- A change of a current record with the three steps that R4 attaches: load report, add-port map, table-update list. -/
def Work.writeCurrent (w : Work) (d : Dest) (src : Source) (attn : Attn) : Work :=
  let old := w.st.record d
  let new := { old with curSrc := src, curAttn := attn }
  { w with st := (((w.st.setRecord d new).reportLoad d old new).clearHolder old.curSrc).takeHolder d src }.mark d

/-- A write of an intent with the claimants that follow it (R49). -/
def Work.writeIntent (w : Work) (d : Dest) (src : Source) (attn : Attn) : Work :=
  let old := w.st.record d
  { w with st :=
      ((w.st.setRecord d { old with intentSrc := src, intentAttn := attn }).clearClaimant d old.intentSrc).takeClaimant d src }

/-! ### Settling sets -/

/-- The settling-set list with one entry replaced by what `f` makes of it. -/
def updateSet (id : Nat) (f : SettlingSet → SettlingSet) (l : List SettlingSet) : List SettlingSet :=
  l.map fun e => if e.id = id then f e else e

/-- A slot stops serving a listed set: its remaining count falls by one, its interrupted count rises if the slot was
interrupted, and at 0 the set leaves the list with SET_SETTLED (R43, R44, R45). A set that is not listed yet is unchanged
(R41: its counts are formed at the end of its admission). -/
def State.releaseSet (s : State) (serves : Option Nat) (interrupted : Bool) : State :=
  match serves with
  | none => s
  | some id =>
    match s.csa.settling.find? fun e => e.id == id with
    | none => s
    | some e =>
      if e.remaining ≤ 1 then
        { s with csa := { s.csa with settling := s.csa.settling.filter fun x => x.id != id } }.emit .setSettled 0
          (BitVec.ofNat 16 e.label.toNat) (BitVec.ofNat 32 e.entries)
          (BitVec.ofNat 32 (e.interrupted + interrupted.toNat))
      else
        let countDown := fun x : SettlingSet =>
          { x with remaining := x.remaining - 1, interrupted := x.interrupted + interrupted.toNat }
        { s with csa := { s.csa with settling := updateSet id countDown s.csa.settling } }

/-! ### Ramp slots -/

/-- A ramp slot's content replaced. -/
def State.setSlot (s : State) (n : SlotNo) (sl : Option RampSlot) : State :=
  { s with re := { s.re with slots := s.re.slots.set n sl } }

/-- A slot freed: every field cleared, off the ramp list, the DT's slot field cleared, the destination marked (R70). -/
def Work.freeSlot (w : Work) (n : SlotNo) : Work :=
  match w.st.re.slots[n] with
  | none => w
  | some sl =>
    let s1 := w.st.setSlot n none
    let s2 := { s1 with re := { s1.re with list := s1.re.list.erase n } }
    { w with st := s2.setRecord sl.dest { s2.record sl.dest with slot := none }, freed := true }.mark sl.dest

/-- A slot freed before its goal: the set it served, if any, counts one entry interrupted (R44). -/
def Work.interruptSlot (w : Work) (n : SlotNo) : Work :=
  match w.st.re.slots[n] with
  | none => w
  | some sl => { w with st := w.st.releaseSet sl.serves true }.freeSlot n

/-- A slot freed at rest: the set it served, if any, counts one entry settled (R73). -/
def Work.settleSlot (w : Work) (n : SlotNo) : Work :=
  match w.st.re.slots[n] with
  | none => w
  | some sl => { w with st := w.st.releaseSet sl.serves false }.freeSlot n

/-- A slot given a goal and phase; a change of phase marks the destination (R12, R72). -/
def Work.setPhase (w : Work) (n : SlotNo) (phase : Phase) (goal : Attn) : Work :=
  match w.st.re.slots[n] with
  | none => w
  | some sl =>
    let w1 := { w with st := w.st.setSlot n (some { sl with phase := phase, goal := goal }) }
    if sl.phase = phase then w1 else w1.mark sl.dest

/-- Step 3 of phase evaluation: the current source equals the intent source (R72). -/
def Work.evaluateGoal (w : Work) (n : SlotNo) (d : Dest) : Work :=
  let r := w.st.record d
  let t := effectiveTarget d r
  if r.curAttn = t then w.settleSlot n
  else if r.curAttn.toNat < t.toNat then w.setPhase n .dimming t
  else w.setPhase n .brightening t

/-- Entry to PORT_WAIT, or staying in it (R53, R54, R72 step 2). -/
def Work.enterPortWait (w : Work) (n : SlotNo) (d : Dest) (phase : Phase) : Work :=
  if phase = .portWait then w.setPhase n .portWait dark
  else (w.writeCurrent d .none dark).setPhase n .portWait dark

/-- Phase evaluation of a slot (R72). -/
def Work.evaluate (w : Work) (n : SlotNo) : Work :=
  match w.st.re.slots[n] with
  | none => w
  | some sl =>
    let r := w.st.record sl.dest
    if r.curSrc = r.intentSrc then w.evaluateGoal n sl.dest
    else if r.curAttn ≠ dark then w.setPhase n .dimming dark
    else if (w.st.otherHolder sl.dest r.intentSrc).isSome then w.enterPortWait n sl.dest sl.phase
    else (w.writeCurrent sl.dest r.intentSrc dark).evaluateGoal n sl.dest

/-- A free slot occupied by a line destination, at the end of the ramp list, its wanted flag cleared, and evaluated
(R39, R71, R79). -/
def Work.occupySlot (w : Work) (n : SlotNo) (d : Dest) (serves : Option Nat) : Work :=
  let s1 := w.st.setSlot n (some { dest := d, phase := .dimming, goal := dark, serves := serves })
  let s2 := { s1 with re := { s1.re with list := s1.re.list ++ [n] } }
  ({ w with st := s2.setRecord d { s2.record d with slot := some n, wanted := false } }.mark d).evaluate n

/-- A slot retargeted by a later set: the earlier set counts one interruption, the slot moves to the end of the ramp list
and is evaluated (R39, R44, R71). -/
def Work.retargetSlot (w : Work) (n : SlotNo) (serves : Nat) : Work :=
  match w.st.re.slots[n] with
  | none => w
  | some sl =>
    let s1 := (w.st.releaseSet sl.serves true).setSlot n (some { sl with serves := some serves })
    ({ w with st := { s1 with re := { s1.re with list := s1.re.list.erase n ++ [n] } } }).evaluate n

/-! ### Re-evaluation without a slot -/

/-- The wanted flag of a line destination raised or cleared by whether it is at rest (R11). -/
def Work.reevaluateWanted (w : Work) (d : Dest) : Work :=
  let r := w.st.record d
  let want := !atRest d r
  { w.setRecord d { r with wanted := want } with raised := w.raised || (want && !r.wanted) }

/-- Re-evaluation of a drop destination: written directly if it is not at its target (R15). -/
def Work.reevaluateDrop (w : Work) (d : Dest) : Work :=
  let r := w.st.record d
  if atRest d r then w else w.writeCurrent d r.intentSrc (effectiveTarget d r)

/-! ### Requests of the MU and the LM -/

/-- The blocked-flag request for one line destination (R6). -/
def Work.changeBlocked (w : Work) (d : Dest) (b : Bool) : Work :=
  let w1 := (w.setRecord d { w.st.record d with blocked := b }).mark d
  match (w1.st.record d).slot with
  | some n => w1.evaluate n
  | none => w1.reevaluateWanted d

/-- Any slot that a destination holds is freed as interrupted. -/
def Work.cancelSlot (w : Work) (d : Dest) : Work :=
  match (w.st.record d).slot with
  | some n => w.interruptSlot n
  | none => w

/-- The forcing of one destination whose intent source is an isolated way (R8). -/
def Work.forceDest (w : Work) (d : Dest) : Work :=
  let w1 := (w.setRecord d { w.st.record d with forced := true }).cancelSlot d
  let w2 := w1.setRecord d { w1.st.record d with wanted := false }
  w2.writeCurrent d (w2.st.record d).intentSrc dark

/-- The unforcing of one destination (R9). -/
def Work.unforceDest (w : Work) (d : Dest) : Work :=
  let w1 := (w.setRecord d { w.st.record d with forced := false }).mark d
  if isLine d then
    match (w1.st.record d).slot with
    | some _ => w1
    | none => w1.reevaluateWanted d
  else w1.reevaluateDrop d

/-- The forced flag alone of a record that a restart's adoption has not rebuilt yet (R152). -/
def Work.flagForced (w : Work) (d : Dest) (b : Bool) : Work :=
  (w.setRecord d { w.st.record d with forced := b }).mark d

/-- The destinations whose intent source is way `k`, ascending (R8). -/
def State.fedFrom (s : State) (k : Way) : List Dest :=
  allDests.filter fun d => (s.record d).intentSrc.feed == some k

/-- A way's isolated indication set or cleared (R7). -/
def State.setIsolated (s : State) (k : Way) (b : Bool) : State :=
  { s with dt := { s.dt with isolated := s.dt.isolated.set k b } }

/-- The isolation request for a way (R8; R152 while adoption runs). -/
def State.isolate (s : State) (k : Way) : State :=
  (((s.setIsolated k true).fedFrom k).foldl
    (fun w d => if w.st.isBuilt d then w.forceDest d else w.flagForced d true)
    (s.setIsolated k true).begin).finish none

/-- The release request for a way, under a host tag when CMD_RELEASE sends it (R9, R18; R152 while adoption runs). -/
def State.release (s : State) (k : Way) (tag : Option Nat) : State :=
  (((s.setIsolated k false).fedFrom k).foldl
    (fun w d => if w.st.isBuilt d then w.unforceDest d else w.flagForced d false)
    (s.setIsolated k false).begin).finish tag

/-! ### The ramp tick -/

/-- A tick runs: every way with a slot in the ramp list owes one pass (R66, R67). -/
def State.startTick (s : State) : State :=
  { s with re := { s.re with passesDue := Vector.ofFn fun w : Way =>
      s.re.passesDue[w] + (if (s.slotsOfWay w).isEmpty then 0 else 1) } }

end Sys2Proof.Machine
end

