-- ==== Sys2Proof/Machine/Port.lean ====
section
/-! DEFINITION. SRAM port A: the access that each requester presents (R136, R137, R140, R114, R150) and the two-ring arbiter
of the TMP (R136). -/

namespace Sys2Proof.Machine

/-! ### CTL -/

/-- What CTL carries: an ISSUED delayed read, a directly served read, or a memory write of the queue's head. -/
inductive CtlSource where
  | slot (i : ReadSlotNo)
  | direct
  | head
  deriving DecidableEq, Repr

/-- Whether a delayed-read slot is ISSUED. -/
def State.slotIssued (s : State) (i : ReadSlotNo) : Bool :=
  match s.cbp.slots[i] with
  | some r => match r.state with
    | .issued _ => true
    | .latched => false
    | .complete _ => false
  | none => false

/-- The read that comes next of `size` bytes at memory address `a` when `got` bytes have been read: one word's part. -/
def nextRead (a : Nat) (size got : Nat) : Nat × Nat := (a + got, min (size - got) (4 - (a + got) % 4))

/-- What CTL presents: ISSUED slots in the order they were latched, then a direct read, then the head's write (R137). -/
def State.ctlSource (s : State) : Option CtlSource :=
  match s.cbp.latchOrder.find? s.slotIssued with
  | some i => some (.slot i)
  | none =>
    match s.cbp.held with
    | some (.read _ _ _) => some .direct
    | some (.write _ _ _) | none =>
      match s.cbp.head with
      | .writing (_ :: _) _ => some .head
      | .writing [] _ => none
      | .waiting => none
      | .masking _ _ => none
      | .ringWord => none
      | .restarting => none

/-- The access that CTL presents. -/
def State.ctlAccess (s : State) : Option Access :=
  match s.ctlSource with
  | none => none
  | some (.slot i) =>
    match s.cbp.slots[i] with
    | some r => match r.state with
      | .issued got =>
        let next := nextRead (readAddr s.pu.params r.addr) r.size.bytes got.length
        some (.read next.1 next.2)
      | .latched => none
      | .complete _ => none
    | none => none
  | some .direct =>
    match s.cbp.held with
    | some (.read a size got) =>
      let next := nextRead (readAddr s.pu.params a) size.bytes got.length
      some (.read next.1 next.2)
    | some (.write _ _ _) => none
    | none => none
  | some .head =>
    match s.cbp.head with
    | .writing (acc :: _) _ => some acc
    | .writing [] _ => none
    | .waiting => none
    | .masking _ _ => none
    | .ringWord => none
    | .restarting => none

/-! ### TBL -/

/-- TBL may write a destination's word: any while no adoption runs, and, while one runs, that of a record already built (R152).
A restart's adoption runs once the table-update list has drained (R153; log 40). -/
def State.tblMayWrite (s : State) (d : Dest) : Bool :=
  match s.pu.adoption with
  | none => true
  | some a => a.stage == .drain || decide (d.val < a.built)

/-- The oldest entry of the table-update list that TBL may write (R17, R152). -/
def State.tblEntry (s : State) : Option UpdateEntry := s.dt.updates.find? fun e => s.tblMayWrite e.dest

/-- TBL presents the current word of that entry's destination (R17). -/
def State.tblAccess (s : State) : Option Access :=
  match s.tblEntry with
  | none => none
  | some e => some (.write (windowAddr s.pu.params (pathOffset e.dest)) (wordBytes (s.currentWord e.dest)))

/-! ### XCH -/

/-- A full-word write at a window offset. -/
def State.wordWrite (s : State) (offset : Nat) (w : Word) : Access :=
  .write (windowAddr s.pu.params offset) (wordBytes w)

/-- A full-word read at a window offset. -/
def State.wordRead (s : State) (offset : Nat) : Access := .read (windowAddr s.pu.params offset) 4

/-- The access that the running exchange presents (R114). -/
def State.exchangeAccess (s : State) (x : RunningExchange) : Option Access :=
  match x.stage with
  | .header => some (s.wordWrite (planHeaderOffset x.request.plan) (planHeader 1 x.step.val x.swapped x.skipped))
  | .key => some (s.wordRead (planKeyOffset x.request.plan x.step.val))
  | .path => some (s.wordRead (planPathOffset x.request.plan x.step.val))
  | .swap => none
  | .kept w => some (s.wordWrite (planPathOffset x.request.plan x.step.val) w)
  | .final => some (s.wordWrite (planHeaderOffset x.request.plan) (planHeader 0 0 x.swapped x.skipped))

/-- The access that the adoption presents (R150, R151). -/
def State.adoptionAccess (s : State) (a : Adoption) : Option Access :=
  match a.stage with
  | .drain => none
  | .mask m => some (s.wordRead (0x700 + 4 * m.val))
  | .path d => some (s.wordRead (pathOffset d))
  | .fixedWord d w => some (s.wordWrite (pathOffset d) w)
  | .header p => some (s.wordRead (planHeaderOffset p))
  | .tornHeader p w => some (s.wordWrite (planHeaderOffset p) w)

/-- XCH carries the accesses of the adoption and of the exchange; an exchange never runs during an adoption (R113). -/
def State.xchAccess (s : State) : Option Access :=
  match s.pu.adoption with
  | some a => s.adoptionAccess a
  | none => match s.xe.running with
    | some x => s.exchangeAccess x
    | none => none

/-! ### EVT -/

/-- What EVT carries. -/
inductive EvtSource where
  | record
  | ringWord
  | status
  deriving DecidableEq, Repr

/-- The front record may be written: there is one, and the ring has room (R140). -/
def State.recordReady (s : State) : Bool := !s.ew.queue.isEmpty && s.ringHasRoom

/-- What EVT presents: a begun record, one whose first grant has been made (log 39), to its end; then the ring word; then the
rewrite, behind the front record where a new expiry began it again; then the next record (R140; log 22). -/
def State.evtSource (s : State) : Option EvtSource :=
  if s.ew.stage ≠ 0 then some .record
  else if s.ew.ringWordDue then some .ringWord
  else if s.ew.rewrite.isSome && !(s.ew.recordFirst && s.recordReady) then some .status
  else if s.recordReady then some .record
  else none

/-- The window offset of the record position at the head (R139). -/
def State.recordOffset (s : State) : Nat := 0x8000 + 16 * s.ew.head

/-- The head that the completion of the record in hand gives (R140). -/
def State.nextHead (s : State) : Nat := (s.ew.head + 1) % s.pu.params.ringLength

/-- The grant of a record's write that comes next: words 1, 2, 3, then word 0, then the ring word with the head advanced
(R140). -/
def State.recordAccess (s : State) (r : EventRecord) : Access :=
  if s.ew.stage.val = 0 then s.wordWrite (s.recordOffset + 4) r.detailA
  else if s.ew.stage.val = 1 then s.wordWrite (s.recordOffset + 8) r.detailB
  else if s.ew.stage.val = 2 then s.wordWrite (s.recordOffset + 12) r.stamp
  else if s.ew.stage.val = 3 then s.wordWrite s.recordOffset (recordWord0 r)
  else s.wordWrite 0x900 (ringWordOf s.nextHead s.ew.tail)

/-- The word of the status zone that the rewrite writes next; the ring word is composed at the grant (R143, R159). -/
def State.statusWord (s : State) (rw : StatusRewrite) : Word :=
  if rw.next.val = 0 then ringWordOf s.ew.head s.ew.tail else rw.snapshot.toList.getD (rw.next.val - 1) 0#32

/-- The access that EVT presents. -/
def State.evtAccess (s : State) : Option Access :=
  match s.evtSource with
  | none => none
  | some .record => match s.ew.queue with
    | r :: _ => some (s.recordAccess r)
    | [] => none
  | some .ringWord => some (s.wordWrite 0x900 (ringWordOf s.ew.head s.ew.tail))
  | some .status => match s.ew.rewrite with
    | some rw => some (s.wordWrite (0x900 + 4 * rw.next.val) (s.statusWord rw))
    | none => none

/-! ### The arbiter (R136) -/

/-- The access that a requester presents, if any. -/
def State.access (s : State) : Requester → Option Access
  | .ctl => s.ctlAccess
  | .tbl => s.tblAccess
  | .xch => s.xchAccess
  | .evt => s.evtAccess

/-- The fixed order of the requesters. -/
def requesterOrder : List Requester := [.ctl, .tbl, .xch, .evt]

/-- The low requesters in the fixed order: the lower ring. -/
def lowerRing (g : Groups) : List Requester := requesterOrder.filter fun r => !g.isHigh r

/-- The high requesters in the fixed order, then the position that stands for the low group: the upper ring. -/
def upperRing (g : Groups) : List UpperPosition :=
  (requesterOrder.filter g.isHigh).map .requester ++ [.low]

/-- A ring read from a pointer on. -/
def rotateFrom {α : Type} [DecidableEq α] (p : α) (ring : List α) : List α :=
  ring.dropWhile (fun x => decide (x ≠ p)) ++ ring.takeWhile (fun x => decide (x ≠ p))

/-- The position after one of a ring. -/
def positionAfter {α : Type} [DecidableEq α] (p : α) (ring : List α) : α :=
  match rotateFrom p ring with
  | _ :: q :: _ => q
  | _ => p

/-- The first low requester, from the lower pointer on, that presents an access. -/
def State.lowGrant (s : State) : Option Requester :=
  (rotateFrom s.tmp.lower (lowerRing s.pu.params.groups)).find? fun r => (s.access r).isSome

/-- Whether an upper position has a request. -/
def State.upperRequest (s : State) : UpperPosition → Bool
  | .requester r => (s.access r).isSome
  | .low => s.lowGrant.isSome

/-- The requester that the arbiter grants, if any access is presented (R136). -/
def State.nextGrant (s : State) : Option Requester :=
  match (rotateFrom s.tmp.upper (upperRing s.pu.params.groups)).find? s.upperRequest with
  | some (.requester r) => some r
  | some .low => s.lowGrant
  | none => none

/-- The pointers after a grant (R136). -/
def State.movePointers (s : State) (r : Requester) : State :=
  if s.pu.params.groups.isHigh r then
    { s with tmp := { s.tmp with upper := positionAfter (.requester r) (upperRing s.pu.params.groups) } }
  else
    { s with tmp :=
      { upper := positionAfter .low (upperRing s.pu.params.groups)
        lower := positionAfter r (lowerRing s.pu.params.groups) } }

/-- The pointers after a hard reset, for the groups that preload sets: at CTL's positions, the lower one at the first low
requester where CTL is high (R136), and at CTL where no requester is low (log 38). -/
def initialPointers (g : Groups) : MemoryPort :=
  { upper := if g.ctl then .requester .ctl else .low
    lower := (lowerRing g).headD .ctl }

/-- The memory part of a grant: the bytes of a write are made; a read leaves memory alone. -/
def State.makeAccess (s : State) : Option Access → State
  | some (.write a bytes) => s.store a bytes
  | some (.read _ _) => s
  | none => s

/-- The bytes that a granted read returns. -/
def State.readBytes (s : State) : Option Access → List Byte
  | some (.read a n) => memReadBytes s.mem a n
  | some (.write _ _) => []
  | none => []

/-- A grant to `r`: made only where the arbiter grants `r` (log 6); its access is made, the pointers move, and the
requester's own part follows. -/
def State.grant (s : State) (r : Requester) (k : State → State) : State :=
  if s.nextGrant = some r then k ((s.makeAccess (s.access r)).movePointers r) else s

end Sys2Proof.Machine
end

