-- ==== Sys2Proof/Machine/Light.lean ====
section
/-! DEFINITION. Light monitoring: LOS_CHANGE, CHECK_INTERVAL_EXPIRY and WAY_EVALUATION (R93 to R102), and the fault request
to the XE (R111). -/

namespace Sys2Proof.Machine

/-- A way's record replaced. -/
def State.setWay (s : State) (w : Way) (r : WayRecord) : State :=
  { s with lm := { s.lm with ways := s.lm.ways.set w r } }

/-- A loss latch after the line of its way has changed from `before` to `now` (active or not) (R94). -/
def latchAfter (mode : LosMode) (latch before now : Bool) : Bool :=
  match mode with
  | .edge => latch || (now && !before)
  | .level => latch || now

/-- LOS_CHANGE (R94): the line takes its level; while the LM watches, the way's latch follows by mode. -/
def losChangeStep (w : Way) (level : Bool) (s : State) : State :=
  let s1 := { s with los := s.los.set w level }
  if s.lm.watching then
    let r := s.lm.ways[w]
    s1.setWay w { r with latch := latchAfter s.pu.params.losMode[w] r.latch (s.losActive w) (s1.losActive w) }
  else s1

/-- LOS_CHANGE. -/
def execLosChange (w : Way) (level : Bool) (s : State) : Host.Outcome State Fault Refusal :=
  .next (losChangeStep w level s)

/-! ### The check interval -/

/-- The snapshot of words 1 to 12 of the status zone (R143, R158). -/
def State.statusSnapshot (s : State) : Vector Word 12 :=
  #v[partStateWord s.cbp.lock s.pu.outcome (s.xe.running.map fun x => x.request.plan) s.xe.list.length,
     countsWord s.csa.openSet.length s.csa.queue.length s.freeSlots.length s.csa.settling.length,
     BitVec.ofNat 32 s.ew.dropped,
     s.ew.timebase,
     wayStateWord s.lm.ways[0], wayStateWord s.lm.ways[1], wayStateWord s.lm.ways[2], wayStateWord s.lm.ways[3],
     BitVec.ofNat 32 s.re.loads[0], BitVec.ofNat 32 s.re.loads[1], BitVec.ofNat 32 s.re.loads[2],
     BitVec.ofNat 32 s.re.loads[3]]

/-- A status-zone rewrite begins from its first word; one left unfinished is abandoned, and then the front record, if the
ring has room for it, goes first (R140, R143; log 22). -/
def State.beginRewrite (s : State) : State :=
  { s with ew := { s.ew with
      rewrite := some { snapshot := s.statusSnapshot, next := 0 }
      recordFirst := s.ew.rewrite.isSome && s.recordReady } }

/-- One evaluation of each way becomes due, but for a way whose evaluation was taken first (R95; log 9). -/
def State.oweEvaluations (s : State) : State :=
  { s with lm := { s.lm with
      evalsDue := Vector.ofFn fun w : Way => s.lm.evalsDue[w] + (if s.lm.evalAhead[w] then 0 else 1)
      evalAhead := Vector.replicate 4 false } }

/-- CHECK_INTERVAL_EXPIRY (R95, R143). The expiry comes only while the timer runs. -/
def checkIntervalExpiryStep (s : State) : State :=
  if s.lm.checkTimer then s.oweEvaluations.beginRewrite else s

/-- CHECK_INTERVAL_EXPIRY. -/
def execCheckIntervalExpiry (s : State) : Host.Outcome State Fault Refusal := .next (checkIntervalExpiryStep s)

/-! ### The fault request (R98, R111) -/

/-- The request in the list that names a plan. -/
def State.listedFor (s : State) (p : Plan) : Option ExchangeRequest := s.xe.list.find? fun r => r.plan == p

/-- The running exchange's request, if it is of the plan. -/
def State.runningFor (s : State) (p : Plan) : Option ExchangeRequest :=
  match s.xe.running with
  | some x => if x.request.plan = p then some x.request else none
  | none => none

/-- A request from a failing way. -/
def ExchangeRequest.isFault (r : ExchangeRequest) : Bool :=
  match r.origin with
  | .controller => false
  | .fault _ => true

/-- A fault request behind the fault requests and ahead of the controller request (R111). -/
def insertFault (r : ExchangeRequest) (l : List ExchangeRequest) : List ExchangeRequest :=
  l.takeWhile ExchangeRequest.isFault ++ [r] ++ l.dropWhile ExchangeRequest.isFault

/-- The exchange request list replaced. -/
def State.setExchangeList (s : State) (l : List ExchangeRequest) : State := { s with xe := { s.xe with list := l } }

/-- A plan as a record subject. -/
def planSubject (p : Plan) : BitVec 16 := BitVec.ofNat 16 p.val

/-- The XE takes a fault request: merged, refused or listed (R111). -/
def State.faultRequest (s : State) (w : Way) (p : Plan) : State :=
  match s.listedFor p with
  | some r => s.emit .exchangeMerged 0 (planSubject p) (originDetail (.fault w)) (mergedDetail false r.origin)
  | none =>
    match s.runningFor p with
    | some r => s.emit .exchangeMerged 0 (planSubject p) (originDetail (.fault w)) (mergedDetail true r.origin)
    | none =>
      if s.xe.conditions[p] = .torn then
        s.emit .exchangeRefused 2 (planSubject p) (originDetail (.fault w)) 0#32
      else s.setExchangeList (insertFault { origin := .fault w, plan := p } s.xe.list)

/-! ### Evaluation -/

/-- The state whose range holds a fault counter (R96, R97). -/
def stateOfCounter (c : Nat) : WayState :=
  if c < 40 then .clear else if c < 100 then .warning else if c < 200 then .degraded else .isolated

/-- The fault counter after an interval (R97). -/
def nextCounter (lossy : Bool) (c : Nat) : Nat := if lossy then min 200 (c + 5) else c - 1

/-- WAY_STATE for a change of a way's state (R102). -/
def State.emitWayState (s : State) (w : Way) (old : WayState) (r : WayRecord) : State :=
  s.emit .wayState 0 (BitVec.ofNat 16 w.val) (stateDetail old r.state) (counterDetail r.counter r.recovery)

/-- A way enters DEGRADED from WARNING: its plan is requested once in a fault episode (R98). -/
def State.callPlan (s : State) (w : Way) : State :=
  match s.pu.params.plan[w] with
  | none => s
  | some p =>
    if s.lm.ways[w].planRequested then s
    else (s.faultRequest w p).setWay w { s.lm.ways[w] with planRequested := true }

/-- The evaluation in CLEAR, WARNING or DEGRADED (R97, R98, R99). `r` has its latch already cleared. -/
def State.evaluateServing (s : State) (w : Way) (r : WayRecord) (lossy : Bool) : State :=
  let c := nextCounter lossy r.counter
  let st := stateOfCounter c
  let r1 := { r with counter := c, state := st, recovery := 0, planRequested := r.planRequested && st != .clear }
  if st = r.state then s.setWay w { r with counter := c, recovery := 0 }
  else
    let s1 := (s.setWay w r1).emitWayState w r.state r1
    match st with
    | .isolated => s1.isolate w
    | .degraded => s1.callPlan w
    | .clear => s1
    | .warning => s1
    | .awaitRelease => s1

/-- The record of a way that enters CLEAR by recovery or release (R100, R103). -/
def WayRecord.cleared (r : WayRecord) : WayRecord :=
  { r with state := .clear, counter := 0, recovery := 0, planRequested := false }

/-- The evaluation in ISOLATED (R100). -/
def State.evaluateIsolated (s : State) (w : Way) (r : WayRecord) (lossy : Bool) : State :=
  if lossy then s.setWay w { r with recovery := 0 }
  else if r.recovery + 1 < 150 then s.setWay w { r with recovery := r.recovery + 1 }
  else if s.pu.params.manual[w] then
    let r1 := { r with state := .awaitRelease, counter := 200, recovery := 150 }
    (s.setWay w r1).emitWayState w .isolated r1
  else ((s.setWay w r.cleared).emitWayState w .isolated r.cleared).release w none

/-- The evaluation in AWAIT_RELEASE (R101). -/
def State.evaluateAwaiting (s : State) (w : Way) (r : WayRecord) (lossy : Bool) : State :=
  if lossy then
    let r1 := { r with state := .isolated, recovery := 0 }
    (s.setWay w r1).emitWayState w .awaitRelease r1
  else s.setWay w r

/-- The latch after an evaluation: cleared, and set again at once by a line that is active in LEVEL mode (R94). -/
def State.latchCleared (s : State) (w : Way) : Bool :=
  match s.pu.params.losMode[w] with
  | .edge => false
  | .level => s.losActive w

/-- The evaluation of one way (R96). -/
def State.evaluateWay (s : State) (w : Way) : State :=
  let r := { s.lm.ways[w] with latch := s.latchCleared w }
  match r.state with
  | .clear => s.evaluateServing w r s.lm.ways[w].latch
  | .warning => s.evaluateServing w r s.lm.ways[w].latch
  | .degraded => s.evaluateServing w r s.lm.ways[w].latch
  | .isolated => s.evaluateIsolated w r s.lm.ways[w].latch
  | .awaitRelease => s.evaluateAwaiting w r s.lm.ways[w].latch

/-- WAY_EVALUATION (R95, R96): the evaluation that an expiry owes the way, or the next expiry's taken ahead of its snapshot,
at most one (log 9); none unless the check interval timer runs. -/
def wayEvaluationStep (w : Way) (s : State) : State :=
  if s.lm.checkTimer = false then s
  else if 0 < s.lm.evalsDue[w] then
    ({ s with lm := { s.lm with evalsDue := s.lm.evalsDue.set w (s.lm.evalsDue[w] - 1) } } : State).evaluateWay w
  else if s.lm.evalAhead[w] then s
  else ({ s with lm := { s.lm with evalAhead := s.lm.evalAhead.set w true } } : State).evaluateWay w

/-- WAY_EVALUATION. -/
def execWayEvaluation (w : Way) (s : State) : Host.Outcome State Fault Refusal := .next (wayEvaluationStep w s)

end Sys2Proof.Machine
end

