-- ==== Sys2Proof/Machine/Bus.lean ====
section
/-! DEFINITION. The CBP's shared operations: posting, the window lock, the delayed-read slots, and the queue's head
(R126 to R135). -/

namespace Sys2Proof.Machine

/-! ### The delayed-read slots -/

/-- A delayed-read slot's content replaced. -/
def State.setReadSlot (s : State) (i : ReadSlotNo) (r : Option ReadSlot) : State :=
  { s with cbp := { s.cbp with slots := s.cbp.slots.set i r } }

/-- A delayed-read slot freed: it leaves the order of latching. -/
def State.freeReadSlot (s : State) (i : ReadSlotNo) : State :=
  { s with cbp := { s.cbp with slots := s.cbp.slots.set i none, latchOrder := s.cbp.latchOrder.erase i } }

/-- The lowest-numbered free delayed-read slot (R131). -/
def State.freeReadSlotNo (s : State) : Option ReadSlotNo :=
  (List.finRange 2).find? fun i => s.cbp.slots[i].isNone

/-- A read latched into a slot, its barrier the latest posted write (R131, R133). -/
def State.latchRead (s : State) (i : ReadSlotNo) (a : Addr) (size : Size) : State :=
  let r : ReadSlot := { addr := a, size := size, state := .latched, barrier := s.latestTag }
  { s with cbp := { s.cbp with slots := s.cbp.slots.set i (some r), latchOrder := s.cbp.latchOrder ++ [i] } }

/-- The slot that holds a read of this address and size, if any. -/
def State.matchingSlot (s : State) (a : Addr) (size : Size) : Option ReadSlotNo :=
  (List.finRange 2).find? fun i => match s.cbp.slots[i] with
    | some r => r.addr == a && r.size == size
    | none => false

/-- Some slot is LATCHED or ISSUED (R131, case 4). -/
def State.readPending (s : State) : Bool :=
  (List.finRange 2).any fun i => match s.cbp.slots[i] with
    | some r => match r.state with
      | .latched => true
      | .issued _ => true
      | .complete _ => false
    | none => false

/-- A read returned to LATCHED with its barrier kept (R133). -/
def ReadSlot.relatch (r : ReadSlot) : ReadSlot := { r with state := .latched }

/-- An exchange that starts withdraws the CTL request of an ISSUED slot (R133). -/
def ReadSlot.withdraw (r : ReadSlot) : ReadSlot :=
  match r.state with
  | .issued _ => r.relatch
  | .latched => r
  | .complete _ => r

/-- The bytes of two accesses overlap. -/
def overlaps (a : Addr) (n : Nat) (b : Addr) (m : Nat) : Bool :=
  decide (a.toNat < b.toNat + m ∧ b.toNat < a.toNat + n)

/-- A newly posted write reaches a slot (R134). -/
def reaches (p : Params) (a : Addr) (size : Size) (r : ReadSlot) : Bool :=
  if inWindow p a then inWindow p r.addr else overlaps a size.bytes r.addr r.size.bytes

/-- What a write that reaches a slot makes of it: the barrier moves to the write and the slot is LATCHED (R134). -/
def ReadSlot.reachedBy (r : ReadSlot) (tag : Nat) : ReadSlot := { r with state := .latched, barrier := some tag }

/-! ### Posting -/

/-- A full-word write to CMD_UNLOCK. -/
def isFullUnlock (a : Addr) (size : Size) : Bool := size == .four && offsetOf a == commandOffset 0

/-- The window lock refuses a write: in ADOPTING every window write, in HELD every one but a full-word CMD_UNLOCK (R130). -/
def State.lockRefusesWrite (s : State) (a : Addr) (size : Size) : Bool :=
  inWindow s.pu.params a && (match s.cbp.lock with
    | .opened => false
    | .adopting => true
    | .held => !isFullUnlock a size)

/-- The window lock refuses a read (R130, R131 case 1). -/
def State.lockRefusesRead (s : State) (a : Addr) : Bool := inWindow s.pu.params a && s.cbp.lock == .adopting

/-- The response driven. -/
def State.respond (s : State) (r : Response) : State := { s with cbp := { s.cbp with response := r } }

/-- A write taken into the posted write queue with the next sequence number, judged against each slot that is not free
(R126, R134). -/
def State.post (s : State) (a : Addr) (size : Size) (data : Word) : State :=
  let entry : PostedWrite :=
    { addr := a, size := size, data := data, zone := zoneOf s.pu.params a, tag := s.cbp.postedCount }
  let judge := fun r : ReadSlot => if reaches s.pu.params a size r then r.reachedBy s.cbp.postedCount else r
  { s with cbp :=
    { s.cbp with
      queue := s.cbp.queue ++ [entry]
      postedCount := s.cbp.postedCount + 1
      slots := s.cbp.slots.map (Option.map judge) } }

/-- The 32-bit sequence number of a posted write (R126): it returns to 0 after 4,294,967,295. -/
def PostedWrite.sequenceNumber (p : PostedWrite) : Word := BitVec.ofNat 32 p.tag

/-- The write held with WAIT, once a place is free: refused by the lock with RETRY, or posted and answered DONE (R126). -/
def State.postHeld (s : State) : State :=
  match s.cbp.held with
  | some (.write a size data) =>
    let s1 := { s with cbp := { s.cbp with held := none } }
    if s1.lockRefusesWrite a size then s1.respond .retry else (s1.post a size data).respond .done
  | some (.read _ _ _) => s
  | none => s

/-! ### The queue's head -/

/-- The head's handling ends: it leaves the queue, the next entry becomes the head, and a held write is posted (R127). -/
def State.retireHead (s : State) : State :=
  State.postHeld { s with cbp := { s.cbp with queue := s.cbp.queue.tail, head := .waiting } }

/-- The head's condition replaced. -/
def State.setHead (s : State) (stage : HeadStage) : State := { s with cbp := { s.cbp with head := stage } }

/-- The head is in handling with these memory writes to be granted. -/
def State.headWrites (s : State) (todo : List Access) (restart : Bool) : State := s.setHead (.writing todo restart)

/-- The CBP hands window heads to their owners: not while an exchange runs or an adoption does (R127). -/
def State.handsWindow (s : State) : Bool := s.xe.running.isNone && s.pu.adoption.isNone

/-- The head, where it waits and its owner can take it now (R127). -/
def State.headToTake (s : State) : Option PostedWrite :=
  match s.cbp.head, s.cbp.queue with
  | .waiting, h :: _ => if h.zone = .passThrough ∨ s.handsWindow = true then some h else none
  | _, _ => none

/-- The bytes that a posted write carries. -/
def PostedWrite.bytes (p : PostedWrite) : List Byte := postedBytes p.size p.data

/-- Its byte position within its word. -/
def PostedWrite.position (p : PostedWrite) : Nat := p.addr.toNat % 4

/-- The value as it stands in the bytes written (R129). -/
def PostedWrite.valueInPlace (p : PostedWrite) : Word := bytesInPlace p.position p.bytes

/-- The window offset of the word that it writes. -/
def PostedWrite.wordOffset (p : PostedWrite) : Nat := offsetOf p.addr - p.position

/-- The memory writes that write it exactly as posted. -/
def PostedWrite.through (p : PostedWrite) : List Access := throughWrites p.addr p.size p.data

/-- The head, where it is the full-word command number `n` and its owner can take it now (R128). -/
def State.commandToTake (s : State) (n : Nat) : Option PostedWrite :=
  match s.headToTake with
  | some h => if h.zone = .command ∧ h.size = .four ∧ offsetOf h.addr = commandOffset n then some h else none
  | none => none

/-- The mailbox write of a command (R128). -/
def State.mailbox (s : State) (h : PostedWrite) (restart : Bool) : State := s.headWrites h.through restart

/-- WRITE_IGNORED for a posted write (R109, R129). -/
def State.ignoreWrite (s : State) (h : PostedWrite) (reason : Nat) (subject : Nat) : State :=
  s.emit .writeIgnored reason (limitSubject subject) h.valueInPlace (BitVec.ofNat 32 h.size.bytes)

end Sys2Proof.Machine
end

