-- ==== Sys2Proof/Machine/Sets.lean ====
section
/-! DEFINITION. Change sets: the checks and the records of the CSA (R23 to R47). -/

namespace Sys2Proof.Machine

/-- The SET_REJECTED reason codes of section 9.6. -/
inductive RejectReason where
  | overflow | badSource | uturn | portTwice | portHeld | aborted
  deriving DecidableEq, Repr

/-- The code of a SET_REJECTED reason. -/
def RejectReason.code : RejectReason → Nat
  | .overflow => 1
  | .badSource => 2
  | .uturn => 3
  | .portTwice => 4
  | .portHeld => 5
  | .aborted => 6

/-- A destination as a record subject. -/
def destSubject (d : Dest) : BitVec 16 := BitVec.ofNat 16 d.val

/-- The stored word of a destination's entry in the open set. -/
def openWord (l : List OpenEntry) (d : Dest) : Option Word := (l.find? fun e => e.dest == d).map OpenEntry.word

/-- A word taken into the open set: an entry already there keeps its position (R26). -/
def takeOpen : List OpenEntry → Dest → Word → List OpenEntry
  | [], d, w => [{ dest := d, word := w }]
  | e :: rest, d, w => if e.dest = d then { e with word := w } :: rest else e :: takeOpen rest d w

/-- The base word of a partial path write (R24). -/
def State.pathBase (s : State) (d : Dest) : Word := (openWord s.csa.openSet d).getD (s.intentWord d)

/-- The merged word of a path write (R24); a full-word write replaces every byte of the base. -/
def State.pathMerged (s : State) (d : Dest) (h : PostedWrite) : Word := mergeBytes (s.pathBase d) h.position h.bytes

/-- The write includes the top byte of its word (R25). -/
def PostedWrite.writesTop (h : PostedWrite) : Bool := decide (h.position + h.size.bytes = 4)

/-- The write closes the set (R25). -/
def State.closes (s : State) (d : Dest) (h : PostedWrite) : Bool := h.writesTop && pathClose (s.pathMerged d h)

/-- The static checks of one entry behind the add ports of the earlier entries, in R29's order. -/
def staticCheck (earlier : List Port) (e : OpenEntry) : Option RejectReason :=
  match pathSource e.dest e.word with
  | none => some .badSource
  | some src =>
    if isUturn e.dest src then some .uturn
    else match src with
      | .port p => if p ∈ earlier then some .portTwice else none
      | .none => none
      | .express _ => none
      | .drop _ _ => none

/-- The add port that an entry names. -/
def entryPort (e : OpenEntry) : List Port :=
  match pathSource e.dest e.word with
  | some (.port p) => [p]
  | some .none => []
  | some (.express _) => []
  | some (.drop _ _) => []
  | none => []

/-- The first entry that fails a static check, with its reason (R29). -/
def staticChecks : List Port → List OpenEntry → Option (RejectReason × OpenEntry)
  | _, [] => none
  | earlier, e :: rest =>
    match staticCheck earlier e with
    | some reason => some (reason, e)
    | none => staticChecks (earlier ++ entryPort e) rest

/-- An entry decoded for the set queue (R31). -/
def decodeEntry (e : OpenEntry) : SetEntry :=
  { dest := e.dest, src := (pathSource e.dest e.word).getD .none, attn := pathAttn e.word, word := e.word }

/-- The destination not named by the set whose intent source is the entry's port: the port's claimant (R36, R48). -/
def State.conflictOf (s : State) (named : List Dest) (e : SetEntry) : Option (Port × Dest) :=
  match e.src with
  | .port p => match s.dt.ports[p].claimant with
    | some c => if c ∈ named then none else some (p, c)
    | none => none
  | .none => none
  | .express _ => none
  | .drop _ _ => none

/-- The dynamic check over the entries in order: the failing entry, its port and the conflicting destination (R36). -/
def State.dynamicFrom (s : State) (named : List Dest) : List SetEntry → Option (SetEntry × Port × Dest)
  | [] => none
  | e :: rest =>
    match s.conflictOf named e with
    | some (p, c) => some (e, p, c)
    | none => s.dynamicFrom named rest

/-- The dynamic check of a set (R36). -/
def State.dynamicCheck (s : State) (es : List SetEntry) : Option (SetEntry × Port × Dest) :=
  s.dynamicFrom (entryDests es) es

/-- The open set emptied. -/
def State.emptyOpen (s : State) : State := { s with csa := { s.csa with openSet := [] } }

/-- A change of one destination's queued marks, within a request (R10). -/
def Work.changeQueued (w : Work) (d : Dest) (f : Nat → Nat) : Work :=
  let r := w.st.record d
  (w.setRecord d { r with queued := f r.queued }).mark d

/-- One queued mark removed from each destination that a set names (R34). -/
def Work.unqueue (w : Work) (es : List SetEntry) : Work :=
  (entryDests es).foldl (fun w d => w.changeQueued d (· - 1)) w

/-- A set that passed its static checks enters the set queue: one queued mark each, under the closing write's tag; entering
an empty queue makes an occasion of the arbiter (R31, R75). -/
def State.enterQueue (s : State) (label : BitVec 4) (es : List SetEntry) (tag : Nat) : State :=
  let set : QueuedSet := { label := label, entries := es }
  let s1 : State := { s with csa := { s.csa with queue := s.csa.queue ++ [set] } }
  let s2 := ((entryDests es).foldl (fun w d => w.changeQueued d (· + 1)) s1.begin).finish (some tag)
  { s2 with re := { s2.re with occasionDue := s2.re.occasionDue || s.csa.queue.isEmpty } }

/-- A trial close after its static checks (R30). -/
def State.trial (s : State) (label : BitVec 4) (es : List SetEntry) : State :=
  match s.dynamicCheck es with
  | none => s.emit .trialPassed 0 (BitVec.ofNat 16 label.toNat) (BitVec.ofNat 32 es.length) 0#32
  | some (e, p, c) =>
    s.emit .setRejected RejectReason.portHeld.code (destSubject e.dest) (setDetail label es.length true false)
      (portDetail p c)

/-- The close of a set whose entries are `es` (R28): checked, trialled or queued. The open set is emptied by the caller. -/
def State.closeSet (s : State) (es : List OpenEntry) (label : BitVec 4) (trial : Bool) (tag : Nat) : State :=
  match staticChecks [] es with
  | some (reason, e) =>
    s.emit .setRejected reason.code (destSubject e.dest) (setDetail label es.length trial false) e.word
  | none =>
    if trial then s.trial label (es.map decodeEntry) else s.enterQueue label (es.map decodeEntry) tag

/-- A merged word taken into the open set, with the overflow and the close that follow (R26, R27, R28). -/
def State.takePathWord (s : State) (d : Dest) (merged : Word) (close : Bool) (tag : Nat) : State :=
  if (openWord s.csa.openSet d).isNone ∧ Config.setCapacity ≤ s.csa.openSet.length then
    s.emptyOpen.emit .setRejected RejectReason.overflow.code (destSubject d) (setDetail 0#4 Config.setCapacity false false) merged
  else if close then
    s.emptyOpen.closeSet (takeOpen s.csa.openSet d (storedWord merged)) (pathLabel merged) (pathTrial merged) tag
  else { s with csa := { s.csa with openSet := takeOpen s.csa.openSet d (storedWord merged) } }

/-- A closing write without TRIAL waits while the set queue is full (R32). -/
def State.closeWaits (s : State) (d : Dest) (h : PostedWrite) : Bool :=
  s.closes d h && !pathTrial (s.pathMerged d h) && decide (Config.setQueueCapacity ≤ s.csa.queue.length)

/-- The open set rejected with ABORTED, if it holds entries (R33, R46). -/
def State.abortOpen (s : State) : State :=
  match s.csa.openSet with
  | [] => s
  | e :: rest =>
    s.emptyOpen.emit .setRejected RejectReason.aborted.code (destSubject e.dest)
      (setDetail 0#4 (rest.length + 1) false false) e.word

/-- SET_REJECTED with ABORTED for a queued set (R46, R47). -/
def State.emitQueuedAbort (s : State) (q : QueuedSet) : State :=
  match q.entries with
  | [] => s
  | e :: rest =>
    s.emit .setRejected RejectReason.aborted.code (destSubject e.dest)
      (setDetail q.label (rest.length + 1) false true) e.word

/-- SET_ABANDONED for a settling set (R46, R47). -/
def State.emitAbandoned (s : State) (e : SettlingSet) : State :=
  s.emit .setAbandoned 0 (BitVec.ofNat 16 e.label.toNat) (abandonDetail e.entries e.remaining)
    (BitVec.ofNat 32 e.interrupted)

end Sys2Proof.Machine
end

