-- ==== Sys2Proof/Machine/Commands.lean ====
section
/-! DEFINITION. The six command words at the queue's head (R128): CMD_UNLOCK, CMD_ABORT_SET, CMD_EXCHANGE, CMD_RELEASE,
CMD_RING_TAIL, CMD_RESTART. Each acts on the full value written (R157) and then has its mailbox written. -/

namespace Sys2Proof.Machine

/-- The window lock after CMD_UNLOCK: HELD opens; any other condition stays (R130). -/
def unlocked : Lock → Lock
  | .held => .opened
  | .opened => .opened
  | .adopting => .adopting

/-- CMD_UNLOCK (R128, R130). -/
def cmdUnlockStep (s : State) : State :=
  match s.commandToTake 0 with
  | some h => ({ s with cbp := { s.cbp with lock := unlocked s.cbp.lock } } : State).mailbox h false
  | none => s

/-- CMD_UNLOCK. -/
def execCmdUnlock (s : State) : Host.Outcome State Fault Refusal := .next (cmdUnlockStep s)

/-- CMD_ABORT_SET (R33). -/
def cmdAbortSetStep (s : State) : State :=
  match s.commandToTake 1 with
  | some h => s.abortOpen.mailbox h false
  | none => s

/-- CMD_ABORT_SET. -/
def execCmdAbortSet (s : State) : Host.Outcome State Fault Refusal := .next (cmdAbortSetStep s)

/-- The refusal of a controller request, if any, in R112's order: reason code 1 BAD_PLAN, 2 TORN, 3 BUSY. -/
def State.refusal (s : State) (v : Nat) : Option Nat :=
  if h : v < 8 then
    if s.xe.conditions[v] = .torn then some 2
    else if (s.xe.list.any fun r => !r.isFault) || (s.listedFor ⟨v, h⟩).isSome then some 3
    else none
  else some 1

/-- A controller request judged: refused with a record, or listed at the end (R112). -/
def State.controllerRequest (s : State) (v : Nat) : State :=
  match s.refusal v with
  | some reason => s.emit .exchangeRefused reason (limitSubject v) (originDetail .controller) (BitVec.ofNat 32 v)
  | none =>
    if h : v < 8 then s.setExchangeList (s.xe.list ++ [{ origin := .controller, plan := ⟨v, h⟩ }]) else s

/-- CMD_EXCHANGE (R112). -/
def cmdExchangeStep (s : State) : State :=
  match s.commandToTake 2 with
  | some h => (s.controllerRequest h.data.toNat).mailbox h false
  | none => s

/-- CMD_EXCHANGE. -/
def execCmdExchange (s : State) : Host.Outcome State Fault Refusal := .next (cmdExchangeStep s)

/-- RELEASE_IGNORED with the named way's state code, or 0 (R103). -/
def State.ignoreRelease (s : State) (v code : Nat) : State :=
  s.emit .releaseIgnored 0 (limitSubject v) (BitVec.ofNat 32 v) (BitVec.ofNat 32 code)

/-- A release acted on: the way in AWAIT_RELEASE enters CLEAR and the DT takes the release request under the command's tag;
any other is ignored with a record (R103). -/
def State.manualRelease (s : State) (v tag : Nat) : State :=
  if h : v < 4 then
    let r := s.lm.ways[v]
    if r.state = .awaitRelease then
      ((s.setWay ⟨v, h⟩ r.cleared).emitWayState ⟨v, h⟩ .awaitRelease r.cleared).release ⟨v, h⟩ (some tag)
    else s.ignoreRelease v r.state.code
  else s.ignoreRelease v 0

/-- CMD_RELEASE (R103). -/
def cmdReleaseStep (s : State) : State :=
  match s.commandToTake 3 with
  | some h => (s.manualRelease h.data.toNat h.tag).mailbox h false
  | none => s

/-- CMD_RELEASE. -/
def execCmdRelease (s : State) : Host.Outcome State Fault Refusal := .next (cmdReleaseStep s)

/-- `v` lies in the span from the tail to the head, both ends included (R141). -/
def State.tailAccepted (s : State) (v : Nat) : Bool :=
  decide (v < s.pu.params.ringLength) &&
    decide ((v + s.pu.params.ringLength - s.ew.tail) % s.pu.params.ringLength
      ≤ (s.ew.head + s.pu.params.ringLength - s.ew.tail) % s.pu.params.ringLength)

/-- The tail moved to `v`: EVT_N is deasserted if it meets the head, and the ring word is requested (R141). -/
def State.moveTail (s : State) (v : Nat) : State :=
  { s with ew := { s.ew with
      tail := v, ringWordDue := true, evtAsserted := s.ew.evtAsserted && decide (v ≠ s.ew.head) } }

/-- CMD_RING_TAIL (R141): refused with TAIL_REFUSED, or accepted; the mailbox write follows the EW's action, which ends at
the ring-word grant where the tail moves. -/
def cmdRingTailStep (s : State) : State :=
  match s.commandToTake 4 with
  | some h =>
    let v := h.data.toNat
    if s.tailAccepted v then
      if v = s.ew.tail then s.mailbox h false
      else { s.moveTail v with cbp := { s.cbp with head := .ringWord } }
    else
      (s.emit .tailRefused 0 (limitSubject v) (BitVec.ofNat 32 v) (ringWordOf s.ew.head s.ew.tail)).mailbox h false
  | none => s

/-- CMD_RING_TAIL. -/
def execCmdRingTail (s : State) : Host.Outcome State Fault Refusal := .next (cmdRingTailStep s)

/-- CMD_RESTART (R153): handed to the PU; its mailbox is written before the restart is carried out. -/
def cmdRestartStep (s : State) : State :=
  match s.commandToTake 5 with
  | some h => s.mailbox h true
  | none => s

/-- CMD_RESTART. -/
def execCmdRestart (s : State) : Host.Outcome State Fault Refusal := .next (cmdRestartStep s)

end Sys2Proof.Machine
end

