-- ==== Sys2Proof/Machine/EventGrants.lean ====
section
/-! DEFINITION. The grants of EVT: EVENT_RECORD_GRANT, RING_WORD_GRANT, STATUS_ZONE_GRANT (R139 to R143). -/

namespace Sys2Proof.Machine

/-- What follows a granted word of the front record; at the last the head advances, the record leaves the queue and EVT_N
is asserted (R140). -/
def State.recordGranted (s : State) : State :=
  if h : s.ew.stage.val + 1 < 5 then { s with ew := { s.ew with stage := ⟨s.ew.stage.val + 1, h⟩ } }
  else
    { s with ew := { s.ew with
        stage := 0, head := s.nextHead, queue := s.ew.queue.tail, evtAsserted := true, recordFirst := false } }

/-- EVENT_RECORD_GRANT (R140). -/
def eventRecordGrantStep (s : State) : State :=
  if s.evtSource = some .record then s.grant .evt State.recordGranted else s

/-- EVENT_RECORD_GRANT. -/
def execEventRecordGrant (s : State) : Host.Outcome State Fault Refusal := .next (eventRecordGrantStep s)

/-- What follows the granted ring word: the write is no longer pending, and a CMD_RING_TAIL that waited for it has its
mailbox written (R139, R141). -/
def State.ringWordGranted (s : State) : State :=
  let s1 : State := { s with ew := { s.ew with ringWordDue := false } }
  match s.cbp.head, s.cbp.queue with
  | .ringWord, h :: _ => s1.mailbox h false
  | _, _ => s1

/-- RING_WORD_GRANT (R141). -/
def ringWordGrantStep (s : State) : State :=
  if s.evtSource = some .ringWord then s.grant .evt State.ringWordGranted else s

/-- RING_WORD_GRANT. -/
def execRingWordGrant (s : State) : Host.Outcome State Fault Refusal := .next (ringWordGrantStep s)

/-- What follows a granted word of the status zone: the next word, or the end of the rewrite after the thirteenth (R143). -/
def State.statusGranted (s : State) : State :=
  match s.ew.rewrite with
  | some rw =>
    if h : rw.next.val + 1 < 13 then
      { s with ew := { s.ew with rewrite := some { rw with next := ⟨rw.next.val + 1, h⟩ } } }
    else { s with ew := { s.ew with rewrite := none } }
  | none => s

/-- STATUS_ZONE_GRANT (R143). -/
def statusZoneGrantStep (s : State) : State :=
  if s.evtSource = some .status then s.grant .evt State.statusGranted else s

/-- STATUS_ZONE_GRANT. -/
def execStatusZoneGrant (s : State) : Host.Outcome State Fault Refusal := .next (statusZoneGrantStep s)

end Sys2Proof.Machine
end

