-- ==== Sys2Proof/Machine/Exchange.lean ====
section
/-! DEFINITION. The exchange: EXCHANGE_START, EXCHANGE_ACCESS_GRANT, EXCHANGE_SWAP (R113 to R117). -/

namespace Sys2Proof.Machine

/-- The running exchange replaced. -/
def State.setRunning (s : State) (x : Option RunningExchange) : State := { s with xe := { s.xe with running := x } }

/-! ### Start -/

/-- Every ISSUED slot returned to LATCHED (R133). -/
def State.withdrawReads (s : State) : State :=
  { s with cbp := { s.cbp with slots := s.cbp.slots.map (Option.map ReadSlot.withdraw) } }

/-- A direct read that waits for its grant is withdrawn: answered RETRY, and latched if a slot is free (R132). -/
def State.withdrawDirect (s : State) : State :=
  match s.cbp.held with
  | some (.read a size _) =>
    let s1 := { s with cbp := { s.cbp with held := none, response := .retry } }
    match s1.freeReadSlotNo with
    | some i => s1.latchRead i a size
    | none => s1
  | some (.write _ _ _) => s
  | none => s

/-- The conditions of a start but for the list: the XE is idle, no adoption is running, the head is not in the middle of its
handling (R113). -/
def State.mayStart (s : State) : Bool :=
  s.xe.running.isNone && s.pu.adoption.isNone && s.cbp.head == .waiting

/-- The exchange of a request begins (R113, R114). -/
def State.beginExchange (s : State) (r : ExchangeRequest) : State :=
  (s.setRunning (some
    { request := r, step := 0, swapped := 0, skipped := 0, stage := .header, keyWord := 0#32, pathWord := 0#32 })
  ).withdrawReads.withdrawDirect

/-- The subject of a record about a plan. -/
def exchangeSubject (p : Plan) : BitVec 16 := BitVec.ofNat 16 p.val

/-- Detail B of a listed request's refusal: the full value written, which is its plan, for CONTROLLER, and 0 for FAULT
(R112, R123). -/
def refusedDetail (r : ExchangeRequest) : Word :=
  match r.origin with
  | .controller => BitVec.ofNat 32 r.plan.val
  | .fault _ => 0#32

/-- The first listed request starts; one of a TORN plan is refused and the next is considered at once (R113; log 20). -/
def State.startFrom : List ExchangeRequest → State → State
  | [], s => { s with xe := { s.xe with list := [] } }
  | r :: rest, s =>
    if s.xe.conditions[r.plan] = .torn then
      State.startFrom rest (s.emit .exchangeRefused 2 (exchangeSubject r.plan) (originDetail r.origin)
        (refusedDetail r))
    else State.beginExchange { s with xe := { s.xe with list := rest } } r

/-- EXCHANGE_START (R113). -/
def exchangeStartStep (s : State) : State := if s.mayStart then State.startFrom s.xe.list s else s

/-- EXCHANGE_START. -/
def execExchangeStart (s : State) : Host.Outcome State Fault Refusal := .next (exchangeStartStep s)

/-! ### The sequence -/

/-- After an entry: the next entry's header, or the end after entry 15 (R114). -/
def RunningExchange.advance (x : RunningExchange) : RunningExchange :=
  if h : x.step.val + 1 < 16 then { x with step := ⟨x.step.val + 1, h⟩, stage := .header }
  else { x with stage := .final }

/-- The reason codes of PLAN_ENTRY_SKIPPED (section 9.6). -/
inductive SkipReason where
  | badKey | badSource | uturn | portHeld
  deriving DecidableEq, Repr

/-- The code of a PLAN_ENTRY_SKIPPED reason. -/
def SkipReason.code : SkipReason → Nat
  | .badKey => 1
  | .badSource => 2
  | .uturn => 3
  | .portHeld => 4

/-- An entry skipped with a record: the skipped count rises and the exchange goes on (R115, R116). -/
def State.skipEntry (s : State) (x : RunningExchange) (reason : SkipReason) (b : Word) : State :=
  (s.emit .planEntrySkipped reason.code (BitVec.ofNat 16 (keyDest x.keyWord)) (entryDetail x.request.plan x.step.val) b
  ).setRunning (some { x with skipped := x.skipped + 1 }.advance)

/-- The key word of the entry has been read (R114, R115). -/
def State.keyRead (s : State) (x : RunningExchange) (w : Word) : State :=
  let x1 := { x with keyWord := w }
  if keyValid w = false then s.setRunning (some x1.advance)
  else if keyDest w < 432 then s.setRunning (some { x1 with stage := .path })
  else s.skipEntry x1 .badKey w

/-- The plan path word of the entry has been read: the static checks (R115). -/
def State.planPathRead (s : State) (x : RunningExchange) (w : Word) : State :=
  let x1 := { x with pathWord := w }
  match destOfNat (keyDest x.keyWord) with
  | none => s.setRunning (some x1.advance)
  | some d =>
    match pathSource d w with
    | none => s.skipEntry x1 .badSource w
    | some src => if isUturn d src then s.skipEntry x1 .uturn w else s.setRunning (some { x1 with stage := .swap })

/-- The exchange ends: EXCHANGE_DONE, and the XE is idle (R117). -/
def State.endExchange (s : State) (x : RunningExchange) : State :=
  (s.emit .exchangeDone 0 (exchangeSubject x.request.plan) (originDetail x.request.origin)
    (countsDetail x.swapped x.skipped)).setRunning none

/-- What follows a granted access of the running exchange; `w` is the word read, if one was (R114). -/
def State.exchangeStep (s : State) (x : RunningExchange) (w : Word) : State :=
  match x.stage with
  | .header => s.setRunning (some { x with stage := .key })
  | .key => s.keyRead x w
  | .path => s.planPathRead x w
  | .swap => s
  | .kept _ => s.setRunning (some x.advance)
  | .final => s.endExchange x

/-- EXCHANGE_ACCESS_GRANT (R114): an XCH grant while an exchange runs. -/
def exchangeAccessGrantStep (s : State) : State :=
  match s.pu.adoption, s.xe.running with
  | none, some x => s.grant .xch fun t => t.exchangeStep x (wordOfBytes (s.readBytes s.xchAccess))
  | _, _ => s

/-- EXCHANGE_ACCESS_GRANT. -/
def execExchangeAccessGrant (s : State) : Host.Outcome State Fault Refusal := .next (exchangeAccessGrantStep s)

/-! ### The swap -/

/-- The destination other than `d` that claims the port of a source, with the port (R116, step 1). -/
def State.otherClaimant (s : State) (d : Dest) : Source → Option (Port × Dest)
  | .port p =>
    match s.dt.ports[p].claimant with
    | some c => if c = d then none else some (p, c)
    | none => none
  | .none => none
  | .express _ => none
  | .drop _ _ => none

/-- A holder displaced: dark on no source; its slot, if any, is evaluated in place, and otherwise its wanted flag is
re-evaluated, and a flag left raised makes an occasion (R59, R75, R116). -/
def Work.displace (w : Work) (h : Dest) : Work :=
  let w1 := w.writeCurrent h .none dark
  match (w1.st.record h).slot with
  | some n => w1.evaluate n
  | none =>
    let w2 := w1.reevaluateWanted h
    { w2 with raised := w2.raised || (w2.st.record h).wanted }

/-- The holder other than `d` of the new source's port is displaced (R116, step 7). -/
def Work.displaceHolder (w : Work) (d : Dest) (src : Source) : Work :=
  match w.st.otherHolder d src with
  | some h => w.displace h
  | none => w

/-- Steps 3 to 9 of the swap of destination `d` to (src, attn) (R116). -/
def Work.swap (w : Work) (d : Dest) (src : Source) (attn : Attn) : Work :=
  let w1 := ((w.writeIntent d src attn).cancelSlot d)
  let r := w1.st.record d
  let w2 := (w1.setRecord d { r with wanted := false, forced := w1.st.forcedFor src }).displaceHolder d src
  w2.writeCurrent d src (effectiveTarget d (w2.st.record d))

/-- The swap request of the entry in hand (R116): skipped with PORT_HELD, or carried out whole, its kept word to be
written next. -/
def State.swapEntry (s : State) (x : RunningExchange) (d : Dest) (src : Source) (attn : Attn) : State :=
  match s.otherClaimant d src with
  | some (p, c) => s.skipEntry x .portHeld (portDetail p c)
  | none =>
    ((s.begin.swap d src attn).finish none).setRunning
      (some { x with swapped := x.swapped + 1, stage := .kept (s.intentWord d) })

/-- EXCHANGE_SWAP (R116): the DT's request for the entry that has passed its static checks. -/
def exchangeSwapStep (s : State) : State :=
  match s.xe.running with
  | some x =>
    if x.stage = .swap then
      match destOfNat (keyDest x.keyWord) with
      | some d =>
        match pathSource d x.pathWord with
        | some src => s.swapEntry x d src (pathAttn x.pathWord)
        | none => s
      | none => s
    else s
  | none => s

/-- EXCHANGE_SWAP. -/
def execExchangeSwap (s : State) : Host.Outcome State Fault Refusal := .next (exchangeSwapStep s)

end Sys2Proof.Machine
end

