-- ==== Sys2Proof/Machine/HeadWrites.lean ====
section
/-! DEFINITION. The handing over of the posted write queue's head: PATH_WRITE, MASK_VIEW_WRITE, WRITE_THROUGH,
PLAN_HEADER_WRITE, STATUS_ZONE_WRITE, NARROW_COMMAND_WRITE (R127). -/

namespace Sys2Proof.Machine

/-- PATH_WRITE (R23): the CSA takes the head; a closing write that must wait for a place is not taken (R32). -/
def pathWriteStep (s : State) : State :=
  match s.headToTake with
  | some h =>
    if h.zone = .linePath ∨ h.zone = .dropPath then
      match destOfOffset (offsetOf h.addr) with
      | some d =>
        if s.closeWaits d h then s
        else (s.takePathWord d (s.pathMerged d h) (s.closes d h) h.tag).retireHead
      | none => s
    else s
  | none => s

/-- PATH_WRITE. -/
def execPathWrite (s : State) : Host.Outcome State Fault Refusal := .next (pathWriteStep s)

/-- The mask word number that an offset of a view names (R84). -/
def maskIndex (view : MaskView) (offset : Nat) : Option (Fin 12) :=
  if h : (offset - viewOffset view) / 4 < 12 then some ⟨(offset - viewOffset view) / 4, h⟩ else none

/-- A mask word that the MU does not hold reads 0 (log 34). -/
def State.maskWord (s : State) (m : Fin 12) : Word := s.masks[m].getD 0#32

/-- The MU's word replaced. -/
def State.setMask (s : State) (m : Fin 12) (w : Word) : State := { s with masks := s.masks.set m (some w) }

/-- One blocked-flag request: a request of its own, under the mask write's tag (R6, R87). -/
def State.blockRequest (s : State) (tag : Nat) (d : Dest) (b : Bool) : State :=
  (s.begin.changeBlocked d b).finish (some tag)

/-- The bits whose value a mask write changes, ascending (R87). -/
def changedBits (old new : Word) : List (Fin 32) :=
  (List.finRange 32).filter fun b => old.getLsbD b.val != new.getLsbD b.val

/-- Where a mask write stands with these changed bits still to be answered for: at its next blocked-flag request, or, after
the last, at the memory write of the whole word at the direct view (R87). -/
def State.maskStage (s : State) (m : Fin 12) : List (Fin 32) → HeadStage
  | [] => .writing [s.wordWrite (0x700 + 4 * m.val) (s.maskWord m)] false
  | b :: rest => .masking m (b :: rest)

/-- The next blocked-flag request of a mask write, if one is left, and where the write stands after it (R87, step 3). -/
def State.blockNext (s : State) (tag : Nat) (m : Fin 12) : List (Fin 32) → State
  | [] => s.setHead (s.maskStage m [])
  | b :: rest => (s.blockRequest tag (maskDest m b) ((s.maskWord m).getLsbD b.val)).setHead (s.maskStage m rest)

/-- The MU takes the head: the new word is computed and stored, and the first request sent (R87, steps 1 to 3). -/
def State.takeMaskWrite (s : State) (h : PostedWrite) (view : MaskView) : State :=
  match maskIndex view (offsetOf h.addr) with
  | some m =>
    let new := maskWrite view (s.maskWord m) h.position h.bytes
    (s.setMask m new).blockNext h.tag m (changedBits (s.maskWord m) new)
  | none => s

/-- MASK_VIEW_WRITE (R87): the MU takes the head, or sends the next blocked-flag request of the mask write that it has in
handling. Each request is a step of its own, so other requests may reach the DT between two of them. -/
def maskViewWriteStep (s : State) : State :=
  match s.cbp.head, s.cbp.queue with
  | .masking m todo, h :: _ => s.blockNext h.tag m todo
  | _, _ =>
    match s.headToTake with
    | some h => match h.zone with
      | .mask view => s.takeMaskWrite h view
      | .passThrough | .linePath | .dropPath | .command | .status | .planStore | .planHeader | .ring | .plain => s
    | none => s

/-- MASK_VIEW_WRITE. -/
def execMaskViewWrite (s : State) : Host.Outcome State Fault Refusal := .next (maskViewWriteStep s)

/-- The zones that the CBP writes through exactly as posted (R127). -/
def writesThrough : Zone → Bool
  | .passThrough => true
  | .planStore => true
  | .ring => true
  | .plain => true
  | .linePath => false
  | .dropPath => false
  | .mask _ => false
  | .command => false
  | .status => false
  | .planHeader => false

/-- WRITE_THROUGH (R127): the CBP requests CTL for the bytes exactly as posted. -/
def writeThroughStep (s : State) : State :=
  match s.headToTake with
  | some h => if writesThrough h.zone then s.headWrites h.through false else s
  | none => s

/-- WRITE_THROUGH. -/
def execWriteThrough (s : State) : Host.Outcome State Fault Refusal := .next (writeThroughStep s)

/-- The plan that a header offset names (R108). -/
def headerPlan (offset : Nat) : Option Plan :=
  if h : (offset - 0x1400) / 4 < 8 then some ⟨(offset - 0x1400) / 4, h⟩ else none

/-- A plan's condition set. -/
def State.setCondition (s : State) (p : Plan) (c : PlanCondition) : State :=
  { s with xe := { s.xe with conditions := s.xe.conditions.set p c } }

/-- PLAN_HEADER_WRITE (R109): a full-word write of 0 makes the plan IDLE and has the word 0 written; any other is refused
with WRITE_IGNORED, reason HEADER_VALUE. -/
def planHeaderWriteStep (s : State) : State :=
  match s.headToTake with
  | some h =>
    if h.zone = .planHeader then
      match headerPlan (offsetOf h.addr) with
      | some p =>
        if h.size = .four ∧ h.data = 0#32 then
          (s.setCondition p .idle).headWrites [s.wordWrite (planHeaderOffset p) 0#32] false
        else (s.ignoreWrite h 2 p.val).retireHead
      | none => s
    else s
  | none => s

/-- PLAN_HEADER_WRITE. -/
def execPlanHeaderWrite (s : State) : Host.Outcome State Fault Refusal := .next (planHeaderWriteStep s)

/-- STATUS_ZONE_WRITE (R129): no memory access; WRITE_IGNORED, reason STATUS_ZONE, ends the handling. -/
def statusZoneWriteStep (s : State) : State :=
  match s.headToTake with
  | some h => if h.zone = .status then (s.ignoreWrite h 1 h.wordOffset).retireHead else s
  | none => s

/-- STATUS_ZONE_WRITE. -/
def execStatusZoneWrite (s : State) : Host.Outcome State Fault Refusal := .next (statusZoneWriteStep s)

/-- NARROW_COMMAND_WRITE (R128): the bytes are written through, nothing acts, WRITE_IGNORED, reason NARROW_COMMAND, is
recorded as the head is taken (log 18). -/
def narrowCommandWriteStep (s : State) : State :=
  match s.headToTake with
  | some h =>
    if h.zone = .command ∧ h.size ≠ .four then (s.ignoreWrite h 3 h.wordOffset).headWrites h.through false else s
  | none => s

/-- NARROW_COMMAND_WRITE. -/
def execNarrowCommandWrite (s : State) : Host.Outcome State Fault Refusal := .next (narrowCommandWriteStep s)

end Sys2Proof.Machine
end

