-- ==== Sys2Proof/Machine/Ramp.lean ====
section
/-! DEFINITION. Ramping: RAMP_TICK_EXPIRY, WAY_PASS and ARBITER_OCCASION (R65 to R79), with the admission of sets
(R36 to R41). -/

namespace Sys2Proof.Machine

/-! ### The tick and the pass -/

/-- RAMP_TICK_EXPIRY (R66): the tick runs if the table-update list is empty; otherwise it is deferred, or merged into the
tick already deferred. The expiry comes only while the timer runs (R65). -/
def rampTickExpiryStep (s : State) : State :=
  if s.re.tickTimer = false then s
  else if s.dt.updates.isEmpty then s.startTick
  else { s with re := { s.re with deferred := true } }

/-- RAMP_TICK_EXPIRY. -/
def execRampTickExpiry (s : State) : Host.Outcome State Fault Refusal := .next (rampTickExpiryStep s)

/-- The step of a slot to `a'`, with phase evaluation where it reaches the goal (R68). -/
def Work.rampStep (w : Work) (n : SlotNo) (sl : RampSlot) (a' : Attn) : Work :=
  let w1 := w.writeCurrent sl.dest (w.st.record sl.dest).curSrc a'
  if a' = sl.goal then w1.evaluate n else w1

/-- One visit of a pass, with the remaining budget before and after (R68, R69). A visit is the requests of one slot, so its
marks join the list in visiting order (log 14). -/
def State.visit (maxStep : Nat) (acc : State × Nat) (n : SlotNo) : State × Nat :=
  let s := acc.1
  match s.re.slots[n] with
  | none => acc
  | some sl =>
    if sl.phase = .portWait then ((s.begin.evaluate n).finish none, acc.2)
    else
      let a := (s.record sl.dest).curAttn
      match findStep a sl.goal acc.2 (min maxStep (distance a sl.goal)) with
      | some a' => ((s.begin.rampStep n sl a').finish none, acc.2 - cost a a')
      | none => acc

/-- The pass of one way (R67): the budget from the load as it stands, then every slot of the way in ramp-list order. -/
def State.passWay (s : State) (w : Way) : State :=
  let p := s.pu.params
  ((s.slotsOfWay w).foldl (State.visit p.maxStep) (s, passBudget p.budgetFloor p.slewFraction s.re.loads[w])).1

/-- One pass of a way fewer is owed. -/
def State.takePass (s : State) (w : Way) : State :=
  { s with re := { s.re with passesDue := s.re.passesDue.set w (s.re.passesDue[w] - 1) } }

/-- WAY_PASS (R67): taken only where a running tick owes the way a pass (log 11). -/
def wayPassStep (w : Way) (s : State) : State :=
  if s.re.passesDue[w] = 0 then s else (s.takePass w).passWay w

/-- WAY_PASS. -/
def execWayPass (w : Way) (s : State) : Host.Outcome State Fault Refusal := .next (wayPassStep w s)

/-! ### Admission of a set -/

/-- The record as an entry's intent, with the forced flag computed for it, would leave it (R76). -/
def State.intendedRecord (s : State) (e : SetEntry) : DestRecord :=
  { s.record e.dest with intentSrc := e.src, intentAttn := e.attn, forced := s.forcedFor e.src }

/-- An entry counts toward the needed slots (R76). -/
def State.needsSlot (s : State) (e : SetEntry) : Bool :=
  isLine e.dest && (s.record e.dest).slot.isNone && !(s.intendedRecord e).forced
    && !atRest e.dest (s.intendedRecord e)

/-- The needed count of a set (R76). -/
def State.neededSlots (s : State) (es : List SetEntry) : Nat := (es.filter s.needsSlot).length

/-- One entry's intent, queued mark and forced flag (R38). -/
def Work.applyIntent (w : Work) (e : SetEntry) : Work :=
  let w1 := (w.writeIntent e.dest e.src e.attn).changeQueued e.dest (· - 1)
  w1.setRecord e.dest { w1.st.record e.dest with forced := w1.st.forcedFor e.src }

/-- The wanted flag cleared. -/
def Work.clearWanted (w : Work) (d : Dest) : Work := w.setRecord d { w.st.record d with wanted := false }

/-- A line entry settled: forced, retargeted, at rest or moving, the first case that holds (R39). A moving entry finds a
free slot, since the needed count was (R77; log 34). -/
def Work.settleLine (w : Work) (id : Nat) (d : Dest) : Work :=
  if (w.st.record d).forced then
    let w1 := (w.cancelSlot d).clearWanted d
    w1.writeCurrent d (w1.st.record d).intentSrc dark
  else
    match (w.st.record d).slot with
    | some n => w.retargetSlot n id
    | none =>
      if atRest d (w.st.record d) then w.clearWanted d
      else match w.st.freeSlots with
        | n :: _ => w.occupySlot n d (some id)
        | [] => w

/-- An entry settled (R39, R40). -/
def Work.settleEntry (id : Nat) (w : Work) (e : SetEntry) : Work :=
  if isLine e.dest then w.settleLine id e.dest else w.reevaluateDrop e.dest

/-- The slots that serve a set. -/
def State.servingCount (s : State) (id : Nat) : Nat :=
  ((List.finRange 16).filter fun n => match s.re.slots[n] with
    | some sl => sl.serves == some id
    | none => false).length

/-- The accounting of an applied set (R41): settled at once, or listed with the slots that serve it. -/
def Work.account (w : Work) (id : Nat) (q : QueuedSet) : Work :=
  if w.st.servingCount id = 0 then
    w.emit .setSettled 0 (BitVec.ofNat 16 q.label.toNat) (BitVec.ofNat 32 q.entries.length) 0#32
  else
    let listed : SettlingSet :=
      { id := id, label := q.label, entries := q.entries.length, remaining := w.st.servingCount id, interrupted := 0 }
    { w with st := { w.st with csa := { w.st.csa with settling := w.st.csa.settling ++ [listed] } } }

/-- The head leaves the set queue. -/
def Work.popSet (w : Work) : Work :=
  { w with st := { w.st with csa := { w.st.csa with queue := w.st.csa.queue.tail } } }

/-- The identity of the set being applied is given out (log 17). -/
def Work.giveSetId (w : Work) : Work :=
  { w with st := { w.st with csa := { w.st.csa with nextSet := w.st.csa.nextSet + 1 } } }

/-- The head set applied (R38): every intent first, then every entry settled, then the accounting. -/
def Work.applySet (w : Work) (q : QueuedSet) : Work :=
  let id := w.st.csa.nextSet
  ((q.entries.foldl (Work.settleEntry id) (q.entries.foldl Work.applyIntent w.popSet.giveSetId))).account id q

/-- The head set rejected with PORT_HELD (R37). -/
def Work.rejectSet (w : Work) (q : QueuedSet) (e : SetEntry) (p : Port) (c : Dest) : Work :=
  (w.popSet.emit .setRejected RejectReason.portHeld.code (destSubject e.dest)
    (setDetail q.label q.entries.length false true) (portDetail p c)).unqueue q.entries

/-! ### The arbiter's occasion -/

/-- A wanted destination admitted while a slot is free (R79). -/
def Work.admitWanted (w : Work) (d : Dest) : Work :=
  if isLine d && (w.st.record d).wanted then
    match w.st.freeSlots with
    | n :: _ => w.occupySlot n d none
    | [] => w
  else w

/-- The arbiter works through at most `fuel` heads of the set queue and then the wanted destinations (R75 to R79). -/
def Work.arbitrate : Nat → Work → Work
  | 0, w => w
  | fuel + 1, w =>
    match w.st.csa.queue with
    | [] => allDests.foldl Work.admitWanted w
    | q :: _ =>
      match w.st.dynamicCheck q.entries with
      | some (e, p, c) => Work.arbitrate fuel (w.rejectSet q e p c)
      | none =>
        if w.st.neededSlots q.entries ≤ w.st.freeSlots.length then Work.arbitrate fuel (w.applySet q) else w

/-- One occasion of the arbiter, one request taken whole (R75). The slots that it frees itself it has used, so no occasion
is left due. -/
def State.occasion (s : State) : State :=
  let s1 := (Work.arbitrate (s.csa.queue.length + 1) s.begin).finish none
  { s1 with re := { s1.re with occasionDue := false } }

/-- ARBITER_OCCASION (R75): taken where an occasion is due and no adoption or restart is under way (log 12). -/
def arbiterOccasionStep (s : State) : State :=
  if s.re.occasionDue = true ∧ s.pu.adoption = none then s.occasion else s

/-- ARBITER_OCCASION. -/
def execArbiterOccasion (s : State) : Host.Outcome State Fault Refusal := .next (arbiterOccasionStep s)

end Sys2Proof.Machine
end

