-- ==== Sys2Proof/Machine/Adoption.lean ====
section
/-! DEFINITION. Adoption and the restart: ADOPTION_START, ADOPTION_ACCESS_GRANT (R150 to R152), and the carrying out of
CMD_RESTART (R46, R81, R122, R153). -/

namespace Sys2Proof.Machine

/-! ### Restart -/

/-- Every queued set rejected, oldest first, with its queued marks removed (R46). -/
def Work.abortQueue (w : Work) (qs : List QueuedSet) : Work :=
  qs.foldl (fun w q => { w with st := w.st.emitQueuedAbort q }.unqueue q.entries) w

/-- The set queue and the settling-set list emptied. -/
def State.clearSets (s : State) : State := { s with csa := { s.csa with queue := [], settling := [] } }

/-- The tick timer stopped, no deferred tick, no pass or occasion left over (R81, R75; log 11). -/
def State.stopTicks (s : State) : State :=
  { s with re := { s.re with
      tickTimer := false, deferred := false, passesDue := Vector.replicate 4 0, occasionDue := false } }

/-- EXCHANGE_REFUSED with RESTART for each listed request, and the list emptied (R122). -/
def State.refuseListed (s : State) : State :=
  let s1 := s.xe.list.foldl
    (fun s r => s.emit .exchangeRefused 4 (BitVec.ofNat 16 r.plan.val) (originDetail r.origin) 0#32) s
  { s1 with xe := { s1.xe with list := [] } }

/-- The adoption of the restart waits for the table-update list to drain, with the window locked (R130, R153). -/
def State.awaitAdoption (s : State) : State :=
  { s with
    cbp := { s.cbp with lock := .adopting, head := .restarting }
    pu := { s.pu with adoption := some { stage := .drain, adopted := 0, fixed := 0 } } }

/-- The part of the restart that is the DT's and the RE's: queued marks, settling records, slots, wanted flags. -/
def Work.restart (w : Work) : Work :=
  let w1 := w.abortQueue w.st.csa.queue
  let w2 := { w1 with st := (w1.st.csa.settling.foldl State.emitAbandoned w1.st).clearSets }
  let w3 := (List.finRange 16).foldl Work.freeSlot w2
  allDests.foldl (fun w d => if (w.st.record d).wanted then w.clearWanted d else w) w3

/-- The restart carried out as one request (R153). -/
def State.carryOutRestart (s : State) : State :=
  ((s.abortOpen.begin.restart.finish none).stopTicks.refuseListed).awaitAdoption

/-! ### Adoption -/

/-- The adoption's next step and counts. -/
def State.setAdoption (s : State) (a : Option Adoption) : State := { s with pu := { s.pu with adoption := a } }

/-- ADOPTION_START (R153): after a restart, once TBL has drained the table-update list. The add-port map is rebuilt from
empty (R48; log 21). -/
def adoptionStartStep (s : State) : State :=
  match s.pu.adoption with
  | some a =>
    if a.stage = .drain ∧ s.dt.updates = [] then
      { s with
        dt := { s.dt with ports := Vector.replicate 48 { holder := none, claimant := none } }
        pu := { s.pu with adoption := some { a with stage := .mask 0 } } }
    else s
  | none => s

/-- ADOPTION_START. -/
def execAdoptionStart (s : State) : Host.Outcome State Fault Refusal := .next (adoptionStartStep s)

/-- The fixes of R150. -/
inductive FixReason where
  | badContent | uturn | portTwice
  deriving DecidableEq, Repr

/-- The code of an ADOPTION_FIXED reason (section 9.6). -/
def FixReason.code : FixReason → Nat
  | .badContent => 1
  | .uturn => 2
  | .portTwice => 3

/-- The holder that an earlier word of this adoption has given a source's port. -/
def State.adoptedHolder (s : State) : Source → Option Dest
  | .port p => s.dt.ports[p].holder
  | .none => none
  | .express _ => none
  | .drop _ _ => none

/-- The fix that a path word needs, the first that applies, with the destination that keeps the port (R150). -/
def State.fixFor (s : State) (d : Dest) (w : Word) : Option (FixReason × Option Dest) :=
  match pathSource d w with
  | none => some (.badContent, none)
  | some src =>
    if src = .none ∧ pathAttn w ≠ dark then some (.badContent, none)
    else if isUturn d src then some (.uturn, none)
    else match s.adoptedHolder src with
      | some h => some (.portTwice, some h)
      | none => none

/-- The mask bit of a line destination (R83). -/
def State.maskBit (s : State) (d : Dest) : Bool := isLine d && (s.maskWord (maskWordOf d)).getLsbD (maskBitOf d)

/-- The record that adoption builds from a source and attenuation (R3, R150): intent and current both as found, but dark
where it is built forced. -/
def State.adoptedRecord (s : State) (d : Dest) (src : Source) (attn : Attn) : DestRecord :=
  let forced := s.forcedFor src
  let cur := if forced then dark else attn
  { intentSrc := src, intentAttn := attn, curSrc := src, curAttn := cur, blocked := s.maskBit d, forced := forced
    queued := 0, wanted := s.maskBit d && !forced && decide (cur ≠ dark), slot := none }

/-- The record built: the load report from the former current, and holder and claimant of its port (R150, R63, R48). -/
def State.buildRecord (s : State) (d : Dest) (r : DestRecord) : State :=
  (((s.setRecord d r).reportLoad d (s.record d) r).takeHolder d r.curSrc).takeClaimant d r.intentSrc

/-- The destinations after `d`, or the plan headers (R151). -/
def stageAfter (d : Dest) : AdoptionStage :=
  if h : d.val + 1 < 432 then .path ⟨d.val + 1, h⟩ else .header 0

/-- A path word that needs no fix, adopted as found (R150). -/
def State.adoptFound (s : State) (a : Adoption) (d : Dest) (w : Word) (src : Source) : State :=
  let s1 := (s.buildRecord d (s.adoptedRecord d src (pathAttn w))).setAdoption
    (some { a with stage := stageAfter d, adopted := a.adopted + 1 })
  if s1.currentWord d = w then s1 else s1.markAll none [d]

/-- A path word that is fixed to (none, 255): recorded, listed, and written in the next grant (R150). -/
def State.adoptFixed (s : State) (a : Adoption) (d : Dest) (w : Word) (reason : FixReason) (keeper : Option Dest) : State :=
  let s1 := (s.buildRecord d (s.adoptedRecord d .none dark)).emit .adoptionFixed reason.code (BitVec.ofNat 16 d.val) w
    (match keeper with
      | some h => BitVec.ofNat 32 h.val
      | none => 0#32)
  (s1.markAll none [d]).setAdoption
    (some { a with stage := .fixedWord d (s1.currentWord d), fixed := a.fixed + 1 })

/-- A path word adopted (R150). -/
def State.adoptWord (s : State) (a : Adoption) (d : Dest) (w : Word) : State :=
  match s.fixFor d w with
  | some (reason, keeper) => s.adoptFixed a d w reason keeper
  | none => s.adoptFound a d w ((pathSource d w).getD .none)

/-- The lock that the window takes when adoption ends (R130). -/
def lockAfterAdoption (lockout : Bool) : Lock := if lockout then .held else .opened

/-- The event in which adoption ends (R151): ADOPTION_DONE, the lock, the tick timer, the arbiter, and the end of a
CMD_RESTART's handling. -/
def State.endAdoption (s : State) (a : Adoption) : State :=
  let s1 := s.emit .adoptionDone 0 0#16 (BitVec.ofNat 32 a.adopted) (BitVec.ofNat 32 a.fixed)
  let s2 : State :=
    { s1 with
      cbp := { s1.cbp with lock := lockAfterAdoption s1.pu.lockout }
      re := { s1.re with tickTimer := true, occasionDue := true }
      pu := { s1.pu with adoption := none } }
  let s3 := s2.occasion
  if s3.cbp.head = .restarting then s3.retireHead else s3

/-- The next plan header, or the end (R151). -/
def State.afterHeader (s : State) (a : Adoption) (p : Plan) : State :=
  if h : p.val + 1 < 8 then s.setAdoption (some { a with stage := .header ⟨p.val + 1, h⟩ }) else s.endAdoption a

/-- A plan header read (R151): IDLE and TORN set the condition; any other state is taken as IN_PROGRESS, makes the plan TORN,
is recorded, and is written back in the next grant (log 19). -/
def State.adoptHeader (s : State) (a : Adoption) (p : Plan) (w : Word) : State :=
  if field w 0 2 = 0 then (s.setCondition p .idle).afterHeader a p
  else if field w 0 2 = 2 then (s.setCondition p .torn).afterHeader a p
  else
    ((s.setCondition p .torn).emit .planTorn 0 (BitVec.ofNat 16 p.val) (BitVec.ofNat 32 (field w 4 4)) w).setAdoption
      (some { a with stage := .tornHeader p (tornHeaderWord w) })

/-- The mask word after `m`, or the first path word (R150). -/
def stageAfterMask (m : Fin 12) : AdoptionStage := if h : m.val + 1 < 12 then .mask ⟨m.val + 1, h⟩ else .path 0

/-- What follows a granted access of the adoption; `w` is the word read, if one was. -/
def State.adoptionStep (s : State) (a : Adoption) (w : Word) : State :=
  match a.stage with
  | .drain => s
  | .mask m => (s.setMask m w).setAdoption (some { a with stage := stageAfterMask m })
  | .path d => s.adoptWord a d w
  | .fixedWord d _ => s.setAdoption (some { a with stage := stageAfter d })
  | .header p => s.adoptHeader a p w
  | .tornHeader p _ => s.afterHeader a p

/-- ADOPTION_ACCESS_GRANT (R150, R151): an XCH grant of the adoption under way. -/
def adoptionAccessGrantStep (s : State) : State :=
  match s.pu.adoption with
  | some a => s.grant .xch fun t => t.adoptionStep a (wordOfBytes (s.readBytes s.xchAccess))
  | none => s

/-- ADOPTION_ACCESS_GRANT. -/
def execAdoptionAccessGrant (s : State) : Host.Outcome State Fault Refusal := .next (adoptionAccessGrantStep s)

end Sys2Proof.Machine
end

