-- ==== Sys2Proof/Machine/Grants.lean ====
section
/-! DEFINITION. The grants of CTL and TBL: CTL_WRITE_GRANT, CTL_READ_GRANT, TBL_GRANT (R17, R127, R132, R133). -/

namespace Sys2Proof.Machine

/-- What follows a granted memory write of the head: the rest of its writes, or the end of its handling, or the restart
(R127, R128, R153). -/
def State.headGranted (s : State) : State :=
  match s.cbp.head with
  | .writing (_ :: []) restart => if restart then s.carryOutRestart else s.retireHead
  | .writing (_ :: acc :: rest) restart => s.headWrites (acc :: rest) restart
  | .writing [] _ => s
  | .waiting => s
  | .masking _ _ => s
  | .ringWord => s
  | .restarting => s

/-- CTL_WRITE_GRANT (R127): a CTL grant that carries a memory write of the head. -/
def ctlWriteGrantStep (s : State) : State :=
  if s.ctlSource = some .head then s.grant .ctl State.headGranted else s

/-- CTL_WRITE_GRANT. -/
def execCtlWriteGrant (s : State) : Host.Outcome State Fault Refusal := .next (ctlWriteGrantStep s)

/-- A slot's read has got these bytes: COMPLETE once it has them all (R133). -/
def ReadSlot.receive (r : ReadSlot) (got : List Byte) : ReadSlot :=
  if r.size.bytes ≤ got.length then { r with state := .complete got } else { r with state := .issued got }

/-- What follows a granted read of a delayed-read slot (R133). -/
def State.slotGranted (s : State) (i : ReadSlotNo) (bytes : List Byte) : State :=
  match s.cbp.slots[i] with
  | some r => match r.state with
    | .issued got => s.setReadSlot i (some (r.receive (got ++ bytes)))
    | .latched => s
    | .complete _ => s
  | none => s

/-- What follows a granted read of a directly served read: DATA after the last word (R132). -/
def State.directGranted (s : State) (bytes : List Byte) : State :=
  match s.cbp.held with
  | some (.read a size got) =>
    if size.bytes ≤ (got ++ bytes).length then
      { s with cbp := { s.cbp with held := none, response := .data (got ++ bytes) } }
    else { s with cbp := { s.cbp with held := some (.read a size (got ++ bytes)) } }
  | some (.write _ _ _) => s
  | none => s

/-- CTL_READ_GRANT (R132, R133): a CTL grant that carries a delayed or a direct read. -/
def ctlReadGrantStep (s : State) : State :=
  match s.ctlSource with
  | some (.slot i) => s.grant .ctl fun t => t.slotGranted i (s.readBytes s.ctlAccess)
  | some .direct => s.grant .ctl fun t => t.directGranted (s.readBytes s.ctlAccess)
  | some .head => s
  | none => s

/-- CTL_READ_GRANT. -/
def execCtlReadGrant (s : State) : Host.Outcome State Fault Refusal := .next (ctlReadGrantStep s)

/-- The entry written, the oldest that TBL may write, leaves the table-update list; a deferred tick runs where that empties it
(R17, R66, R152). -/
def State.updateWritten (s : State) : State :=
  let s1 : State := { s with dt := { s.dt with updates := s.dt.updates.eraseP fun e => s.tblMayWrite e.dest } }
  if s1.dt.updates.isEmpty && s1.re.deferred then
    ({ s1 with re := { s1.re with deferred := false } } : State).startTick
  else s1

/-- TBL_GRANT (R17). -/
def tblGrantStep (s : State) : State := s.grant .tbl State.updateWritten

/-- TBL_GRANT. -/
def execTblGrant (s : State) : Host.Outcome State Fault Refusal := .next (tblGrantStep s)

end Sys2Proof.Machine
end

