-- ==== Sys2Proof/Machine/HostBus.lean ====
section
/-! DEFINITION. The host transactions and the delayed reads: HOST_WRITE, HOST_READ, DELAYED_READ_ISSUE,
DISCARD_TIMER_EXPIRY. -/

namespace Sys2Proof.Machine

/-- HOST_WRITE (R124, R126, R130). Before preload ends every transaction is answered RETRY, whatever its byte enables (R124,
R145; log 24). A transaction that begins while another is outstanding is not one the host makes: nothing happens (log 23).
DESIGN CHOICE: 0 or 3 byte enables are answered FAULT (R124) also where the window lock answers RETRY, in ADOPTING and in
HELD (R130; log 42). The lock is judged ahead of the queue's room (log 25). -/
def hostWriteStep (addr : Addr) (enables : BitVec 4) (data : Word) (s : State) : State :=
  if s.pu.power ≠ .running then s.respond .retry
  else if s.cbp.held.isSome then s
  else
    match sizeOfEnables enables with
    | none => s.respond .fault
    | some size =>
      if accessFaults s.pu.params addr size then s.respond .fault
      else if s.lockRefusesWrite addr size then s.respond .retry
      else if s.cbp.queue.length < Config.postedCapacity then (s.post addr size data).respond .done
      else { s with cbp := { s.cbp with held := some (.write addr size data), response := .wait } }

/-- HOST_WRITE. -/
def execHostWrite (addr : Addr) (enables : BitVec 4) (data : Word) (s : State) : Host.Outcome State Fault Refusal :=
  .next (hostWriteStep addr enables data s)

/-- Direct service is possible: every posted write has reached memory, the XE is idle, no read is pending (R131, case 4). -/
def State.directReadPossible (s : State) : Bool :=
  s.cbp.queue.isEmpty && !s.anyTag && s.xe.running.isNone && !s.readPending

/-- A read that no slot holds: served directly, latched, or turned away (R131, cases 4 to 6). -/
def State.newRead (s : State) (a : Addr) (size : Size) : State :=
  if s.directReadPossible then { s with cbp := { s.cbp with held := some (.read a size []), response := .wait } }
  else
    match s.freeReadSlotNo with
    | some i => (s.latchRead i a size).respond .retry
    | none => s.respond .retry

/-- A judged read, in the order of R131's cases. -/
def State.judgeRead (s : State) (a : Addr) (size : Size) : State :=
  if s.lockRefusesRead a then s.respond .retry
  else
    match s.matchingSlot a size with
    | some i =>
      match s.cbp.slots[i] with
      | some r => match r.state with
        | .complete data => (s.freeReadSlot i).respond (.data data)
        | .latched => s.respond .retry
        | .issued _ => s.respond .retry
      | none => s.newRead a size
    | none => s.newRead a size

/-- HOST_READ (R124, R131). Before preload ends every transaction is answered RETRY, whatever its byte enables (log 24), and
one that begins while another is outstanding changes nothing (log 23). DESIGN CHOICE: 0 or 3 byte enables are answered FAULT
(R124) ahead of R131's case 1, the RETRY of a window in ADOPTING (R130; log 42). -/
def hostReadStep (addr : Addr) (enables : BitVec 4) (s : State) : State :=
  if s.pu.power ≠ .running then s.respond .retry
  else if s.cbp.held.isSome then s
  else
    match sizeOfEnables enables with
    | none => s.respond .fault
    | some size => if accessFaults s.pu.params addr size then s.respond .fault else s.judgeRead addr size

/-- HOST_READ. -/
def execHostRead (addr : Addr) (enables : BitVec 4) (s : State) : Host.Outcome State Fault Refusal :=
  .next (hostReadStep addr enables s)

/-- The conditions under which a LATCHED slot issues (R133). -/
def State.mayIssue (s : State) (r : ReadSlot) : Bool :=
  (match r.barrier with
    | some b => !(s.cbp.queue.any fun p => decide (p.tag ≤ b)) && !s.tagAtOrBefore b
    | none => true)
  && s.xe.running.isNone && !s.lockRefusesRead r.addr

/-- DELAYED_READ_ISSUE (R133): a LATCHED slot whose conditions hold becomes ISSUED and requests CTL. -/
def delayedReadIssueStep (i : ReadSlotNo) (s : State) : State :=
  match s.cbp.slots[i] with
  | some r => match r.state with
    | .latched => if s.mayIssue r then s.setReadSlot i (some { r with state := .issued [] }) else s
    | .issued _ => s
    | .complete _ => s
  | none => s

/-- DELAYED_READ_ISSUE. -/
def execDelayedReadIssue (i : ReadSlotNo) (s : State) : Host.Outcome State Fault Refusal :=
  .next (delayedReadIssueStep i s)

/-- DISCARD_TIMER_EXPIRY (R135): a COMPLETE slot is freed and READ_DISCARDED is recorded; the timer of any other slot does
not run. -/
def discardTimerExpiryStep (i : ReadSlotNo) (s : State) : State :=
  match s.cbp.slots[i] with
  | some r => match r.state with
    | .complete _ =>
      (s.freeReadSlot i).emit .readDiscarded 0 (BitVec.ofNat 16 i.val) (BitVec.ofNat 32 r.addr.toNat)
        (BitVec.ofNat 32 r.size.bytes)
    | .latched => s
    | .issued _ => s
  | none => s

/-- DISCARD_TIMER_EXPIRY. -/
def execDiscardTimerExpiry (i : ReadSlotNo) (s : State) : Host.Outcome State Fault Refusal :=
  .next (discardTimerExpiryStep i s)

end Sys2Proof.Machine
end

