-- ==== Sys2Proof/Machine/Reset.lean ====
section
/-! DEFINITION. Reset, preload and the timebase: RESET_ASSERT, RESET_RELEASE, PRELOAD_END, TIMEBASE_TICK (R142, R145 to
R149). -/

namespace Sys2Proof.Machine

/-- The bytes that an access cut off by RESET_N leaves: each old or new, by a free value for each (R145; log 7). -/
def cutBytes (m : List Host.Cell) (a n : Nat) : List Byte → List Host.Cell
  | [] => m
  | b :: rest => cutBytes (if Config.cutByteWritten n then memWrite m a b else m) (a + 1) (n + 1) rest

/-- The access that the arbiter grants next (log 7). -/
def State.accessNext (s : State) : Option Access :=
  match s.nextGrant with
  | some r => s.access r
  | none => none

/-- A write access cut off; every other byte keeps its contents (R145). -/
def State.cutOff (s : State) : Option Access → State
  | some (.write a bytes) =>
    { s with mem := cutBytes s.mem a s.freeCount bytes, freeCount := s.freeCount + bytes.length }
  | some (.read _ _) => s
  | none => s

/-- Every block as a hard reset leaves it; the SRAM, the levels of the LOS lines, the timebase (which the release sets; log
29), the queue of commands and the free values' counter stand. A host transaction held with WAIT is answered RETRY
(R145). -/
def State.hardReset (s : State) : State :=
  { State.reset with
    pending := s.pending
    mem := s.mem
    los := s.los
    freeCount := s.freeCount
    ew := { State.reset.ew with timebase := s.ew.timebase }
    cbp := { State.reset.cbp with response := if s.cbp.held.isSome then .retry else .idle } }

/-- RESET_ASSERT (R145). -/
def resetAssertStep (accessUnderWay : Bool) (s : State) : State :=
  (if accessUnderWay then s.cutOff s.accessNext else s).hardReset

/-- RESET_ASSERT. -/
def execResetAssert (accessUnderWay : Bool) (s : State) : Host.Outcome State Fault Refusal :=
  .next (resetAssertStep accessUnderWay s)

/-- The bytes that the PU shifts out to read the serial ROM: the command 0x03 and two address bytes of 0 (R146). -/
def romReadBytes : List Byte := [0x03#8, 0x00#8, 0x00#8]

/-- RESET_RELEASE (R145, R146): the straps are sampled, the timebase starts from 0, and preload begins; with ROMEN high the
serial ROM is selected and read (log 27), and with ROMEN low SRCS_N stays high (log 41). -/
def resetReleaseStep (winsel : BitVec 2) (lockout romen : Bool) (s : State) : State :=
  if s.pu.power = .resetAsserted then
    { s with
      ew := { s.ew with timebase := 0#32 }
      pu := { s.pu with
        power := .preload, winsel := winsel, lockout := lockout, romen := romen
        srcsN := !romen, romSent := if romen then romReadBytes else [] } }
  else s

/-- RESET_RELEASE. -/
def execResetRelease (winsel : BitVec 2) (lockout romen : Bool) (s : State) : Host.Outcome State Fault Refusal :=
  .next (resetReleaseStep winsel lockout romen s)

/-- The parameters and settings take effect, with the preload outcome (R149). -/
def State.setParams (s : State) (outcome : PreloadOutcome) (p : Params) : State :=
  { s with
    pu := { s.pu with power := .running, params := p, outcome := outcome, srcsN := true }
    tmp := initialPointers p.groups }

/-- The LM looks at its lines and begins to watch them: a line that is active sets its way's latch, in either mode, and the
check interval timer starts (R94, R95). -/
def State.beginWatching (s : State) : State :=
  { s with lm := { s.lm with
      watching := true, checkTimer := true
      ways := Vector.ofFn fun w : Way => { s.lm.ways[w] with latch := s.lm.ways[w].latch || s.losActive w } } }

/-- BOOT_DEFAULTS, where the defaults are used: the outcome as reason, the window base used, the signature and sum found
(R147; log 28). -/
def State.emitBoot (s : State) (outcome : PreloadOutcome) (image : List Byte) : State :=
  if outcome = .romUsed then s
  else
    s.emit .bootDefaults outcome.code 0#16 (BitVec.ofNat 32 s.pu.params.windowBase.toNat) (bootDetail outcome image)

/-- The first adoption begins with mask word 0 (R149, R150). -/
def State.beginAdoption (s : State) : State :=
  { s with pu := { s.pu with adoption := some { stage := .mask 0, adopted := 0, fixed := 0 } } }

/-- The EW requests the ring word (R139). -/
def State.requestRingWord (s : State) : State := { s with ew := { s.ew with ringWordDue := true } }

/-- PRELOAD_END (R149). -/
def preloadEndStep (image : List Byte) (s : State) : State :=
  if s.pu.power = .preload then
    let outcome := judgeImage s.pu.romen image
    let s1 := s.setParams outcome (preloadParams outcome s.pu.winsel image)
    (s1.requestRingWord.beginWatching.emitBoot outcome image).beginAdoption
  else s

/-- PRELOAD_END. -/
def execPreloadEnd (image : List Byte) (s : State) : Host.Outcome State Fault Refusal := .next (preloadEndStep image s)

/-- TIMEBASE_TICK (R142): the timebase counts from the release of RESET_N on, and wraps. -/
def timebaseTickStep (s : State) : State :=
  if s.pu.power = .resetAsserted then s
  else { s with ew := { s.ew with timebase := s.ew.timebase + 1#32 } }

/-- TIMEBASE_TICK. -/
def execTimebaseTick (s : State) : Host.Outcome State Fault Refusal := .next (timebaseTickStep s)

end Sys2Proof.Machine
end

