-- ==== Sys2Proof/Machine/Dispatch.lean ====
section
/-! DEFINITION. exec: one arm for each command. -/

namespace Sys2Proof.Machine

/-- The effect of a command on everything but the queue of commands. -/
def exec (i : Instr) (s : State) : Host.Outcome State Fault Refusal :=
  match i with
  | .resetAssert u => Sys2Proof.Machine.execResetAssert u s
  | .resetRelease winsel lockout romen => Sys2Proof.Machine.execResetRelease winsel lockout romen s
  | .preloadEnd image => Sys2Proof.Machine.execPreloadEnd image s
  | .timebaseTick => Sys2Proof.Machine.execTimebaseTick s
  | .hostWrite addr enables data => Sys2Proof.Machine.execHostWrite addr enables data s
  | .hostRead addr enables => Sys2Proof.Machine.execHostRead addr enables s
  | .delayedReadIssue slot => Sys2Proof.Machine.execDelayedReadIssue slot s
  | .discardTimerExpiry slot => Sys2Proof.Machine.execDiscardTimerExpiry slot s
  | .pathWrite => Sys2Proof.Machine.execPathWrite s
  | .maskViewWrite => Sys2Proof.Machine.execMaskViewWrite s
  | .writeThrough => Sys2Proof.Machine.execWriteThrough s
  | .planHeaderWrite => Sys2Proof.Machine.execPlanHeaderWrite s
  | .statusZoneWrite => Sys2Proof.Machine.execStatusZoneWrite s
  | .narrowCommandWrite => Sys2Proof.Machine.execNarrowCommandWrite s
  | .cmdUnlock => Sys2Proof.Machine.execCmdUnlock s
  | .cmdAbortSet => Sys2Proof.Machine.execCmdAbortSet s
  | .cmdExchange => Sys2Proof.Machine.execCmdExchange s
  | .cmdRelease => Sys2Proof.Machine.execCmdRelease s
  | .cmdRingTail => Sys2Proof.Machine.execCmdRingTail s
  | .cmdRestart => Sys2Proof.Machine.execCmdRestart s
  | .ctlWriteGrant => Sys2Proof.Machine.execCtlWriteGrant s
  | .ctlReadGrant => Sys2Proof.Machine.execCtlReadGrant s
  | .tblGrant => Sys2Proof.Machine.execTblGrant s
  | .rampTickExpiry => Sys2Proof.Machine.execRampTickExpiry s
  | .wayPass w => Sys2Proof.Machine.execWayPass w s
  | .arbiterOccasion => Sys2Proof.Machine.execArbiterOccasion s
  | .checkIntervalExpiry => Sys2Proof.Machine.execCheckIntervalExpiry s
  | .losChange w level => Sys2Proof.Machine.execLosChange w level s
  | .wayEvaluation w => Sys2Proof.Machine.execWayEvaluation w s
  | .exchangeStart => Sys2Proof.Machine.execExchangeStart s
  | .exchangeAccessGrant => Sys2Proof.Machine.execExchangeAccessGrant s
  | .exchangeSwap => Sys2Proof.Machine.execExchangeSwap s
  | .adoptionStart => Sys2Proof.Machine.execAdoptionStart s
  | .adoptionAccessGrant => Sys2Proof.Machine.execAdoptionAccessGrant s
  | .eventRecordGrant => Sys2Proof.Machine.execEventRecordGrant s
  | .ringWordGrant => Sys2Proof.Machine.execRingWordGrant s
  | .statusZoneGrant => Sys2Proof.Machine.execStatusZoneGrant s

end Sys2Proof.Machine
end

