-- ==== Sys2Proof/Safety.lean ====
section
/-! DEFINITION. What a safe run keeps: the laws of the part that hold after every step, the relations between two states in
which frames are said, the table-update list after a marking, and phase evaluation as R72 states it. -/

namespace Sys2Proof.Machine

/-! ### Frames -/

/-- The bytes from `a` upward read as `bytes`. -/
def holdsBytes (m : List Host.Cell) (a : Nat) (bytes : List Byte) : Prop :=
  ∀ (i : Nat) (h : i < bytes.length), memRead m (a + i) = bytes[i]

/-- Every byte outside the `n` bytes from `a` upward reads in `m'` as in `m`. -/
def keepsOutside (m m' : List Host.Cell) (a n : Nat) : Prop :=
  ∀ x, x < a ∨ a + n ≤ x → memRead m' x = memRead m x

/-- Everything but the destination table, the ramp engine, the change sets and the event writer is as it was. -/
structure State.keepsOutsideTable (s t : State) : Prop where
  pending : t.pending = s.pending
  cbp : t.cbp = s.cbp
  masks : t.masks = s.masks
  lm : t.lm = s.lm
  xe : t.xe = s.xe
  tmp : t.tmp = s.tmp
  pu : t.pu = s.pu
  los : t.los = s.los
  mem : t.mem = s.mem
  freeCount : t.freeCount = s.freeCount

/-- Of the ramp engine only the slots, the ramp list, the way loads and the occasion noted as due may have changed: the tick
timer, the deferred tick and the passes owed stand. -/
def State.keepsTicks (s t : State) : Prop :=
  t.re = { s.re with slots := t.re.slots, list := t.re.list, loads := t.re.loads, occasionDue := t.re.occasionDue }

/-- The table-update list after one request has marked `ds`: an entry listed before keeps its place, and its tag unless the
marking carries one, which replaces it; the others join the end in the order of `ds`, with the marking's tag (R16, R18). -/
def markedUpdates (l : List UpdateEntry) (tag : Option Nat) (ds : List Dest) : List UpdateEntry :=
  (l.map fun e => if ds.contains e.dest && tag.isSome then { e with tag := tag } else e) ++
    (ds.filter fun d => !(l.map UpdateEntry.dest).contains d).map fun d => { dest := d, tag := tag }

/-- One request has marked exactly the destinations meant: those not listed before join the list's end in ascending index
(R16, R18). Of a tagged marking it is said for a list that names no destination twice. -/
def State.marksUpdates (s t : State) (tag : Option Nat) (hit : Dest → Bool) : Prop :=
  (tag = none ∨ (s.dt.updates.map UpdateEntry.dest).Nodup) →
    t.dt.updates = markedUpdates s.dt.updates tag (allDests.filter hit)

/-- The event writer has taken records at most: its queue has grown at its end, or its dropped count has. -/
structure State.onlyRaises (s t : State) : Prop where
  writer : t.ew = { s.ew with queue := t.ew.queue, dropped := t.ew.dropped }
  queue : s.ew.queue <+: t.ew.queue
  dropped : s.ew.dropped ≤ t.ew.dropped

/-- The first record that an event raises, if the event queue had a place (R138). -/
def State.raisesFirst (s t : State) (kind : RecordKind) (reason : Nat) (subject : BitVec 16) (a b : Word) : Prop :=
  s.ew.queue.length < Config.eventCapacity →
    s.ew.queue ++ [{ kind := kind, reason := BitVec.ofNat 8 reason, subject := subject, detailA := a, detailB := b
                     stamp := s.ew.timebase }] <+: t.ew.queue

/-- The evaluation of a way has been taken: one owed by an expiry, or, where none was owed, the next expiry's ahead of it
(R95; log 9). Of the LM nothing but this and the ways' records has changed. -/
def State.takesEvaluation (s t : State) (w : Way) : Prop :=
  t.lm = { s.lm with
    ways := t.lm.ways
    evalsDue := s.lm.evalsDue.set w (s.lm.evalsDue[w] - 1)
    evalAhead := if 0 < s.lm.evalsDue[w] then s.lm.evalAhead else s.lm.evalAhead.set w true }

/-- The slots that serve a set and whose destination is among those meant. -/
def State.servedFor (s : State) (id : Nat) (hit : Dest → Bool) : Nat :=
  ((List.finRange 16).filter fun n => match s.re.slots[n] with
    | some sl => sl.serves == some id && hit sl.dest
    | none => false).length

/-- Slots have stopped serving their sets, those of the destinations `cut` before their goals and those of the destinations
`ended` at rest: each listed set counts both off its remaining count and the cut ones onto its interrupted count, and leaves
the list with SET_SETTLED where none is left (R43, R44, R45). -/
def State.countsOff (s t : State) (cut ended : Dest → Bool) : Prop :=
  ∀ e ∈ s.csa.settling,
    let k := s.servedFor e.id cut
    let n := k + s.servedFor e.id ended
    (n < e.remaining →
      { e with remaining := e.remaining - n, interrupted := e.interrupted + k } ∈ t.csa.settling) ∧
    (n = e.remaining → e.id ∉ t.csa.settling.map SettlingSet.id ∧
      (s.ew.queue.length + 1 + s.csa.settling.length ≤ Config.eventCapacity →
        ({ kind := .setSettled, reason := 0#8, subject := BitVec.ofNat 16 e.label.toNat
           detailA := BitVec.ofNat 32 e.entries, detailB := BitVec.ofNat 32 (e.interrupted + k)
           stamp := s.ew.timebase } : EventRecord) ∈ t.ew.queue))

/-- The slots of the destinations meant have stopped serving their sets before their goals, and no other has (R44, R45). -/
def State.interruptsSets (s t : State) (hit : Dest → Bool) : Prop := s.countsOff t hit fun _ => false

/-! ### Phase evaluation, occasions of the arbiter and the settling of entries (R39, R72, R75) -/

/-- Step 3 of phase evaluation, with the source equal to the intent: what becomes of a destination's record and of its slot,
which is freed where the record stands at the effective target and otherwise goes toward it (R72, R73). -/
def DestRecord.towardTarget (d : Dest) (r : DestRecord) (sl : RampSlot) : DestRecord × Option RampSlot :=
  let target := effectiveTarget d r
  if r.curAttn = target then ({ r with slot := none }, none)
  else if r.curAttn.toNat < target.toNat then (r, some { sl with goal := target, phase := .dimming })
  else (r, some { sl with goal := target, phase := .brightening })

/-- What phase evaluation makes of a destination's record and of its slot, `held` where another destination holds the intent
source's port: away from the old source to dark, then the switch or PORT_WAIT, then the target (R52, R53, R54, R72). -/
def DestRecord.phased (d : Dest) (r : DestRecord) (sl : RampSlot) (held : Bool) : DestRecord × Option RampSlot :=
  if r.curSrc = r.intentSrc then r.towardTarget d sl
  else if r.curAttn ≠ dark then (r, some { sl with goal := dark, phase := .dimming })
  else if held then ({ r with curSrc := .none }, some { sl with goal := dark, phase := .portWait })
  else { r with curSrc := r.intentSrc }.towardTarget d sl

/-- An occasion of the arbiter is due exactly where one was, or where a ramp slot was freed or a wanted flag raised (R75,
occasions 2 and 3). -/
def State.occasionFollows (s t : State) : Prop :=
  t.re.occasionDue = true ↔ s.re.occasionDue = true ∨ (∃ n : SlotNo, s.re.slots[n] ≠ none ∧ t.re.slots[n] = none) ∨
    ∃ d, (s.record d).wanted = false ∧ (t.record d).wanted = true

/-- Slot `n` with content `sl` and the record `r` of its destination have been phase-evaluated, no other slot has changed, and
the ramp list is `list`, less the slot where it was freed (R70, R71, R72). -/
def State.evaluates (s t : State) (n : SlotNo) (sl : RampSlot) (r : DestRecord) (list : List SlotNo) : Prop :=
  (t.record sl.dest, t.re.slots[n]) = r.phased sl.dest sl (s.otherHolder sl.dest r.intentSrc).isSome ∧
    (∀ k : SlotNo, k ≠ n → t.re.slots[k] = s.re.slots[k]) ∧
    t.re.list = if t.re.slots[n] = none then list.erase n else list

/-- One entry of the applied set `id` settled, its intent and forced flag written: a drop at its effective target, and a line
entry forced, retargeted to the end of the ramp list, at rest, or moving in the lowest-numbered free slot at its end (R39,
R40, R77). -/
def State.settlesEntry (s t : State) (id : Nat) (e : SetEntry) : Prop :=
  let d := e.dest
  let r := s.record d
  (∀ c, c ≠ d → t.record c = s.record c) ∧
  (isLine d = false →
    t.record d = { r with curSrc := r.intentSrc, curAttn := effectiveTarget d r } ∧ t.re = s.re) ∧
  (isLine d = true → r.forced = true →
    t.record d = { r with curSrc := r.intentSrc, curAttn := dark, wanted := false, slot := none } ∧
    (∀ k : SlotNo, t.re.slots[k] = if r.slot = some k then none else s.re.slots[k]) ∧
    t.re.list = match r.slot with
      | some n => s.re.list.erase n
      | none => s.re.list) ∧
  (isLine d = true → r.forced = false →
    (∀ n sl, r.slot = some n → s.re.slots[n] = some sl →
      s.evaluates t n { sl with serves := some id } r (s.re.list.erase n ++ [n])) ∧
    (r.slot = none → atRest d r = true → t.record d = { r with wanted := false } ∧ t.re = s.re) ∧
    (r.slot = none → atRest d r = false →
      ∃ n : SlotNo, s.re.slots[n] = none ∧ (∀ k < n, s.re.slots[k] ≠ none) ∧
        s.evaluates t n { dest := d, phase := .dimming, goal := dark, serves := some id }
          { r with slot := some n, wanted := false } (s.re.list ++ [n])))

/-- One wanted destination has had its turn of admission: with no slot free nothing changes, and otherwise it loses its flag
and takes the lowest-numbered free slot, at the end of the ramp list and serving no set, which is phase-evaluated (R71, R72,
R79). -/
def State.admitsWanted (s t : State) (d : Dest) : Prop :=
  let r := s.record d
  (∀ c, c ≠ d → t.record c = s.record c) ∧
  ((∀ n : SlotNo, s.re.slots[n] ≠ none) → t.record d = r ∧ t.re = s.re) ∧
  ∀ n : SlotNo, s.re.slots[n] = none → (∀ k < n, s.re.slots[k] ≠ none) →
    s.evaluates t n { dest := d, phase := .dimming, goal := dark, serves := none }
      { r with slot := some n, wanted := false } (s.re.list ++ [n])

/-! ### Before preload ends (R124, R145) -/

/-- The part as a hard reset leaves it, but for what can change before preload ends: the memory, the LOS lines, the timebase,
the response driven, the straps' samples and the ROM lines. -/
def State.dormant (s : State) : State :=
  { State.reset with
    pending := s.pending
    los := s.los
    mem := s.mem
    freeCount := s.freeCount
    ew := { State.reset.ew with timebase := s.ew.timebase }
    cbp := { State.reset.cbp with response := s.cbp.response }
    pu := { State.reset.pu with
      power := s.pu.power, winsel := s.pu.winsel, lockout := s.pu.lockout, romen := s.pu.romen
      srcsN := s.pu.srcsN, romSent := s.pu.romSent } }

/-- Until preload ends the part stands as a hard reset leaves it. -/
def State.preloadLaw (s : State) : Prop := s.pu.power ≠ .running → s = s.dormant

/-! ### The way loads (R63) -/

/-- The line destination of a way and grid slot (R1). -/
def lineDest (w : Way) (n : GridSlot) : Dest := ⟨96 * w.val + n.val, by omega⟩

/-- The sum of the contributions of a way's 96 line destinations. -/
def State.carriedLoad (s : State) (w : Way) : Nat :=
  ((List.finRange 96).map fun n => contribution (s.record (lineDest w n))).sum

/-- Each way's load is the sum of its destinations' contributions (R63). -/
def State.loadLaw (s : State) : Prop := ∀ w : Way, s.re.loads[w] = s.carriedLoad w

/-! ### The ring and the interrupt (section 9.3, R139 to R141) -/

/-- Head and tail are positions of the ring, a record in hand has its place in it, EVT_N is asserted exactly while head
differs from tail, and the event queue and the dropped count stay in their bounds (R138). -/
structure State.ringLaw (s : State) : Prop where
  length : 16 ≤ s.pu.params.ringLength
  head : s.ew.head < s.pu.params.ringLength
  tail : s.ew.tail < s.pu.params.ringLength
  room : s.ew.stage ≠ 0 → (s.ew.head + 1) % s.pu.params.ringLength ≠ s.ew.tail
  interrupt : s.ew.evtAsserted = decide (s.ew.head ≠ s.ew.tail)
  queue : s.ew.queue.length ≤ 8
  dropped : s.ew.dropped ≤ 65535

/-! ### The ways (R7, R96, R97, R100, R101) -/

/-- The fault counter and the recovery count that a way's state allows (R96, R97, R100, R101). -/
def WayRecord.inRange (r : WayRecord) : Prop :=
  match r.state with
  | .clear => r.counter < 40 ∧ r.recovery = 0
  | .warning => 40 ≤ r.counter ∧ r.counter < 100 ∧ r.recovery = 0
  | .degraded => 100 ≤ r.counter ∧ r.counter < 200 ∧ r.recovery = 0
  | .isolated => r.counter = 200 ∧ r.recovery < 150
  | .awaitRelease => r.counter = 200 ∧ r.recovery = 150

/-- The state holds the paths fed from the way dark (R96). -/
def WayState.holdsDark : WayState → Bool
  | .clear => false
  | .warning => false
  | .degraded => false
  | .isolated => true
  | .awaitRelease => true

/-- Every way's counts lie in the range of its state, and the DT's isolated indication follows the state (R7, R96). -/
def State.wayLaw (s : State) : Prop :=
  ∀ w : Way, s.lm.ways[w].inRange ∧ s.dt.isolated[w] = s.lm.ways[w].state.holdsDark

/-! ### Reads behind writes (R120, R132, R133) -/

/-- No write at or before `b` waits in the posted write queue, and no entry of the table-update list carries a host tag at or
before `b` (R133). -/
def State.settledTo (s : State) (b : Nat) : Prop :=
  (∀ p ∈ s.cbp.queue, b < p.tag) ∧ ∀ e ∈ s.dt.updates, ∀ x, e.tag = some x → b < x

/-- The posted write queue keeps its bound (R126). A read that has been issued or holds its data stands behind no write:
everything posted before it has been handled; and no read is under way while an exchange runs. -/
structure State.readLaw (s : State) : Prop where
  posted : s.cbp.queue.length ≤ 8
  tags : ∀ p ∈ s.cbp.queue, p.tag < s.cbp.postedCount
  barriers : ∀ (i : ReadSlotNo) (r : ReadSlot), s.cbp.slots[i] = some r → ∀ b, r.barrier = some b → b < s.cbp.postedCount
  slots : ∀ (i : ReadSlotNo) (r : ReadSlot), s.cbp.slots[i] = some r → r.state ≠ .latched →
    ∀ b, r.barrier = some b → s.settledTo b
  issued : ∀ (i : ReadSlotNo) (r : ReadSlot) (got : List Byte), s.cbp.slots[i] = some r → r.state = .issued got →
    s.xe.running = none
  direct : ∀ (a : Addr) (size : Size) (got : List Byte), s.cbp.held = some (.read a size got) →
    s.cbp.queue = [] ∧ s.anyTag = false ∧ s.xe.running = none

/-! ### The exchange request list (R110) -/

/-- The exchange request list holds at most five requests and no plan twice, its fault requests name their ways' plans, and
its controller request, if any, stands last. -/
structure State.exchangeLaw (s : State) : Prop where
  plans : (s.xe.list.map ExchangeRequest.plan).Nodup
  faults : ∀ r ∈ s.xe.list, ∀ w, r.origin = .fault w → s.pu.params.plan[w] = some r.plan
  controllerLast : ∀ before r after, s.xe.list = before ++ r :: after → r.origin = .controller → after = []
  bound : s.xe.list.length ≤ 5

/-! ### The table laws (R7, R12, R21, R48, R72) -/

/-- A source that a destination may have: no u-turn, and each kind its own sources (R2, R21). -/
def legalSource (d : Dest) : Source → Prop
  | .none => True
  | .express k => isLine d = true ∧ k ≠ wayOf d
  | .port _ => isLine d = true
  | .drop _ _ => isLine d = false

/-- The add port that an entry of a set names. -/
def SetEntry.port (e : SetEntry) : Option Port :=
  match e.src with
  | .port p => some p
  | .none => none
  | .express _ => none
  | .drop _ _ => none

/-- A queued set names no destination twice and no add port twice, and its sources are legal (R29). -/
def QueuedSet.legal (q : QueuedSet) : Prop :=
  (entryDests q.entries).Nodup ∧ (q.entries.filterMap SetEntry.port).Nodup ∧
    ∀ e ∈ q.entries, legalSource e.dest e.src

/-- The add-port map stands: no restart waits to rebuild it (R48). -/
def State.mapStands (s : State) : Prop := ∀ a, s.pu.adoption = some a → a.stage ≠ .drain

/-- The blocked or the forced flag is set. -/
def DestRecord.flagged (r : DestRecord) : Prop := r.blocked = true ∨ r.forced = true

/-- The goal and phase that a slot's destination gives it: a DIMMING slot has its goal above its current attenuation, a
BRIGHTENING one below it (R72); and the set that it serves is listed (R70). -/
structure State.slotLaw (s : State) (n : SlotNo) (sl : RampSlot) : Prop where
  line : isLine sl.dest = true
  names : (s.record sl.dest).slot = some n
  dims : sl.phase = .dimming → (s.record sl.dest).curAttn.toNat < sl.goal.toNat
  brightens : sl.phase = .brightening → sl.goal.toNat < (s.record sl.dest).curAttn.toNat
  serves : ∀ id, sl.serves = some id → id ∈ s.csa.settling.map SettlingSet.id
  waiting : sl.phase = .portWait →
    (s.record sl.dest).curSrc = .none ∧ (s.record sl.dest).intentSrc ≠ .none
  toTarget : (s.record sl.dest).curSrc = (s.record sl.dest).intentSrc →
    sl.goal = effectiveTarget sl.dest (s.record sl.dest)
  toDark : (s.record sl.dest).curSrc ≠ (s.record sl.dest).intentSrc → sl.goal = dark

/-- The table laws of R21, with what keeps them; the bounds of the open set and the set queue (R23, R34), a destination's
queued marks as the count of the queued sets that name it (R10), and a listed set's remaining count as the number of the
slots that serve it (R42). A record that an adoption under way has built has its current source as its intent source (R150,
R152). -/
structure State.tableLaw (s : State) : Prop where
  openDests : (s.csa.openSet.map OpenEntry.dest).Nodup
  openBound : s.csa.openSet.length ≤ 4
  sets : ∀ q ∈ s.csa.queue, q.legal
  setBound : s.csa.queue.length ≤ 4
  marks : ∀ d, (s.record d).queued = (s.csa.queue.flatMap fun q => entryDests q.entries).count d
  settling : ∀ e ∈ s.csa.settling, e.id < s.csa.nextSet ∧ 0 < e.remaining ∧ e.remaining = s.servingCount e.id
  settlingIds : (s.csa.settling.map SettlingSet.id).Nodup
  exclusive : s.xe.running ≠ none → s.pu.adoption = none ∧ ∀ todo, s.cbp.head ≠ .writing todo true
  masking : ∀ m todo, s.cbp.head = .masking m todo → s.pu.adoption = none
  swapWord : ∀ x d src, s.xe.running = some x → x.stage = .swap → destOfNat (keyDest x.keyWord) = some d →
    pathSource d x.pathWord = some src → isUturn d src = false
  intents : ∀ d, legalSource d (s.record d).intentSrc
  currents : ∀ d, legalSource d (s.record d).curSrc
  darkNone : ∀ d, (s.record d).curSrc = .none → (s.record d).curAttn = dark
  claimants : s.mapStands → ∀ (p : Port) (d : Dest), s.dt.ports[p].claimant = some d ↔
    s.isBuilt d = true ∧ (s.record d).intentSrc = .port p
  holders : s.mapStands → ∀ (p : Port) (d : Dest), s.dt.ports[p].holder = some d ↔
    s.isBuilt d = true ∧ (s.record d).curSrc = .port p
  drops : ∀ d, isLine d = false →
    (s.record d).blocked = false ∧ (s.record d).wanted = false ∧ (s.record d).slot = none
  slots : ∀ (n : SlotNo) (sl : RampSlot), s.re.slots[n] = some sl → s.slotLaw n sl
  slotNames : ∀ d n, (s.record d).slot = some n → ∃ sl, s.re.slots[n] = some sl ∧ sl.dest = d
  list : s.re.list.Nodup ∧ ∀ n : SlotNo, n ∈ s.re.list ↔ s.re.slots[n].isSome = true
  adopting : s.pu.adoption ≠ none → s.csa.queue = [] ∧ ∀ n : SlotNo, s.re.slots[n] = none
  rebuilt : s.pu.adoption ≠ none → ∀ d, s.isBuilt d = true → (s.record d).curSrc = (s.record d).intentSrc
  wanted : ∀ d, (s.record d).wanted = true → (s.record d).slot = none ∧ (s.record d).forced = false
  unbuilt : ∀ d, s.isBuilt d = false → (s.record d).wanted = false
  forcedFlag : ∀ d, (s.record d).forced = s.forcedFor (s.record d).intentSrc
  forcedRest : ∀ d, (s.record d).forced = true → (s.record d).slot = none ∧
    (s.isBuilt d = true → (s.record d).curSrc = (s.record d).intentSrc ∧ (s.record d).curAttn = dark)

/-! ### The path image (R16) -/

/-- The access leaves the path image alone. -/
def Access.sparesImage (p : Params) : Access → Prop
  | .read _ _ => True
  | .write a bytes => a + bytes.length ≤ windowAddr p 0 ∨ windowAddr p 0x6C0 ≤ a

/-- The zone and the extent of a write are as its address and the window base give them, and it was not answered FAULT. -/
def PostedWrite.judged (p : Params) (h : PostedWrite) : Prop :=
  h.zone = zoneOf p h.addr ∧ accessFaults p h.addr h.size = false

/-- The number of mask words that adoption has read. -/
def Adoption.masksRead (a : Adoption) : Nat :=
  match a.stage with
  | .drain => 0
  | .mask m => m.val
  | .path _ => 12
  | .fixedWord _ _ => 12
  | .header _ => 12
  | .tornHeader _ _ => 12

/-- The access leaves the mask words at the direct view alone. -/
def Access.sparesMasks (p : Params) : Access → Prop
  | .read _ _ => True
  | .write a bytes => a + bytes.length ≤ windowAddr p 0x700 ∨ windowAddr p 0x730 ≤ a

/-- The memory write of a whole mask word that the MU holds, outside any adoption (R87, step 4). -/
def State.isMaskWrite (s : State) (acc : Access) : Prop :=
  s.pu.adoption = none ∧ ∃ (m : Fin 12) (w : Word), s.masks[m] = some w ∧ acc = s.wordWrite (0x700 + 4 * m.val) w

/-- A mask write of word `m` has changed the MU's word and its memory write is still to be made (R88). -/
def State.maskInHand (s : State) (m : Fin 12) : Prop :=
  (∃ todo, s.cbp.head = .masking m todo) ∨
    ∃ todo w, s.cbp.head = .writing todo false ∧ s.masks[m] = some w ∧ s.wordWrite (0x700 + 4 * m.val) w ∈ todo

/-- A destination's blocked-flag request is still to be sent (R87, step 3). -/
def State.blockDue (s : State) (d : Dest) : Prop :=
  ∃ m b todo, s.cbp.head = .masking m todo ∧ b ∈ todo ∧ maskDest m b = d

/-- The mask words and the blocked flags (R6, R83, R88): outside adoption every mask word and every record is present, and
during one those that it has read; a line destination's blocked flag is its mask bit unless its request is still to be sent;
and each mask word in memory is the MU's unless a mask write of it is in hand. -/
structure State.maskLaw (s : State) : Prop where
  present : s.pu.power = .running → s.pu.adoption = none →
    (∀ m : Fin 12, s.masks[m].isSome = true) ∧ ∀ d : Dest, s.dt.records[d].isSome = true
  rebuilt : ∀ a, s.pu.adoption = some a →
    (∀ m : Fin 12, m.val < a.masksRead → s.masks[m].isSome = true) ∧
      ∀ d : Dest, d.val < a.built → s.dt.records[d].isSome = true
  flags : ∀ d : Dest, s.dt.records[d].isSome = true → isLine d = true →
    s.masks[maskWordOf d].isSome = true ∧ (¬ s.blockDue d → (s.record d).blocked = s.maskBit d)
  words : ∀ (m : Fin 12) (w : Word), s.masks[m] = some w → ¬ s.maskInHand m → s.loadWord (0x700 + 4 * m.val) = w
  masking : ∀ m todo, s.cbp.head = .masking m todo → s.masks[m].isSome = true

/-- Every destination not on the table-update list has, in table memory, the current word of its record (R16), with what
keeps it: the list names no destination twice, the accesses of the queue's head spare the path image and, but for a mask word
of the MU's, the mask words, the queue is not empty while its head is in handling (R127), only a command
waits for the ring word (R141), and a fixed word still to be written is its destination's. The mask words in memory follow
the MU in the same way (R88). -/
structure State.imageLaw (s : State) : Prop where
  image : ∀ d : Dest, s.dt.records[d].isSome = true → d ∉ s.dt.updates.map UpdateEntry.dest →
    s.loadWord (pathOffset d) = s.currentWord d
  listed : (s.dt.updates.map UpdateEntry.dest).Nodup
  queue : ∀ h ∈ s.cbp.queue, h.judged s.pu.params
  held : ∀ a size data, s.cbp.held = some (.write a size data) → accessFaults s.pu.params a size = false
  head : ∀ todo restart, s.cbp.head = .writing todo restart → ∀ acc ∈ todo,
    acc.sparesImage s.pu.params ∧ (acc.sparesMasks s.pu.params ∨ s.isMaskWrite acc)
  taken : s.cbp.head ≠ .waiting → s.cbp.queue ≠ []
  ringWord : s.cbp.head = .ringWord → ∀ h rest, s.cbp.queue = h :: rest → h.zone = .command
  fixed : ∀ a d w, s.pu.adoption = some a → a.stage = .fixedWord d w →
    (s.record d).intentSrc = .none ∧ w = s.currentWord d
  mask : s.maskLaw

end Sys2Proof.Machine
end

