-- ==== Sys2Proof/Certificates/Slice0/Obligations.lean ====
section
/-! DEFINITION. The statements for the provers. Wherever a statement gives the next state as an update of the state before
it, every field that the update does not name is unchanged. -/

open Sys2Proof Sys2Proof.Machine

/-! ### The step -/

/-- A step runs the command at the front of the queue on the state with the queue's rest; with no command waiting the part
idles (the model's choice, log 4). -/
def Obligations.StepRunsFrontCommand : Prop :=
  (∀ (c : Instr) (rest : List Instr) (s : State), s.pending = c :: rest → step s = exec c { s with pending := rest }) ∧
    ∀ s : State, s.pending = [] → step s = .next s

/-- Every command goes on to a next state, in every state, and leaves the queue of commands alone: the part has no machine
fault, and FAULT is a host response (R124). A command whose event the part would not make in the state it meets changes
nothing (the model's choice, log 5). -/
def Obligations.EveryCommandGoesOn : Prop :=
  ∀ (c : Instr) (s : State), ∃ t, exec c s = .next t ∧ t.pending = s.pending

/-! ### Reset, preload and the timebase -/

/-- RESET_ASSERT leaves every block cleared as the table of section 10.1 gives it, no requester presents an access, and
what the table does not name stands as at reset but for the memory, the LOS lines, the timebase, the response and the
free values' counter. The settings and the preload outcome, to which section 10.1 gives no value, stand at those of
State.reset, and with no transaction held the response is code 0 (the model's choices, logs 2 and 30). -/
def Obligations.HardResetClears : Prop :=
  ∀ (u : Bool) (s : State), ∃ t, exec (.resetAssert u) s = .next t ∧
    t.cbp =
      { queue := [], head := .waiting, postedCount := 0, slots := Vector.replicate 2 none, latchOrder := [], held := none
        lock := .adopting, response := if s.cbp.held.isSome then .retry else .idle } ∧
    (t.csa.openSet = [] ∧ t.csa.queue = [] ∧ t.csa.settling = []) ∧
    ((∀ d : Dest, t.dt.records[d] = none) ∧ (∀ p : Port, t.dt.ports[p] = { holder := none, claimant := none }) ∧
      t.dt.updates = [] ∧ ∀ w : Way, t.dt.isolated[w] = false) ∧
    ((∀ n : SlotNo, t.re.slots[n] = none) ∧ t.re.list = [] ∧ (∀ w : Way, t.re.loads[w] = 0) ∧ t.re.deferred = false ∧
      t.re.tickTimer = false) ∧
    (∀ m : Fin 12, t.masks[m] = none) ∧
    ((∀ w : Way, t.lm.ways[w] = { latch := false, state := .clear, counter := 0, recovery := 0, planRequested := false }) ∧
      t.lm.watching = false ∧ t.lm.checkTimer = false) ∧
    (t.xe.list = [] ∧ t.xe.running = none ∧ ∀ p : Plan, t.xe.conditions[p] = .idle) ∧
    (t.ew.queue = [] ∧ t.ew.dropped = 0 ∧ t.ew.head = 0 ∧ t.ew.tail = 0 ∧ t.ew.evtAsserted = false) ∧
    (t.pu.power = .resetAsserted ∧ t.pu.adoption = none ∧ t.pu.srcsN = true) ∧
    (∀ r : Requester, t.access r = none) ∧ t.los = s.los ∧ t = t.dormant

/-- RESET_ASSERT: each byte that a cut-off access was writing holds its old or its new value, and every other byte keeps
its contents (R145). The access under way is the one that the arbiter grants next (the model's choice, log 7). -/
def Obligations.CutOffWriteOldOrNew : Prop :=
  ∀ (u : Bool) (s : State), Memory.wf s.mem → ∃ t, exec (.resetAssert u) s = .next t ∧
    ∀ x, memRead t.mem x = memRead s.mem x ∨
      (u = true ∧ ∃ a bytes, s.accessNext = some (.write a bytes) ∧
        ∃ (i : Nat) (h : i < bytes.length), x = a + i ∧ memRead t.mem x = bytes[i])

/-- RESET_RELEASE samples the straps, starts the timebase from 0 and begins preload, with the serial ROM selected and its
read command shifted out where ROMEN is high; from then on each TIMEBASE_TICK counts one unit and wraps (R142, R145,
R146). The serial transfer up to PRELOAD_END is one step (the model's choice, log 27), and so is SRCS_N held high with
ROMEN low (log 41). -/
def Obligations.ResetReleaseStartsPreload : Prop :=
  (∀ (winsel : BitVec 2) (lockout romen : Bool) (s : State), s.pu.power = .resetAsserted →
    exec (.resetRelease winsel lockout romen) s = .next { s with
      ew := { s.ew with timebase := 0#32 }
      pu := { s.pu with
        power := .preload, winsel := winsel, lockout := lockout, romen := romen
        srcsN := !romen, romSent := if romen then [0x03#8, 0x00#8, 0x00#8] else [] } }) ∧
  ∀ s : State, s.pu.power ≠ .resetAsserted →
    exec .timebaseTick s =
      .next { s with ew := { s.ew with timebase := BitVec.ofNat 32 ((s.ew.timebase.toNat + 1) % 4294967296) } }

/-- PRELOAD_END: the settings take effect with the outcome, the arbiter's pointers stand at CTL's positions, the ring
word is requested, the LM looks at its lines and watches them, the check interval timer runs, BOOT_DEFAULTS is raised
where the defaults are used, and adoption begins with mask word 0 (R147, R149). The image is the command's operand, and
detail A is the base byte (the model's choices, logs 27 and 28), and so is the lower pointer at CTL where no requester is
low (log 38) and SRCS_N high with ROMEN low (log 41). -/
def Obligations.PreloadEndOpensThePart : Prop :=
  ∀ (image : List Byte) (s : State), s.pu.power = .preload → ∃ t, exec (.preloadEnd image) s = .next t ∧
    t.pu = { s.pu with
      power := .running, params := preloadParams (judgeImage s.pu.romen image) s.pu.winsel image
      outcome := judgeImage s.pu.romen image, srcsN := true
      adoption := some { stage := .mask 0, adopted := 0, fixed := 0 } } ∧
    t.tmp = { upper := if t.pu.params.groups.ctl then .requester .ctl else .low
              lower := (lowerRing t.pu.params.groups).headD .ctl } ∧
    (t.lm = { s.lm with watching := true, checkTimer := true, ways := t.lm.ways } ∧
      ∀ w : Way, t.lm.ways[w] = { s.lm.ways[w] with
        latch := s.lm.ways[w].latch || (s.los[w] != t.pu.params.losActiveLow[w]) }) ∧
    (t.ew = { s.ew with ringWordDue := true, queue := t.ew.queue, dropped := t.ew.dropped } ∧
      (t.pu.outcome = .romUsed → t.ew.queue = s.ew.queue ∧ t.ew.dropped = s.ew.dropped) ∧
      (t.pu.outcome ≠ .romUsed → s.raisesFirst t .bootDefaults t.pu.outcome.code 0#16
        (BitVec.ofNat 32 t.pu.params.windowBase.toNat) (bootDetail t.pu.outcome image))) ∧
    t = { s with pu := t.pu, tmp := t.tmp, lm := t.lm, ew := t.ew }

/-- The ROM image is judged in the order DISABLED, SIGNATURE, SUM; without it every parameter is its default under the
strap window base; with it each parameter is taken from its byte or bits and replaced by the nearer limit of its range;
and every parameter in effect lies in its range (R145, R147, R148, R163, R164). A byte that the operand does not have
reads 0 (the model's choice, log 27). -/
def Obligations.ImageJudgedAndClamped : Prop :=
  (∀ (romen : Bool) (image : List Byte),
    let signature := romByte image 0 = 0xC3#8 ∧ romByte image 1 = 17#8
    let sum := (List.range 20).foldl (fun acc n => acc + (romByte image n).toNat) 0 % 256
    (romen = false → judgeImage romen image = .disabled) ∧
    (romen = true → ¬ signature → judgeImage romen image = .signature) ∧
    (romen = true → signature → sum ≠ 0 → judgeImage romen image = .sum) ∧
    (romen = true → signature → sum = 0 → judgeImage romen image = .romUsed)) ∧
  (∀ (winsel : BitVec 2) (image : List Byte) (outcome : PreloadOutcome), outcome ≠ .romUsed →
    preloadParams outcome winsel image = defaultParams (strapWindowBase winsel) ∧
    (strapWindowBase 0#2 = 0x00#8 ∧ strapWindowBase 1#2 = 0x10#8 ∧ strapWindowBase 2#2 = 0x40#8 ∧
      strapWindowBase 3#2 = 0x80#8)) ∧
  (∀ (outcome : PreloadOutcome) (winsel : BitVec 2) (image : List Byte),
    let p := preloadParams outcome winsel image
    (16 ≤ p.ringLength ∧ p.ringLength ≤ 2048) ∧ (1 ≤ p.tickPeriod ∧ p.tickPeriod ≤ 255) ∧
    (1 ≤ p.maxStep ∧ p.maxStep ≤ 50) ∧ (1 ≤ p.slewFraction ∧ p.slewFraction ≤ 64) ∧
    (96 ≤ p.budgetFloor ∧ p.budgetFloor ≤ 4095) ∧ (1 ≤ p.checkInterval ∧ p.checkInterval ≤ 255) ∧
    (1 ≤ p.discardTime ∧ p.discardTime ≤ 255)) ∧
  (∀ (winsel : BitVec 2) (image : List Byte),
    let p := preloadParams .romUsed winsel image
    let b := fun n => (romByte image n).toNat
    p.windowBase = romByte image 2 ∧ p.ringLength = max 16 (min 2048 (b 3 + 256 * b 4)) ∧
    (p.groups.ctl = (romByte image 5).getLsbD 0 ∧ p.groups.tbl = (romByte image 5).getLsbD 1 ∧
      p.groups.xch = (romByte image 5).getLsbD 2 ∧ p.groups.evt = (romByte image 5).getLsbD 3) ∧
    p.tickPeriod = max 1 (b 6) ∧ p.maxStep = max 1 (min 50 (b 7)) ∧ p.slewFraction = max 1 (min 64 (b 8)) ∧
    p.budgetFloor = max 96 (min 4095 (b 9 + 256 * b 10)) ∧ p.checkInterval = max 1 (b 11) ∧
    (∀ w : Way, p.losActiveLow[w] = (romByte image 12).getLsbD w.val ∧
      p.losMode[w] = (if (romByte image 12).getLsbD (4 + w.val) then .edge else .level) ∧
      (∀ q : Plan, p.plan[w] = some q ↔ b (13 + w.val) = q.val) ∧
      p.manual[w] = (romByte image 17).getLsbD w.val) ∧
    p.discardTime = max 1 (b 18)) ∧
  ∀ base : Byte, defaultParams base =
    { windowBase := base, ringLength := 256, groups := { ctl := false, tbl := true, xch := true, evt := false }
      tickPeriod := 20, maxStep := 10, slewFraction := 16, budgetFloor := 256, checkInterval := 5
      losActiveLow := Vector.replicate 4 false, losMode := Vector.replicate 4 .level, plan := Vector.replicate 4 none
      manual := Vector.replicate 4 false, discardTime := 50 }

/-! ### The host bus -/

/-- HOST_WRITE with a place in the posted write queue: posted with the next sequence number and answered DONE; each
delayed-read slot that it reaches returns to LATCHED behind it (R126, R134). -/
def Obligations.HostWriteIsPosted : Prop :=
  ∀ (addr : Addr) (enables : BitVec 4) (data : Word) (size : Size) (s : State),
    s.pu.power = .running → s.cbp.held = none → sizeOfEnables enables = some size →
    accessFaults s.pu.params addr size = false → s.lockRefusesWrite addr size = false → s.cbp.queue.length < 8 →
    ∃ t, exec (.hostWrite addr enables data) s = .next t ∧
      t = { s with cbp := { s.cbp with
        queue := s.cbp.queue ++
          [{ addr := addr, size := size, data := data, zone := zoneOf s.pu.params addr, tag := s.cbp.postedCount }]
        postedCount := s.cbp.postedCount + 1, slots := t.cbp.slots, response := .done } } ∧
      ∀ i : ReadSlotNo, (s.cbp.slots[i] = none → t.cbp.slots[i] = none) ∧
        ∀ r, s.cbp.slots[i] = some r →
          let reached := (inWindow s.pu.params addr = true ∧ inWindow s.pu.params r.addr = true) ∨
            (inWindow s.pu.params addr = false ∧ addr.toNat < r.addr.toNat + r.size.bytes ∧
              r.addr.toNat < addr.toNat + size.bytes)
          (reached → t.cbp.slots[i] = some { r with state := .latched, barrier := some s.cbp.postedCount }) ∧
          (¬ reached → t.cbp.slots[i] = some r)

/-- HOST_WRITE turned away: RETRY before preload ends; FAULT for 0 or 3 byte enables, past the end of memory, or across a
word boundary with a byte in the window; RETRY from the window lock; WAIT while the queue holds 8 (R124, R125, R126,
R130). FAULT for the byte enables comes ahead of the window lock's RETRY (the model's choice, log 42). Before preload
ends RETRY comes ahead of FAULT, and the lock is judged ahead of the queue's room (the model's readings, logs 24 and 25).
-/
def Obligations.HostWriteTurnedAway : Prop :=
  (∀ (addr : Addr) (enables : BitVec 4) (data : Word) (s : State),
    let answered := fun r : Response =>
      exec (.hostWrite addr enables data) s = .next { s with cbp := { s.cbp with response := r } }
    (s.pu.power ≠ .running → answered .retry) ∧
    (s.pu.power = .running → s.cbp.held = none →
      (enabledCount enables = 0 ∨ enabledCount enables = 3 → answered .fault) ∧
      ∀ size, sizeOfEnables enables = some size →
        (accessFaults s.pu.params addr size = true → answered .fault) ∧
        (accessFaults s.pu.params addr size = false →
          (s.lockRefusesWrite addr size = true → answered .retry) ∧
          (s.lockRefusesWrite addr size = false → 8 ≤ s.cbp.queue.length →
            exec (.hostWrite addr enables data) s =
              .next { s with cbp := { s.cbp with held := some (.write addr size data), response := .wait } })))) ∧
  (∀ (p : Params) (a : Addr) (size : Size), accessFaults p a size = true ↔
    2 ^ 24 < a.toNat + size.bytes ∨
      (a.toNat / 4 ≠ (a.toNat + size.bytes - 1) / 4 ∧ ∃ i < size.bytes, (a.toNat + i) / 65536 = p.windowBase.toNat)) ∧
  ∀ (s : State) (a : Addr) (size : Size), s.lockRefusesWrite a size = true ↔
    a.toNat / 65536 = s.pu.params.windowBase.toNat ∧
      (s.cbp.lock = .adopting ∨ (s.cbp.lock = .held ∧ ¬ (size = .four ∧ a.toNat % 65536 = 0x800)))

/-- HOST_READ in the order of R131: RETRY while the window is ADOPTING, DATA from a COMPLETE slot, RETRY for a pending
one, direct service, a latch behind the latest posted write, RETRY with no slot free; RETRY before preload ends and FAULT
as for a write (R124, R131). FAULT for the byte enables comes ahead of the RETRY of a window in ADOPTING (the model's
choice, log 42). Before preload ends RETRY comes ahead of FAULT, and DATA carries the bytes read alone (the model's
choices, logs 24 and 10). -/
def Obligations.HostReadCases : Prop :=
  ∀ (addr : Addr) (enables : BitVec 4) (s : State),
    let answered := fun r : Response =>
      exec (.hostRead addr enables) s = .next { s with cbp := { s.cbp with response := r } }
    (s.pu.power ≠ .running → answered .retry) ∧
    (s.pu.power = .running → s.cbp.held = none →
      (enabledCount enables = 0 ∨ enabledCount enables = 3 → answered .fault) ∧
      ∀ size, sizeOfEnables enables = some size →
        let direct := s.cbp.queue = [] ∧ (∀ e ∈ s.dt.updates, e.tag = none) ∧ s.xe.running = none ∧
          ∀ (i : ReadSlotNo) (r : ReadSlot), s.cbp.slots[i] = some r → ∃ w, r.state = .complete w
        (accessFaults s.pu.params addr size = true → answered .fault) ∧
        (accessFaults s.pu.params addr size = false →
          (s.lockRefusesRead addr = true → answered .retry) ∧
          (s.lockRefusesRead addr = false →
            (∀ (i : ReadSlotNo) (r : ReadSlot), s.matchingSlot addr size = some i → s.cbp.slots[i] = some r →
              (∀ w, r.state = .complete w →
                exec (.hostRead addr enables) s = .next { s with cbp := { s.cbp with
                  slots := s.cbp.slots.set i none, latchOrder := s.cbp.latchOrder.erase i, response := .data w } }) ∧
              ((∀ w, r.state ≠ .complete w) → answered .retry)) ∧
            (s.matchingSlot addr size = none →
              (direct → exec (.hostRead addr enables) s =
                .next { s with cbp := { s.cbp with held := some (.read addr size []), response := .wait } }) ∧
              (¬ direct → ∀ i, s.freeReadSlotNo = some i →
                exec (.hostRead addr enables) s = .next { s with cbp := { s.cbp with
                  slots := s.cbp.slots.set i
                    (some { addr := addr, size := size, state := .latched, barrier := s.latestTag })
                  latchOrder := s.cbp.latchOrder ++ [i], response := .retry } }) ∧
              (¬ direct → s.freeReadSlotNo = none → answered .retry)))))

/-- DELAYED_READ_ISSUE makes a LATCHED slot ISSUED exactly where the four conditions of R133 hold, and
DISCARD_TIMER_EXPIRY frees a COMPLETE slot with READ_DISCARDED (R133, R135). The issue is a step of its own, which changes
nothing while a condition fails (the model's choices, logs 15 and 5). -/
def Obligations.DelayedReadIssuesOrIsDiscarded : Prop :=
  ∀ (i : ReadSlotNo) (r : ReadSlot) (s : State), s.cbp.slots[i] = some r →
    (r.state = .latched →
      let may := (∀ b, r.barrier = some b → s.settledTo b) ∧ s.xe.running = none ∧ s.lockRefusesRead r.addr = false
      (may → exec (.delayedReadIssue i) s =
        .next { s with cbp := { s.cbp with slots := s.cbp.slots.set i (some { r with state := .issued [] }) } }) ∧
      (¬ may → exec (.delayedReadIssue i) s = .next s)) ∧
    (∀ w, r.state = .complete w →
      exec (.discardTimerExpiry i) s = .next (State.emit
        { s with cbp := { s.cbp with slots := s.cbp.slots.set i none, latchOrder := s.cbp.latchOrder.erase i } }
        .readDiscarded 0 (BitVec.ofNat 16 i.val) (BitVec.ofNat 32 r.addr.toNat) (BitVec.ofNat 32 r.size.bytes)))

/-- The end of a head's handling: the entry leaves the queue and the next becomes the head; a write held with WAIT is
posted and answered DONE, a free delayed-read slot staying free, or refused by the window lock with RETRY (R126, R127).
-/
def Obligations.HeadLeavesTheQueue : Prop :=
  ∀ s : State,
    ((∀ a size data, s.cbp.held ≠ some (.write a size data)) →
      s.retireHead = { s with cbp := { s.cbp with queue := s.cbp.queue.tail, head := .waiting } }) ∧
    ∀ a size data, s.cbp.held = some (.write a size data) →
      (s.lockRefusesWrite a size = true →
        s.retireHead = { s with cbp := { s.cbp with
          queue := s.cbp.queue.tail, head := .waiting, held := none, response := .retry } }) ∧
      (s.lockRefusesWrite a size = false →
        s.retireHead = { s with cbp := { s.cbp with
          queue := s.cbp.queue.tail ++
            [{ addr := a, size := size, data := data, zone := zoneOf s.pu.params a, tag := s.cbp.postedCount }]
          head := .waiting, held := none, postedCount := s.cbp.postedCount + 1
          slots := s.retireHead.cbp.slots, response := .done } } ∧
        (∀ (i : ReadSlotNo) (r : ReadSlot), s.cbp.slots[i] = some r →
          s.retireHead.cbp.slots[i] = some
            (if reaches s.pu.params a size r then { r with state := .latched, barrier := some s.cbp.postedCount } else r)) ∧
        ∀ i : ReadSlotNo, s.cbp.slots[i] = none → s.retireHead.cbp.slots[i] = none)

/-! ### The queue's head: path writes -/

/-- PATH_WRITE that does not close: the written bytes are merged onto the open set's word or the intent word, and the word
replaces the destination's entry or joins the end; a fifth destination rejects the whole open set with OVERFLOW. No
destination record and no memory changes (R23, R24, R26, R27). -/
def Obligations.PathWriteJoinsOpenSet : Prop :=
  ∀ (s : State) (h : PostedWrite) (d : Dest), s.headToTake = some h → h.zone = .linePath ∨ h.zone = .dropPath →
    destOfOffset (offsetOf h.addr) = some d → s.closeWaits d h = false →
    let base := (openWord s.csa.openSet d).getD (s.intentWord d)
    (∀ i < 4, byteAt (s.pathMerged d h) i =
      if h.addr.toNat % 4 ≤ i ∧ i < h.addr.toNat % 4 + h.size.bytes then byteAt h.data (i - h.addr.toNat % 4)
      else byteAt base i) ∧
    (s.closes d h = false → (openWord s.csa.openSet d).isSome = true ∨ s.csa.openSet.length < 4 →
      ∃ t, exec .pathWrite s = .next t ∧
        t = { s.retireHead with csa := { s.csa with openSet := t.csa.openSet } } ∧
        openWord t.csa.openSet d = some (s.pathMerged d h &&& 0x30FFFFFF#32) ∧
        (∀ e, e ≠ d → openWord t.csa.openSet e = openWord s.csa.openSet e) ∧
        t.csa.openSet.map OpenEntry.dest = s.csa.openSet.map OpenEntry.dest ++
          (if (openWord s.csa.openSet d).isSome then [] else [d])) ∧
    (openWord s.csa.openSet d = none → 4 ≤ s.csa.openSet.length →
      exec .pathWrite s = .next (State.retireHead (State.emit { s with csa := { s.csa with openSet := [] } }
        .setRejected 1 (BitVec.ofNat 16 d.val) (setDetail 0#4 4 false false) (s.pathMerged d h))))

/-- PATH_WRITE that closes a set which passes its static checks: the set joins the queue's end under its label, the open
set is emptied, every named destination gets one queued mark and joins the table-update list under the write's tag, and
nothing else of any record changes. A marking leaves an entry listed before in its place, with the marking's tag where it
carries one and its own where it does not, and puts the others at the end; those of one request join in ascending index
(R10, R16, R18, R28, R31). The arbiter's occasion is noted as due (the model's choice, log 12). -/
def Obligations.CloseEntersQueue : Prop :=
  (∀ (s : State) (tag : Option Nat) (ds : List Dest), ds.Nodup →
    (tag = none ∨ (s.dt.updates.map UpdateEntry.dest).Nodup) →
    s.markAll tag ds = { s with dt := { s.dt with updates := markedUpdates s.dt.updates tag ds } }) ∧
  ∀ (s : State) (h : PostedWrite) (d : Dest), s.headToTake = some h → h.zone = .linePath ∨ h.zone = .dropPath →
    destOfOffset (offsetOf h.addr) = some d → s.closes d h = true → pathTrial (s.pathMerged d h) = false →
    s.csa.queue.length < 4 → (openWord s.csa.openSet d).isSome = true ∨ s.csa.openSet.length < 4 →
    let entries := takeOpen s.csa.openSet d (storedWord (s.pathMerged d h))
    staticChecks [] entries = none →
    ∃ t, exec .pathWrite s = .next t ∧
      t.csa = { s.csa with
        openSet := [], queue := s.csa.queue ++
          [{ label := pathLabel (s.pathMerged d h), entries := entries.map decodeEntry }] } ∧
      (∀ e, t.record e = { s.record e with
        queued := (s.record e).queued + (entries.map OpenEntry.dest).count e }) ∧
      (∀ e ∈ entries, ∃ u ∈ t.dt.updates, u.dest = e.dest ∧ u.tag = some h.tag) ∧
      (s.marksUpdates t (some h.tag) fun e => (entries.map OpenEntry.dest).contains e) ∧
      t.dt = { s.dt with records := t.dt.records, updates := t.dt.updates } ∧
      t.re = { s.re with occasionDue := s.re.occasionDue || s.csa.queue.isEmpty } ∧
      t = { s.retireHead with csa := t.csa, dt := t.dt, re := t.re }

/-- PATH_WRITE that closes otherwise: a set failing a static check is rejected whole; a trial runs the checks and only
records their outcome; a close without TRIAL is not taken while the set queue holds 4 (R28, R29, R30, R32). SRC and INDEX
give the source, or none where a code is illegal or an index out of range (R25); the static checks take the entries in
order, each for BAD_SOURCE, then UTURN, then PORT_TWICE against the entries before it, and the first that fails is the
answer (R29); the dynamic check answers the first entry whose add port is the intent source of a destination that the set
does not name, with that destination, and none where there is no such entry (R36). A step that finds the close waiting
changes nothing (the model's choice, log 5). -/
def Obligations.CloseRejectedTriedOrWaiting : Prop :=
  (∀ (d : Dest) (w : Word),
    let src := field w 8 3
    let index := field w 11 7
    (isLine d = true →
      (src = 0 → pathSource d w = some .none) ∧
      (∀ k : Way, src = k.val + 1 → pathSource d w = some (.express k)) ∧
      (∀ p : Port, (src = 5 ∧ index < 24 ∧ p.val = index) ∨ (src = 6 ∧ index < 24 ∧ p.val = 24 + index) →
        pathSource d w = some (.port p)) ∧
      (src = 7 ∨ ((src = 5 ∨ src = 6) ∧ 24 ≤ index) → pathSource d w = none)) ∧
    (isLine d = false →
      (src = 0 → pathSource d w = some .none) ∧
      (∀ (k : Way) (n : GridSlot), src = k.val + 1 → index = n.val → pathSource d w = some (.drop k n)) ∧
      (src = 5 ∨ src = 6 ∨ src = 7 ∨ (1 ≤ src ∧ src ≤ 4 ∧ 96 ≤ index) → pathSource d w = none))) ∧
  (∀ (before after : List OpenEntry) (e : OpenEntry), staticChecks [] before = none →
    let fails := fun reason : RejectReason => staticChecks [] (before ++ e :: after) = some (reason, e)
    (pathSource e.dest e.word = none → fails .badSource) ∧
    ∀ src, pathSource e.dest e.word = some src →
      let uturn := isLine e.dest = true ∧ src = .express (wayOf e.dest)
      let twice := ∃ p, src = .port p ∧ ∃ b ∈ before, pathSource b.dest b.word = some (.port p)
      (uturn → fails .uturn) ∧ (¬ uturn → twice → fails .portTwice) ∧
      (¬ uturn → ¬ twice → staticChecks [] (before ++ [e]) = none)) ∧
  (staticChecks [] [] = none ∧ RejectReason.badSource.code = 2 ∧ RejectReason.uturn.code = 3 ∧
    RejectReason.portTwice.code = 4) ∧
  (∀ (s : State) (entries : List SetEntry), s.tableLaw → s.pu.adoption = none →
    let clash := fun (e : SetEntry) (p : Port) (c : Dest) =>
      e.src = .port p ∧ (s.record c).intentSrc = .port p ∧ c ∉ entries.map SetEntry.dest
    (∀ before e after p c, entries = before ++ e :: after → (∀ b ∈ before, ∀ p c, ¬ clash b p c) → clash e p c →
      s.dynamicCheck entries = some (e, p, c)) ∧
    ((∀ e ∈ entries, ∀ p c, ¬ clash e p c) → s.dynamicCheck entries = none)) ∧
  ∀ (s : State) (h : PostedWrite) (d : Dest), s.headToTake = some h → h.zone = .linePath ∨ h.zone = .dropPath →
    destOfOffset (offsetOf h.addr) = some d → s.closes d h = true →
    let merged := s.pathMerged d h
    let entries := takeOpen s.csa.openSet d (storedWord merged)
    let emptied : State := { s with csa := { s.csa with openSet := [] } }
    (pathTrial merged = false → 4 ≤ s.csa.queue.length → exec .pathWrite s = .next s) ∧
    (pathTrial merged = true ∨ s.csa.queue.length < 4 →
      (openWord s.csa.openSet d).isSome = true ∨ s.csa.openSet.length < 4 →
      (∀ reason e, staticChecks [] entries = some (reason, e) →
        exec .pathWrite s = .next (State.retireHead (emptied.emit .setRejected reason.code (BitVec.ofNat 16 e.dest.val)
          (setDetail (pathLabel merged) entries.length (pathTrial merged) false) e.word))) ∧
      (staticChecks [] entries = none → pathTrial merged = true →
        (s.dynamicCheck (entries.map decodeEntry) = none →
          exec .pathWrite s = .next (State.retireHead (emptied.emit .trialPassed 0
            (BitVec.ofNat 16 (pathLabel merged).toNat) (BitVec.ofNat 32 entries.length) 0#32))) ∧
        ∀ e p c, s.dynamicCheck (entries.map decodeEntry) = some (e, p, c) →
          exec .pathWrite s = .next (State.retireHead (emptied.emit .setRejected 5 (BitVec.ofNat 16 e.dest.val)
            (setDetail (pathLabel merged) entries.length true false) (portDetail p c)))))

/-- The word that the DT composes from a legal source decodes to that source and its attenuation, carries the STATE
given, the INDEX of the source, 0 beside source none or express, and 0 in LABEL, TRIAL, CLOSE and the unassigned bits;
and the STATE of a current word is the first line of R13's table that holds; so the current word of a record decodes to
its current source and attenuation with that STATE, and its intent word to its intent source and attenuation with STATE 0
(R13, R14, R25, R154, R156). -/
def Obligations.PathWordRoundTrip : Prop :=
  (∀ (d : Dest) (src : Source) (attn : Attn) (code : Nat), legalSource d src → code < 16 →
    let w := composePath src attn code
    pathSource d w = some src ∧ pathAttn w = attn ∧ field w 20 4 = code ∧ w &&& 0xFF0C0000#32 = 0#32 ∧
      field w 11 7 = src.indexField ∧ isUturn d src = false) ∧
  (Source.none.indexField = 0 ∧ ∀ k : Way, (Source.express k).indexField = 0) ∧
  ∀ (s : State) (d : Dest),
    let r := s.record d
    (∀ n sl, r.slot = some n → s.re.slots[n] = some sl →
      s.stateCode d = (match sl.phase with | .dimming => 2 | .brightening => 3 | .portWait => 4)) ∧
    (r.slot = none → r.forced = true → s.stateCode d = 5) ∧
    (r.slot = none → r.forced = false → 0 < r.queued → s.stateCode d = 1) ∧
    (r.slot = none → r.forced = false → r.queued = 0 → r.blocked = true → r.curAttn = dark → s.stateCode d = 6) ∧
    (r.slot = none → r.forced = false → r.queued = 0 → ¬ (r.blocked = true ∧ r.curAttn = dark) → s.stateCode d = 0) ∧
    (isLine d = false → r.slot = none → r.blocked = false →
      s.stateCode d = 5 ∨ s.stateCode d = 1 ∨ s.stateCode d = 0) ∧
    (legalSource d r.curSrc → pathSource d (s.currentWord d) = some r.curSrc ∧ pathAttn (s.currentWord d) = r.curAttn ∧
      field (s.currentWord d) 20 4 = s.stateCode d ∧ s.currentWord d &&& 0xFF0C0000#32 = 0#32 ∧
      field (s.currentWord d) 11 7 = r.curSrc.indexField) ∧
    (legalSource d r.intentSrc → pathSource d (s.intentWord d) = some r.intentSrc ∧
      pathAttn (s.intentWord d) = r.intentAttn ∧ field (s.intentWord d) 20 4 = 0 ∧
      s.intentWord d &&& 0xFF0C0000#32 = 0#32 ∧ field (s.intentWord d) 11 7 = r.intentSrc.indexField)

/-! ### The queue's head: masks, write-through, headers, status zone -/

/-- MASK_VIEW_WRITE: the direct view replaces the bytes it writes; the SET, CLEAR and TOGGLE views set, clear and invert the
bits at which they write a 1, and have no effect elsewhere; every other mask word stays (R85, R86). -/
def Obligations.MaskViewsChangeTheWord : Prop :=
  ∀ (s : State) (h : PostedWrite) (view : MaskView) (m : Fin 12), s.headToTake = some h → h.zone = .mask view →
    maskIndex view (offsetOf h.addr) = some m → crosses h.addr h.size = false →
    ∃ t, exec .maskViewWrite s = .next t ∧
      (∀ n : Fin 12, n ≠ m → t.masks[n] = s.masks[n]) ∧ (t.masks[m]).isSome = true ∧
      ∀ b < 32,
        let old := (s.maskWord m).getLsbD b
        let new := (t.maskWord m).getLsbD b
        let inside := h.addr.toNat % 4 ≤ b / 8 ∧ b / 8 < h.addr.toNat % 4 + h.size.bytes
        let one := inside ∧ (byteAt h.data (b / 8 - h.addr.toNat % 4)).getLsbD (b % 8) = true
        (view = .direct → inside → (new = true ↔ one)) ∧ (view = .direct → ¬ inside → new = old) ∧
        (view = .setOnes → (new = true ↔ old = true ∨ one)) ∧
        (view = .clearOnes → (new = true ↔ old = true ∧ ¬ one)) ∧
        (view = .toggleOnes → (one → new = !old) ∧ (¬ one → new = old))

/-- MASK_VIEW_WRITE sends one blocked-flag request for each bit that changes, in ascending order and one at each step,
under the write's tag, which replaces the tag of an entry listed already; the whole new word is requested for memory at
the direct view after the last, or at once where no bit changes. A request changes that destination's flag alone of all
flags and intents; a destination without a slot keeps its current and has its wanted flag follow its rest; one in a slot
on its intent source keeps its place in the ramp list with the new effective target as its goal, or leaves its slot where
it stands there already, and then its set counts it settled; one still dimming away from another source keeps its slot
and the goal 255, and so does one in PORT_WAIT whose port another destination holds; one in PORT_WAIT whose port has no
other holder takes it at 255, and leaves its slot where the effective target is 255 or brightens toward it; an occasion
of the arbiter is due where the request frees a slot or raises the wanted flag; the slots of other destinations, the way
loads, the tick timer, a deferred tick and the passes owed stand (R6, R11, R16, R18, R43, R55, R71, R72, R74, R75, R87,
R89, R91). That each request is a step of its own is the model's reading of R87 (log 37). -/
def Obligations.MaskWriteSetsBlockedFlags : Prop :=
  (∀ (s : State) (h : PostedWrite) (view : MaskView) (m : Fin 12) (bits : List (Fin 32)), s.headToTake = some h →
    h.zone = .mask view → maskIndex view (offsetOf h.addr) = some m →
    let old := s.maskWord m
    let new := maskWrite view old h.position h.bytes
    bits.Pairwise (· < ·) → (∀ b : Fin 32, b ∈ bits ↔ new.getLsbD b.val ≠ old.getLsbD b.val) →
    (bits = [] → exec .maskViewWrite s = .next { s with
      masks := s.masks.set m (some new)
      cbp := { s.cbp with
        head := .writing [.write (windowAddr s.pu.params (0x700 + 4 * m.val)) (wordBytes new)] false } }) ∧
    (bits ≠ [] → exec .maskViewWrite s = exec .maskViewWrite { s with
      masks := s.masks.set m (some new), cbp := { s.cbp with head := .masking m bits } })) ∧
  ∀ (s : State) (h : PostedWrite) (behind : List PostedWrite) (m : Fin 12) (b : Fin 32) (rest : List (Fin 32)),
    s.tableLaw → s.cbp.head = .masking m (b :: rest) → s.cbp.queue = h :: behind →
    let d := maskDest m b
    let word := s.maskWord m
    ∃ t, exec .maskViewWrite s = .next t ∧
      t.cbp = { s.cbp with
        head := if rest = [] then .writing [.write (windowAddr s.pu.params (0x700 + 4 * m.val)) (wordBytes word)] false
          else .masking m rest } ∧
      (t.record d).blocked = word.getLsbD b.val ∧ (∃ u ∈ t.dt.updates, u.dest = d ∧ u.tag = some h.tag) ∧
      ((s.record d).slot = none →
        t.record d = { s.record d with
          blocked := word.getLsbD b.val, wanted := !atRest d { s.record d with blocked := word.getLsbD b.val } } ∧
        t.ew = s.ew ∧ t.csa = s.csa) ∧
      (∀ n sl, (s.record d).slot = some n → s.re.slots[n] = some sl → (s.record d).curSrc = (s.record d).intentSrc →
        let target := effectiveTarget d { s.record d with blocked := word.getLsbD b.val }
        ((s.record d).curAttn = target →
          t.record d = { s.record d with blocked := word.getLsbD b.val, slot := none } ∧ t.re.slots[n] = none) ∧
        ((s.record d).curAttn ≠ target →
          t.record d = { s.record d with blocked := word.getLsbD b.val } ∧ t.re.list = s.re.list ∧
          t.re.slots[n] = some { sl with
            goal := target
            phase := if (s.record d).curAttn.toNat < target.toNat then .dimming else .brightening })) ∧
      (∀ n sl, (s.record d).slot = some n → s.re.slots[n] = some sl → (s.record d).curSrc ≠ (s.record d).intentSrc →
        let target := effectiveTarget d { s.record d with blocked := word.getLsbD b.val }
        let held := ∃ p e, (s.record d).intentSrc = .port p ∧ s.dt.ports[p].holder = some e ∧ e ≠ d
        ((s.record d).curAttn ≠ dark ∨ held →
          t.record d = { s.record d with blocked := word.getLsbD b.val } ∧ t.re.list = s.re.list ∧
          t.re.slots[n] = some { sl with goal := dark } ∧ t.dt.ports = s.dt.ports) ∧
        ((s.record d).curAttn = dark → ¬ held →
          (∀ p, (s.record d).intentSrc = .port p → t.dt.ports[p].holder = some d) ∧
          (target = dark → t.re.slots[n] = none ∧ t.record d = { s.record d with
            blocked := word.getLsbD b.val, curSrc := (s.record d).intentSrc, slot := none }) ∧
          (target ≠ dark → t.re.list = s.re.list ∧
            t.re.slots[n] = some { sl with goal := target, phase := .brightening } ∧
            t.record d = { s.record d with blocked := word.getLsbD b.val, curSrc := (s.record d).intentSrc }))) ∧
      s.occasionFollows t ∧
      (s.countsOff t (fun _ => false) fun e => e == d && (s.record d).slot.isSome && (t.record d).slot.isNone) ∧
      (t.record d).intentSrc = (s.record d).intentSrc ∧ (t.record d).intentAttn = (s.record d).intentAttn ∧
      (t.record d).forced = (s.record d).forced ∧ (t.record d).queued = (s.record d).queued ∧
      (∀ e, e ≠ d → t.record e = s.record e) ∧
      (s.marksUpdates t (some h.tag) fun e => e == d) ∧
      (s.keepsTicks t ∧ t.re.loads = s.re.loads ∧
        (∀ k : SlotNo, (s.record d).slot ≠ some k → t.re.slots[k] = s.re.slots[k]) ∧
        t.re.list = match (s.record d).slot with
          | some n => if t.re.slots[n] = none then s.re.list.erase n else s.re.list
          | none => s.re.list) ∧
      t.dt = { s.dt with records := t.dt.records, ports := t.dt.ports, updates := t.dt.updates } ∧
      (t.csa = { s.csa with settling := t.csa.settling } ∧
        (t.csa.settling.map SettlingSet.id).Sublist (s.csa.settling.map SettlingSet.id)) ∧
      s.onlyRaises t ∧
      t = { s with dt := t.dt, re := t.re, csa := t.csa, ew := t.ew, cbp := t.cbp }

/-- WRITE_THROUGH: the bytes exactly as posted are requested of CTL, one access for each word they touch, in ascending order,
each inside its word (R125, R127). -/
def Obligations.WriteThroughAsPosted : Prop :=
  (∀ (s : State) (h : PostedWrite), s.headToTake = some h →
    h.zone = .passThrough ∨ h.zone = .plain ∨ h.zone = .ring ∨ h.zone = .planStore →
    exec .writeThrough s = .next { s with cbp := { s.cbp with head := .writing h.through false } }) ∧
  ∀ h : PostedWrite,
    let bytes := (List.range h.size.bytes).map (byteAt h.data)
    let first := 4 - h.addr.toNat % 4
    (crosses h.addr h.size = false → h.through = [.write h.addr.toNat bytes]) ∧
    (crosses h.addr h.size = true →
      h.through = [.write h.addr.toNat (bytes.take first), .write (h.addr.toNat + first) (bytes.drop first)])

/-- PLAN_HEADER_WRITE, STATUS_ZONE_WRITE and NARROW_COMMAND_WRITE: a full-word 0 to a header makes the plan IDLE and has
the word 0 written, any other header write and every status-zone write changes nothing but its WRITE_IGNORED record, and a
narrow command write is written through with its record and does not act (R109, R128, R129). The record of a narrow
command is raised as the head is taken (the model's choice, log 18). -/
def Obligations.HeaderStatusAndNarrowWrites : Prop :=
  ∀ (s : State) (h : PostedWrite), s.headToTake = some h →
    (∀ p : Plan, h.zone = .planHeader → headerPlan (offsetOf h.addr) = some p →
      (h.size = .four ∧ h.data = 0#32 →
        exec .planHeaderWrite s = .next { s with
          xe := { s.xe with conditions := s.xe.conditions.set p .idle }
          cbp := { s.cbp with
            head := .writing [.write (windowAddr s.pu.params (0x1400 + 4 * p.val)) [0#8, 0#8, 0#8, 0#8]] false } }) ∧
      (¬ (h.size = .four ∧ h.data = 0#32) →
        exec .planHeaderWrite s = .next (State.retireHead
          (s.emit .writeIgnored 2 (BitVec.ofNat 16 p.val) h.valueInPlace (BitVec.ofNat 32 h.size.bytes))))) ∧
    (h.zone = .status →
      exec .statusZoneWrite s = .next (State.retireHead
        (s.emit .writeIgnored 1 (BitVec.ofNat 16 (offsetOf h.addr - h.addr.toNat % 4)) h.valueInPlace
          (BitVec.ofNat 32 h.size.bytes)))) ∧
    (h.zone = .command → h.size ≠ .four →
      exec .narrowCommandWrite s = .next { s.emit .writeIgnored 3 (BitVec.ofNat 16 (offsetOf h.addr - h.addr.toNat % 4))
          h.valueInPlace (BitVec.ofNat 32 h.size.bytes) with
        cbp := { s.cbp with head := .writing h.through false } })

/-! ### The queue's head: commands -/

/-- CMD_UNLOCK opens a HELD window and leaves any other lock; CMD_ABORT_SET empties the open set, with SET_REJECTED ABORTED if
it held entries; CMD_RESTART does nothing before its mailbox is written. Each has its word written through (R33, R128, R130,
R153). -/
def Obligations.UnlockAbortRestartCommands : Prop :=
  ∀ (s : State) (h : PostedWrite),
    (s.commandToTake 0 = some h → exec .cmdUnlock s = .next { s with cbp := { s.cbp with
      lock := if s.cbp.lock = .held then .opened else s.cbp.lock, head := .writing h.through false } }) ∧
    (s.commandToTake 1 = some h →
      (s.csa.openSet = [] →
        exec .cmdAbortSet s = .next { s with cbp := { s.cbp with head := .writing h.through false } }) ∧
      ∀ e rest, s.csa.openSet = e :: rest →
        exec .cmdAbortSet s = .next { s.emit .setRejected 6 (BitVec.ofNat 16 e.dest.val)
            (setDetail 0#4 s.csa.openSet.length false false) e.word with
          csa := { s.csa with openSet := [] }, cbp := { s.cbp with head := .writing h.through false } }) ∧
    (s.commandToTake 5 = some h →
      exec .cmdRestart s = .next { s with cbp := { s.cbp with head := .writing h.through true } })

/-- CMD_EXCHANGE: refused with BAD_PLAN, TORN or BUSY, the first that applies, or listed at the end with origin CONTROLLER;
written through in every case (R112, R157). -/
def Obligations.ControllerRequests : Prop :=
  ∀ (s : State) (h : PostedWrite), s.commandToTake 2 = some h →
    let v := h.data.toNat
    let refused := fun reason : Nat =>
      exec .cmdExchange s = .next { s.emit .exchangeRefused reason (BitVec.ofNat 16 (min v 65535)) 0#32 h.data with
        cbp := { s.cbp with head := .writing h.through false } }
    (8 ≤ v → refused 1) ∧
    ∀ p : Plan, v = p.val →
      (s.xe.conditions[p] = .torn → refused 2) ∧
      (s.xe.conditions[p] = .idle →
        let busy := ∃ r ∈ s.xe.list, r.origin = .controller ∨ r.plan = p
        (busy → refused 3) ∧
        (¬ busy → exec .cmdExchange s = .next { s with
          xe := { s.xe with list := s.xe.list ++ [{ origin := .controller, plan := p }] }
          cbp := { s.cbp with head := .writing h.through false } }))

/-- CMD_RELEASE: a way in AWAIT_RELEASE enters CLEAR with its WAY_STATE record alone, and every destination fed from it
is unforced under the command's tag and joins the table-update list, drops written to their effective target, line
destinations wanted if not at rest, with an occasion of the arbiter due where a flag is raised and the ramp engine and
the add-port map else as they were; any other value or state is ignored with a record (R9, R16, R18, R71, R74, R75, R103,
R104). -/
def Obligations.ReleaseCommand : Prop :=
  ∀ (s : State) (h : PostedWrite), s.wayLaw → s.tableLaw → s.commandToTake 3 = some h →
    let v := h.data.toNat
    let ignored := fun code : Nat =>
      exec .cmdRelease s = .next { s.emit .releaseIgnored 0 (BitVec.ofNat 16 (min v 65535)) h.data (BitVec.ofNat 32 code) with
        cbp := { s.cbp with head := .writing h.through false } }
    (4 ≤ v → ignored 0) ∧
    ∀ w : Way, v = w.val →
      (s.lm.ways[w].state ≠ .awaitRelease → ignored s.lm.ways[w].state.code) ∧
      (s.lm.ways[w].state = .awaitRelease → ∃ t, exec .cmdRelease s = .next t ∧
        t.lm = { s.lm with
          ways := s.lm.ways.set w
            { s.lm.ways[w] with state := .clear, counter := 0, recovery := 0, planRequested := false } } ∧
        s.raisesFirst t .wayState 0 (BitVec.ofNat 16 w.val) 4#32 0#32 ∧
        t.ew = (s.emit .wayState 0 (BitVec.ofNat 16 w.val) 4#32 0#32).ew ∧
        (∀ k : Way, t.dt.isolated[k] = if k = w then false else s.dt.isolated[k]) ∧
        (∀ d, (s.record d).intentSrc.feed = some w →
          (∃ u ∈ t.dt.updates, u.dest = d ∧ u.tag = some h.tag) ∧
          t.record d = { s.record d with
            forced := false
            curAttn := if isLine d then (s.record d).curAttn else effectiveTarget d { s.record d with forced := false }
            curSrc := if isLine d then (s.record d).curSrc else (s.record d).intentSrc
            wanted := isLine d && !atRest d { s.record d with forced := false } }) ∧
        (∀ d, (s.record d).intentSrc.feed ≠ some w → t.record d = s.record d) ∧
        (s.marksUpdates t (some h.tag) fun d => (s.record d).intentSrc.feed == some w) ∧ t.dt.ports = s.dt.ports ∧
        t.re = { s.re with occasionDue := t.re.occasionDue } ∧ s.occasionFollows t ∧
        t = { s with
          lm := t.lm, dt := t.dt, re := t.re, ew := t.ew
          cbp := { s.cbp with head := .writing h.through false } })

/-- CMD_RING_TAIL: accepted exactly from the tail to the head, modulo L; an accepted value other than the tail moves the tail,
deasserts EVT_N where it meets the head and requests the ring word before the mailbox; any other value is refused with
TAIL_REFUSED (R141). -/
def Obligations.RingTailCommand : Prop :=
  ∀ (s : State) (h : PostedWrite), s.commandToTake 4 = some h → s.ringLaw →
    let v := h.data.toNat
    let length := s.pu.params.ringLength
    let accepted := v < length ∧
      ((v : Int) - s.ew.tail) % (length : Int) ≤ ((s.ew.head : Int) - s.ew.tail) % (length : Int)
    (accepted → v = s.ew.tail →
      exec .cmdRingTail s = .next { s with cbp := { s.cbp with head := .writing h.through false } }) ∧
    (accepted → v ≠ s.ew.tail →
      exec .cmdRingTail s = .next { s with
        ew := { s.ew with tail := v, ringWordDue := true, evtAsserted := decide (v ≠ s.ew.head) }
        cbp := { s.cbp with head := .ringWord } }) ∧
    (¬ accepted →
      exec .cmdRingTail s = .next { s.emit .tailRefused 0 (BitVec.ofNat 16 (min v 65535)) h.data
          (ringWordOf s.ew.head s.ew.tail) with
        cbp := { s.cbp with head := .writing h.through false } })

/-! ### The SRAM port -/

/-- CTL_WRITE_GRANT of the mailbox of CMD_RESTART carries the restart out: the open set and the queued sets are rejected
as ABORTED, the settling sets abandoned and the listed requests refused, each with its record and in that order; queued
marks, slots and wanted flags are removed, with the destinations of the marks and slots on the table-update list in
ascending index, the window is ADOPTING; currents, intents, flags, loads, ways, masks, settings and the event writer's
ring stand, and adoption waits for the table-update list (R16, R18, R46, R81, R122, R153). With the ramps go the passes
owed and the arbiter's occasion (the model's reading, logs 11 and 12). -/
def Obligations.RestartCarriedOut : Prop :=
  ∀ (s : State) (a : Nat) (bytes : List Byte), s.tableLaw → Memory.wf s.mem → s.nextGrant = some .ctl →
    s.ctlSource = some .head → s.cbp.head = .writing [.write a bytes] true →
    ∃ t, exec .ctlWriteGrant s = .next t ∧
      (t.csa.openSet = [] ∧ t.csa.queue = [] ∧ t.csa.settling = []) ∧
      t.re = { s.re with
        slots := Vector.replicate 16 none, list := [], tickTimer := false, deferred := false
        passesDue := Vector.replicate 4 0, occasionDue := false } ∧
      (∀ d, t.record d = { s.record d with queued := 0, wanted := false, slot := none }) ∧
      (∀ d, (s.record d).slot ≠ none ∨ (s.record d).queued ≠ 0 → ∃ u ∈ t.dt.updates, u.dest = d) ∧
      (s.marksUpdates t none fun d => (s.record d).slot.isSome || (s.record d).queued != 0) ∧
      (let aborted := match s.csa.openSet with
         | [] => s
         | e :: _ => s.emit .setRejected 6 (BitVec.ofNat 16 e.dest.val)
             (setDetail 0#4 s.csa.openSet.length false false) e.word
       let rejected := s.csa.queue.foldl (fun u q => match q.entries with
         | [] => u
         | e :: _ => u.emit .setRejected 6 (BitVec.ofNat 16 e.dest.val)
             (setDetail q.label q.entries.length false true) e.word) aborted
       let abandoned := s.csa.settling.foldl (fun u e => u.emit .setAbandoned 0 (BitVec.ofNat 16 e.label.toNat)
         (abandonDetail e.entries e.remaining) (BitVec.ofNat 32 e.interrupted)) rejected
       let refused := s.xe.list.foldl (fun u r => u.emit .exchangeRefused 4 (BitVec.ofNat 16 r.plan.val)
         (originDetail r.origin) 0#32) abandoned
       t.ew = refused.ew) ∧
      t.dt = { s.dt with records := t.dt.records, updates := t.dt.updates } ∧
      t.xe = { s.xe with list := [] } ∧
      t.cbp = { s.cbp with lock := .adopting, head := .restarting } ∧
      t.pu = { s.pu with adoption := some { stage := .drain, adopted := 0, fixed := 0 } } ∧
      (holdsBytes t.mem a bytes ∧ keepsOutside s.mem t.mem a bytes.length) ∧
      t = { s with
        csa := { t.csa with nextSet := s.csa.nextSet }, re := t.re, dt := t.dt, xe := t.xe, cbp := t.cbp, pu := t.pu
        mem := t.mem, tmp := (s.movePointers .ctl).tmp, ew := t.ew }

/-- CTL_WRITE_GRANT: the bytes of the head's access are written and no others; with more to write the head stays in handling,
and after the last the head leaves the queue (R127, R136). -/
def Obligations.CtlWriteGrantWrites : Prop :=
  ∀ (s : State) (a : Nat) (bytes : List Byte) (rest : List Access), Memory.wf s.mem → s.nextGrant = some .ctl →
    s.ctlSource = some .head → s.cbp.head = .writing (.write a bytes :: rest) false →
    ∃ t, exec .ctlWriteGrant s = .next t ∧
      (holdsBytes t.mem a bytes ∧ keepsOutside s.mem t.mem a bytes.length) ∧
      (rest ≠ [] → t = { s with
        mem := t.mem, tmp := (s.movePointers .ctl).tmp, cbp := { s.cbp with head := .writing rest false } }) ∧
      (rest = [] → t = State.retireHead { s with mem := t.mem, tmp := (s.movePointers .ctl).tmp })

/-- CTL presents the ISSUED slots in the order they were latched, then a directly served read, then the head's write; a
read at an alias view of a mask word is served from the direct view, any other from its own address. CTL_READ_GRANT: an
ISSUED slot gets the bytes of one word and is COMPLETE once it has them all; a directly served read is answered DATA
then; memory is not changed (R88, R132, R133, R137). DATA carries the bytes read alone (the model's choice, log 10). -/
def Obligations.CtlReadGrantAnswers : Prop :=
  (∀ s : State, s.nextGrant = some .ctl →
    (∀ (i : ReadSlotNo) (r : ReadSlot) (got : List Byte), s.ctlSource = some (.slot i) → s.cbp.slots[i] = some r →
      r.state = .issued got →
      let part := nextRead (readAddr s.pu.params r.addr) r.size.bytes got.length
      let all := got ++ memReadBytes s.mem part.1 part.2
      exec .ctlReadGrant s = .next { s with
        tmp := (s.movePointers .ctl).tmp
        cbp := { s.cbp with slots := s.cbp.slots.set i (some { r with
          state := if r.size.bytes ≤ all.length then .complete all else .issued all }) } }) ∧
    (∀ (a : Addr) (size : Size) (got : List Byte), s.ctlSource = some .direct → s.cbp.held = some (.read a size got) →
      let part := nextRead (readAddr s.pu.params a) size.bytes got.length
      let all := got ++ memReadBytes s.mem part.1 part.2
      (size.bytes ≤ all.length → exec .ctlReadGrant s = .next { s with
        tmp := (s.movePointers .ctl).tmp
        cbp := { s.cbp with held := none, response := .data all } }) ∧
      (all.length < size.bytes → exec .ctlReadGrant s = .next { s with
        tmp := (s.movePointers .ctl).tmp
        cbp := { s.cbp with held := some (.read a size all) } }))) ∧
  (∀ s : State,
    let issued := fun i : ReadSlotNo => ∃ r got, s.cbp.slots[i] = some r ∧ r.state = .issued got
    (∀ before i after, s.cbp.latchOrder = before ++ i :: after → (∀ k ∈ before, ¬ issued k) → issued i →
      s.ctlSource = some (.slot i)) ∧
    ((∀ k ∈ s.cbp.latchOrder, ¬ issued k) →
      (∀ a size got, s.cbp.held = some (.read a size got) → s.ctlSource = some .direct) ∧
      ((∀ a size got, s.cbp.held ≠ some (.read a size got)) →
        (∀ acc todo restart, s.cbp.head = .writing (acc :: todo) restart → s.ctlSource = some .head) ∧
        ((∀ acc todo restart, s.cbp.head ≠ .writing (acc :: todo) restart) → s.ctlSource = none)))) ∧
  ∀ (p : Params) (a : Addr),
    let within := fun base : Nat =>
      a.toNat / 65536 = p.windowBase.toNat ∧ base ≤ a.toNat % 65536 ∧ a.toNat % 65536 < base + 0x30
    (∀ base : Nat, base = 0x740 ∨ base = 0x780 ∨ base = 0x7C0 → within base →
      readAddr p a = a.toNat - base + 0x700) ∧
    ((∀ base : Nat, base = 0x740 ∨ base = 0x780 ∨ base = 0x7C0 → ¬ within base) → readAddr p a = a.toNat)

/-- TBL presents an access while the table-update list holds an entry that it may write: any entry with no adoption
running, and during one those whose record is built; and each TBL_GRANT writes the current word of the oldest such
destination whole at window offset 4 d and takes its entry off the list; a deferred tick runs where that empties it (R17,
R152). A restart's adoption runs once the list has drained, so until then every entry may be written (the model's
reading, log 40); a tick owes one pass to each way with a slot (the model's reading, log 11). -/
def Obligations.TblGrantWritesCurrentWord : Prop :=
  (∀ s : State, (s.access .tbl).isSome = true ↔ ∃ e ∈ s.dt.updates, s.tblMayWrite e.dest = true) ∧
  (∀ (s : State) (d : Dest), (s.pu.adoption = none → s.tblMayWrite d = true) ∧
    ∀ a, s.pu.adoption = some a → (s.tblMayWrite d = true ↔ a.stage = .drain ∨ d.val < a.built)) ∧
  ∀ (s : State) (e : UpdateEntry) (before after : List UpdateEntry), Memory.wf s.mem → s.nextGrant = some .tbl →
    s.dt.updates = before ++ e :: after → (∀ u ∈ before, s.tblMayWrite u.dest = false) → s.tblMayWrite e.dest = true →
    let rest := before ++ after
    ∃ t, exec .tblGrant s = .next t ∧
      memReadWord t.mem (windowAddr s.pu.params (4 * e.dest.val)) = s.currentWord e.dest ∧
      keepsOutside s.mem t.mem (windowAddr s.pu.params (4 * e.dest.val)) 4 ∧
      t.dt = { s.dt with updates := rest } ∧
      (¬ (rest = [] ∧ s.re.deferred = true) → t.re = s.re) ∧
      (rest = [] ∧ s.re.deferred = true → t.re = { s.re with deferred := false, passesDue := t.re.passesDue } ∧
        ∀ w : Way, t.re.passesDue[w] = s.re.passesDue[w] + (if s.slotsOfWay w = [] then 0 else 1)) ∧
      t = { s with mem := t.mem, dt := t.dt, re := t.re, tmp := (s.movePointers .tbl).tmp }

/-- EVENT_RECORD_GRANT: the front record is written in five grants, words 1, 2, 3 and then 0 at the head's position and
then the ring word with the head advanced; at the last the head advances, the record leaves the queue and EVT_N is
asserted (R139, R140, R161). The last grant clears the mark that puts this record ahead of a rewrite (the model's choice,
log 22). -/
def Obligations.EventRecordGrants : Prop :=
  ∀ (s : State) (r : EventRecord) (rest : List EventRecord), Memory.wf s.mem → s.nextGrant = some .evt →
    s.evtSource = some .record → s.ew.queue = r :: rest →
    let position := windowAddr s.pu.params (0x8000 + 16 * s.ew.head)
    let next := (s.ew.head + 1) % s.pu.params.ringLength
    ∃ t, exec .eventRecordGrant s = .next t ∧
      (∀ a w, (s.ew.stage = 0 ∧ a = position + 4 ∧ w = r.detailA) ∨ (s.ew.stage = 1 ∧ a = position + 8 ∧ w = r.detailB) ∨
          (s.ew.stage = 2 ∧ a = position + 12 ∧ w = r.stamp) ∨
          (s.ew.stage = 3 ∧ a = position ∧
            w = BitVec.ofNat 32 (r.kind.code + r.reason.toNat * 256 + r.subject.toNat * 65536)) ∨
          (s.ew.stage = 4 ∧ a = windowAddr s.pu.params 0x900 ∧ w = ringWordOf next s.ew.tail) →
        memReadWord t.mem a = w ∧ keepsOutside s.mem t.mem a 4) ∧
      (s.ew.stage ≠ 4 → t.ew = { s.ew with stage := s.ew.stage + 1 }) ∧
      (s.ew.stage = 4 → t.ew = { s.ew with
        stage := 0, head := next, queue := rest, evtAsserted := true, recordFirst := false }) ∧
      t = { s with mem := t.mem, ew := t.ew, tmp := (s.movePointers .evt).tmp }

/-- RING_WORD_GRANT writes the ring word with head and tail as they stand, and the CMD_RING_TAIL that waits for it goes
on to its mailbox; STATUS_ZONE_GRANT writes the next of the thirteen words, the ring word composed at its grant and the
others from the snapshot, and after the last the rewrite ends; EVT presents a begun record to its end, then a pending
ring word, then a rewrite, behind the front record where it was begun again, then the next record if the ring has room
(R139, R140, R141, R143, R159). A record is begun from its first grant on, and a record goes ahead of a rewrite begun
again (the model's choices, logs 39 and 22). -/
def Obligations.RingAndStatusGrants : Prop :=
  (∀ s : State, Memory.wf s.mem → s.nextGrant = some .evt →
    (s.evtSource = some .ringWord → ∃ t, exec .ringWordGrant s = .next t ∧
      memReadWord t.mem (windowAddr s.pu.params 0x900) = ringWordOf s.ew.head s.ew.tail ∧
      keepsOutside s.mem t.mem (windowAddr s.pu.params 0x900) 4 ∧
      (s.cbp.head ≠ .ringWord → t.cbp = s.cbp) ∧
      (∀ h rest, s.cbp.head = .ringWord → s.cbp.queue = h :: rest →
        t.cbp = { s.cbp with head := .writing h.through false }) ∧
      t = { s with
        mem := t.mem, cbp := t.cbp, ew := { s.ew with ringWordDue := false }, tmp := (s.movePointers .evt).tmp }) ∧
    (∀ rw, s.evtSource = some .status → s.ew.rewrite = some rw → ∃ t, exec .statusZoneGrant s = .next t ∧
      (let a := windowAddr s.pu.params (0x900 + 4 * rw.next.val)
       (rw.next.val = 0 → memReadWord t.mem a = ringWordOf s.ew.head s.ew.tail) ∧
       (∀ i : Fin 12, rw.next.val = i.val + 1 → memReadWord t.mem a = rw.snapshot[i]) ∧
       keepsOutside s.mem t.mem a 4) ∧
      (rw.next.val = 12 → t.ew = { s.ew with rewrite := none }) ∧
      (rw.next.val < 12 → t.ew = { s.ew with rewrite := some { rw with next := rw.next + 1 } }) ∧
      t = { s with mem := t.mem, ew := t.ew, tmp := (s.movePointers .evt).tmp })) ∧
  ∀ s : State,
    let ready := s.ew.queue ≠ [] ∧ (s.ew.head + 1) % s.pu.params.ringLength ≠ s.ew.tail
    (s.ew.stage ≠ 0 → s.evtSource = some .record) ∧
    (s.ew.stage = 0 →
      (s.ew.ringWordDue = true → s.evtSource = some .ringWord) ∧
      (s.ew.ringWordDue = false →
        (s.ew.rewrite ≠ none → ¬ (s.ew.recordFirst = true ∧ ready) → s.evtSource = some .status) ∧
        (s.ew.rewrite = none ∨ (s.ew.recordFirst = true ∧ ready) →
          (ready → s.evtSource = some .record) ∧ (¬ ready → s.evtSource = none))))

/-- The arbiter takes the first position of the upper ring, from the upper pointer on, that has a request, and at the low
position the first requester of the lower ring, from the lower pointer on, that presents an access; after a grant the
upper pointer moves past the position granted and the lower pointer past a low requester granted. A requester whose
access is presented without pause is granted within six grants, and within four where all four requesters are in one
group (R136, R137). -/
def Obligations.RequesterServedWithinSixGrants : Prop :=
  (∀ s : State,
    let g := s.pu.params.groups
    let presents := fun r : Requester => (s.access r).isSome = true
    let order : List Requester := [.ctl, .tbl, .xch, .evt]
    let lower := order.filter fun r => !g.isHigh r
    let upper := (order.filter g.isHigh).map UpperPosition.requester ++ [.low]
    (∀ before after first q rest, upper = before ++ s.tmp.upper :: after →
      s.tmp.upper :: after ++ before = first ++ UpperPosition.requester q :: rest →
      (∀ r, UpperPosition.requester r ∈ first → ¬ presents r) → (.low ∈ first → ∀ r ∈ lower, ¬ presents r) → presents q →
      s.nextGrant = some q) ∧
    (∀ before after first rest lowBefore lowAfter lowFirst q lowRest, upper = before ++ s.tmp.upper :: after →
      s.tmp.upper :: after ++ before = first ++ UpperPosition.low :: rest →
      (∀ r, UpperPosition.requester r ∈ first → ¬ presents r) → lower = lowBefore ++ s.tmp.lower :: lowAfter →
      s.tmp.lower :: lowAfter ++ lowBefore = lowFirst ++ q :: lowRest → (∀ r ∈ lowFirst, ¬ presents r) → presents q →
      s.nextGrant = some q) ∧
    ((∀ r, ¬ presents r) → s.nextGrant = none) ∧
    (∀ q before after, upper = before ++ UpperPosition.requester q :: after →
      (s.movePointers q).tmp = { s.tmp with upper := (after ++ before).headD .low }) ∧
    ∀ q before after, lower = before ++ q :: after →
      (s.movePointers q).tmp = { upper := upper.headD .low, lower := (after ++ before).headD q }) ∧
  ∀ (r : Requester) (g : Groups) (run : Nat → State),
    (∀ i, (run i).pu.params.groups = g ∧ ((run i).access r).isSome = true) →
    (∀ i q, (run i).nextGrant = some q → (run (i + 1)).tmp = ((run i).movePointers q).tmp) →
    (∃ i < 6, (run i).nextGrant = some r) ∧
      ((∀ q q', g.isHigh q = g.isHigh q') → ∃ i < 4, (run i).nextGrant = some r)

/-! ### The exchange -/

/-- EXCHANGE_START: with the XE idle, no adoption and no head in handling, the first listed request of an IDLE plan
begins at step 0 and the reads under way are withdrawn, a direct read into the lowest-numbered free slot, at the end of
the order of latching, or nowhere where none is free; one of a TORN plan is refused, with the plan number as detail B for
CONTROLLER and 0 for FAULT, and the next considered in the same event, until none is left; otherwise nothing starts
(R113, R123, R132, R133). A step that cannot start one changes nothing, and the refusals fall in one event (the model's
choices, logs 5 and 20). -/
def Obligations.ExchangeStarts : Prop :=
  ∀ s : State,
    let refusedValue := fun r : ExchangeRequest => match r.origin with
      | .controller => BitVec.ofNat 32 r.plan.val
      | .fault _ => 0#32
    let refused := fun r : ExchangeRequest =>
      s.emit .exchangeRefused 2 (BitVec.ofNat 16 r.plan.val) (originDetail r.origin) (refusedValue r)
    (¬ (s.xe.running = none ∧ s.pu.adoption = none ∧ s.cbp.head = .waiting) → exec .exchangeStart s = .next s) ∧
    (s.xe.running = none → s.pu.adoption = none → s.cbp.head = .waiting →
      (s.xe.list = [] → exec .exchangeStart s = .next s) ∧
      (∀ r, s.xe.list = [r] → s.xe.conditions[r.plan] = .torn →
        exec .exchangeStart s = .next { refused r with xe := { s.xe with list := [] } }) ∧
      (∀ r rest, s.xe.list = r :: rest → s.xe.conditions[r.plan] = .torn →
        exec .exchangeStart s = exec .exchangeStart { refused r with xe := { s.xe with list := rest } }) ∧
      ((∀ r ∈ s.xe.list, s.xe.conditions[r.plan] = .torn) → exec .exchangeStart s = .next
        { s.xe.list.foldl (fun u r => u.emit .exchangeRefused 2 (BitVec.ofNat 16 r.plan.val) (originDetail r.origin)
            (refusedValue r)) s with
          xe := { s.xe with list := [] } }) ∧
      ∀ r rest, s.xe.list = r :: rest → s.xe.conditions[r.plan] = .idle → ∃ t, exec .exchangeStart s = .next t ∧
        t.xe = { s.xe with
          list := rest
          running := some { request := r, step := 0, swapped := 0, skipped := 0, stage := .header
                            keyWord := 0#32, pathWord := 0#32 } } ∧
        (∀ (i : ReadSlotNo) (q : ReadSlot), s.cbp.slots[i] = some q → (∀ got, q.state ≠ .issued got) →
          t.cbp.slots[i] = some q) ∧
        (∀ (i : ReadSlotNo) (q : ReadSlot) (got : List Byte), s.cbp.slots[i] = some q → q.state = .issued got →
          t.cbp.slots[i] = some { q with state := .latched }) ∧
        ((∀ a size got, s.cbp.held ≠ some (.read a size got)) →
          t.cbp = { s.cbp with slots := t.cbp.slots } ∧ ∀ i : ReadSlotNo, s.cbp.slots[i] = none → t.cbp.slots[i] = none) ∧
        (∀ a size got, s.cbp.held = some (.read a size got) →
          t.cbp = { s.cbp with
            slots := t.cbp.slots, latchOrder := t.cbp.latchOrder, held := none, response := .retry } ∧
          (∀ i, s.freeReadSlotNo = some i →
            t.cbp.slots[i] = some { addr := a, size := size, state := .latched, barrier := s.latestTag } ∧
            t.cbp.latchOrder = s.cbp.latchOrder ++ [i]) ∧
          (∀ i : ReadSlotNo, s.cbp.slots[i] = none → s.freeReadSlotNo ≠ some i → t.cbp.slots[i] = none) ∧
          (s.freeReadSlotNo = none → t.cbp.latchOrder = s.cbp.latchOrder)) ∧
        t = { s with xe := t.xe, cbp := t.cbp })

/-- EXCHANGE_ACCESS_GRANT: the header is written IN_PROGRESS, the key read and judged, the path word read and judged, a
kept word written back, each entry is followed by the header of the next, and after entry 15 the header is written IDLE
and EXCHANGE_DONE raised, in the order of R114 (R114, R115, R117). -/
def Obligations.ExchangeSequence : Prop :=
  (∀ x : RunningExchange,
    (∀ i : Fin 16, i.val = x.step.val + 1 → x.advance = { x with step := i, stage := .header }) ∧
    (x.step.val = 15 → x.advance = { x with stage := .final })) ∧
  ∀ (s : State) (x : RunningExchange), Memory.wf s.mem → s.pu.adoption = none → s.xe.running = some x →
    s.nextGrant = some .xch →
    let plan := x.request.plan.val
    let header := windowAddr s.pu.params (0x1400 + 4 * plan)
    let key := windowAddr s.pu.params (0x1000 + 0x80 * plan + 8 * x.step.val)
    let moved := (s.movePointers .xch).tmp
    let goesOn := fun y : RunningExchange =>
      exec .exchangeAccessGrant s = .next { s with tmp := moved, xe := { s.xe with running := some y } }
    let skips := fun (y : RunningExchange) (reason : Nat) (word : Word) =>
      exec .exchangeAccessGrant s = .next { s.emit .planEntrySkipped reason
          (BitVec.ofNat 16 (field y.keyWord 0 9)) (BitVec.ofNat 32 (plan + x.step.val * 256)) word with
        tmp := moved, xe := { s.xe with running := some { y with skipped := x.skipped + 1 }.advance } }
    (x.stage = .header → ∃ t, exec .exchangeAccessGrant s = .next t ∧
      memReadWord t.mem header = planHeader 1 x.step.val x.swapped x.skipped ∧ keepsOutside s.mem t.mem header 4 ∧
      t = { s with mem := t.mem, tmp := moved, xe := { s.xe with running := some { x with stage := .key } } }) ∧
    (x.stage = .key →
      let w := memReadWord s.mem key
      (w.getLsbD 31 = false → goesOn { x with keyWord := w }.advance) ∧
      (w.getLsbD 31 = true → field w 0 9 < 432 → goesOn { x with keyWord := w, stage := .path }) ∧
      (w.getLsbD 31 = true → 432 ≤ field w 0 9 → skips { x with keyWord := w } 1 w)) ∧
    (∀ d : Dest, x.stage = .path → field x.keyWord 0 9 = d.val →
      let w := memReadWord s.mem (key + 4)
      (pathSource d w = none → skips { x with pathWord := w } 2 w) ∧
      ∀ src, pathSource d w = some src →
        (isUturn d src = true → skips { x with pathWord := w } 3 w) ∧
        (isUturn d src = false → goesOn { x with pathWord := w, stage := .swap })) ∧
    (∀ w, x.stage = .kept w → ∃ t, exec .exchangeAccessGrant s = .next t ∧
      memReadWord t.mem (key + 4) = w ∧ keepsOutside s.mem t.mem (key + 4) 4 ∧
      t = { s with mem := t.mem, tmp := moved, xe := { s.xe with running := some x.advance } }) ∧
    (x.stage = .final → ∃ t, exec .exchangeAccessGrant s = .next t ∧
      memReadWord t.mem header = planHeader 0 0 x.swapped x.skipped ∧ keepsOutside s.mem t.mem header 4 ∧
      t.ew = (s.emit .exchangeDone 0 (BitVec.ofNat 16 plan) (originDetail x.request.origin)
        (countsDetail x.swapped x.skipped)).ew ∧
      t = { s with mem := t.mem, tmp := moved, ew := t.ew, xe := { s.xe with running := none } })

/-- EXCHANGE_SWAP: an entry whose port another destination claims is skipped with PORT_HELD and changes nothing;
otherwise the destination takes the plan's path as its intent and stands at rest on it at its effective target, without
slot or wanted flag, and its old intent word is kept for the plan; a holder displaced from the port stands dark off it,
with its wanted flag following its rest, or in its slot, phase-evaluated in place, which it leaves only at rest; the set
that the destination's slot served counts it interrupted and the set of a slot left at rest counts it settled; an
occasion of the arbiter is due where a slot is freed or the displaced holder's wanted flag is left raised; both are
marked, in ascending index; no other record or slot changes, and the tick timer, a deferred tick and the passes owed
stand (R16, R18, R43, R45, R59, R71, R72, R74, R75, R116). -/
def Obligations.SwapLeavesDestinationAtRest : Prop :=
  ∀ (s : State) (x : RunningExchange) (d : Dest) (src : Source), s.tableLaw → s.xe.running = some x → x.stage = .swap →
    field x.keyWord 0 9 = d.val → pathSource d x.pathWord = some src →
    let attn := pathAttn x.pathWord
    (∀ p c, src = .port p → s.dt.ports[p].claimant = some c → c ≠ d →
      exec .exchangeSwap s = .next { s.emit .planEntrySkipped 4 (BitVec.ofNat 16 d.val)
          (entryDetail x.request.plan x.step.val) (portDetail p c) with
        xe := { s.xe with running := some { x with skipped := x.skipped + 1 }.advance } }) ∧
    ((∀ p c, src = .port p → s.dt.ports[p].claimant = some c → c = d) → ∃ t, exec .exchangeSwap s = .next t ∧
      (let forced := s.forcedFor src
       let target := effectiveTarget d { s.record d with intentSrc := src, intentAttn := attn, forced := forced }
       t.record d = { s.record d with
         intentSrc := src, intentAttn := attn, curSrc := src, curAttn := target, forced := forced, wanted := false
         slot := none } ∧
       atRest d (t.record d) = true) ∧
      (∃ u ∈ t.dt.updates, u.dest = d) ∧
      (∀ e, e ≠ d → (∀ p, src = .port p → s.dt.ports[p].holder ≠ some e) → t.record e = s.record e) ∧
      (∀ p e, src = .port p → s.dt.ports[p].holder = some e → e ≠ d →
        (t.record e).curAttn = dark ∧ (t.record e).curSrc ≠ .port p ∧
        (t.record e).intentSrc = (s.record e).intentSrc ∧ (t.record e).intentAttn = (s.record e).intentAttn ∧
        (t.record e).blocked = (s.record e).blocked ∧ (t.record e).forced = (s.record e).forced ∧
        (t.record e).queued = (s.record e).queued ∧
        ((s.record e).slot = none → t.record e = { s.record e with
          curSrc := .none, curAttn := dark, wanted := !atRest e { s.record e with curSrc := .none, curAttn := dark } }) ∧
        (∀ n sl, (s.record e).slot = some n → s.re.slots[n] = some sl → (t.record e).wanted = (s.record e).wanted ∧
          ((t.record e).slot = none ∧ atRest e (t.record e) = true ∧ t.re.slots[n] = none ∨
            (t.record e).slot = some n ∧ ∃ goal phase, t.re.slots[n] = some { sl with goal := goal, phase := phase })) ∧
        (∀ n sl, (s.record e).slot = some n → s.re.slots[n] = some sl →
          (t.record e, t.re.slots[n]) = { s.record e with curSrc := .none, curAttn := dark }.phased e sl
            (s.otherHolder e (s.record e).intentSrc).isSome) ∧
        (∃ u ∈ t.dt.updates, u.dest = e)) ∧
      (t.re.occasionDue = true ↔ s.re.occasionDue = true ∨
        (∃ n : SlotNo, s.re.slots[n] ≠ none ∧ t.re.slots[n] = none) ∨
        ∃ p e, src = .port p ∧ s.dt.ports[p].holder = some e ∧ e ≠ d ∧ (t.record e).wanted = true) ∧
      (s.countsOff t (fun e => e == d) fun e => e != d && (s.record e).slot.isSome && (t.record e).slot.isNone) ∧
      (s.marksUpdates t none fun e => e == d || s.otherHolder d src == some e) ∧
      (s.keepsTicks t ∧ (∀ k : SlotNo, (s.record d).slot = some k → t.re.slots[k] = none) ∧
        (∀ k : SlotNo, (s.record d).slot ≠ some k → (∀ e, s.otherHolder d src = some e → (s.record e).slot ≠ some k) →
          t.re.slots[k] = s.re.slots[k]) ∧
        t.re.list = s.re.list.filter fun k => (t.re.slots[k]).isSome) ∧
      t.dt = { s.dt with records := t.dt.records, ports := t.dt.ports, updates := t.dt.updates } ∧
      (t.csa = { s.csa with settling := t.csa.settling } ∧
        (t.csa.settling.map SettlingSet.id).Sublist (s.csa.settling.map SettlingSet.id)) ∧
      s.onlyRaises t ∧
      t.xe = { s.xe with running := some { x with swapped := x.swapped + 1, stage := .kept (s.intentWord d) } } ∧
      t = { s with xe := t.xe, dt := t.dt, re := t.re, csa := t.csa, ew := t.ew })

/-! ### Adoption -/

/-- ADOPTION_ACCESS_GRANT of a mask word loads it into the MU; of a plan header takes IDLE and TORN as they are, and makes
any other state TORN with PLAN_TORN and the header written back at the next grant with its step and counts (R83, R150,
R151). PLAN_TORN is raised at the grant that reads the header (the model's choice, log 19). -/
def Obligations.AdoptionMasksAndHeaders : Prop :=
  (∀ (s : State) (a : Adoption), Memory.wf s.mem → s.nextGrant = some .xch → s.pu.adoption = some a →
    let moved := (s.movePointers .xch).tmp
    (∀ m : Fin 12, a.stage = .mask m →
      exec .adoptionAccessGrant s = .next { s with
        tmp := moved, masks := s.masks.set m (some (s.loadWord (0x700 + 4 * m.val)))
        pu := { s.pu with adoption := some { a with
          stage := if h : m.val + 1 < 12 then .mask ⟨m.val + 1, h⟩ else .path 0 } } }) ∧
    (∀ p q : Plan, a.stage = .header p → q.val = p.val + 1 →
      let w := s.loadWord (0x1400 + 4 * p.val)
      (field w 0 2 = 0 ∨ field w 0 2 = 2 →
        exec .adoptionAccessGrant s = .next { s with
          tmp := moved
          xe := { s.xe with conditions := s.xe.conditions.set p (if field w 0 2 = 0 then .idle else .torn) }
          pu := { s.pu with adoption := some { a with stage := .header q } } })) ∧
    (∀ p : Plan, a.stage = .header p →
      let w := s.loadWord (0x1400 + 4 * p.val)
      (field w 0 2 = 1 ∨ field w 0 2 = 3 →
        exec .adoptionAccessGrant s = .next { s.emit .planTorn 0 (BitVec.ofNat 16 p.val)
            (BitVec.ofNat 32 (field w 4 4)) w with
          tmp := moved, xe := { s.xe with conditions := s.xe.conditions.set p .torn }
          pu := { s.pu with adoption := some { a with stage := .tornHeader p (tornHeaderWord w) } } })) ∧
    (∀ (p q : Plan) (w : Word), a.stage = .tornHeader p w → q.val = p.val + 1 →
      ∃ t, exec .adoptionAccessGrant s = .next t ∧
        memReadWord t.mem (windowAddr s.pu.params (0x1400 + 4 * p.val)) = w ∧
        keepsOutside s.mem t.mem (windowAddr s.pu.params (0x1400 + 4 * p.val)) 4 ∧
        t = { s with
          mem := t.mem, tmp := moved, pu := { s.pu with adoption := some { a with stage := .header q } } })) ∧
  ∀ w : Word, field (tornHeaderWord w) 0 2 = 2 ∧ field (tornHeaderWord w) 4 4 = field w 4 4 ∧
    field (tornHeaderWord w) 8 8 = field w 8 8 ∧ field (tornHeaderWord w) 16 8 = field w 16 8 ∧
    field (tornHeaderWord w) 2 2 = 0 ∧ field (tornHeaderWord w) 24 8 = 0

/-- A path word is fixed for BAD_CONTENT, then UTURN, then PORT_TWICE, the first that applies. ADOPTION_ACCESS_GRANT of a
path word: one that needs no fix is adopted as found as intent and current, dark where its way is isolated; one that
needs a fix is adopted as (none, 255) with ADOPTION_FIXED and its word written at the next grant; the record's other
fields, the port map and the update list follow R150. -/
def Obligations.AdoptionPathWords : Prop :=
  (∀ (s : State) (d : Dest) (w : Word),
    let bad := pathSource d w = none ∨ (pathSource d w = some .none ∧ pathAttn w ≠ dark)
    (bad → s.fixFor d w = some (.badContent, none)) ∧
    ∀ src, pathSource d w = some src → ¬ bad →
      let uturn := isLine d = true ∧ src = .express (wayOf d)
      (uturn → s.fixFor d w = some (.uturn, none)) ∧
      (¬ uturn →
        (∀ p h, src = .port p → s.dt.ports[p].holder = some h → s.fixFor d w = some (.portTwice, some h)) ∧
        ((∀ p h, src = .port p → s.dt.ports[p].holder ≠ some h) → s.fixFor d w = none))) ∧
  ∀ (s : State) (a : Adoption) (d : Dest), Memory.wf s.mem → s.nextGrant = some .xch → s.pu.adoption = some a →
    let moved := (s.movePointers .xch).tmp
    let next : AdoptionStage := if h : d.val + 1 < 432 then .path ⟨d.val + 1, h⟩ else .header 0
    let w := s.loadWord (4 * d.val)
    (a.stage = .path d →
      (s.fixFor d w = none → ∃ t src, exec .adoptionAccessGrant s = .next t ∧ pathSource d w = some src ∧
        (let forced := s.forcedFor src
         let blocked := s.maskBit d
         t.record d =
           { intentSrc := src, intentAttn := pathAttn w, curSrc := src
             curAttn := if forced then dark else pathAttn w, blocked := blocked, forced := forced, queued := 0
             wanted := blocked && !forced && decide (pathAttn w ≠ dark), slot := none }) ∧
        (∀ e, e ≠ d → t.record e = s.record e) ∧
        (∀ p, src = .port p → t.dt.ports[p] = { holder := some d, claimant := some d }) ∧
        (∀ p, src ≠ .port p → t.dt.ports[p] = s.dt.ports[p]) ∧
        (t.currentWord d = w → t.dt.updates = s.dt.updates) ∧
        (t.currentWord d ≠ w → (∃ u ∈ t.dt.updates, u.dest = d) ∧ s.marksUpdates t none fun e => e == d) ∧
        t.dt = { s.dt with records := t.dt.records, ports := t.dt.ports, updates := t.dt.updates } ∧
        t.pu = { s.pu with adoption := some { stage := next, adopted := a.adopted + 1, fixed := a.fixed } } ∧
        t = { s with tmp := moved, dt := t.dt, re := { s.re with loads := t.re.loads }, pu := t.pu }) ∧
      (∀ reason keeper, s.fixFor d w = some (reason, keeper) → ∃ t, exec .adoptionAccessGrant s = .next t ∧
        t.record d =
          { intentSrc := .none, intentAttn := dark, curSrc := .none, curAttn := dark, blocked := s.maskBit d
            forced := false, queued := 0, wanted := false, slot := none } ∧
        (∀ e, e ≠ d → t.record e = s.record e) ∧ t.dt.ports = s.dt.ports ∧ (∃ u ∈ t.dt.updates, u.dest = d) ∧
        (s.marksUpdates t none fun e => e == d) ∧ t.dt = { s.dt with records := t.dt.records, updates := t.dt.updates } ∧
        t.ew = (s.emit .adoptionFixed reason.code (BitVec.ofNat 16 d.val) w
          (BitVec.ofNat 32 (match keeper with | some h => h.val | none => 0))).ew ∧
        t.pu = { s.pu with
          adoption := some { stage := .fixedWord d (t.currentWord d), adopted := a.adopted, fixed := a.fixed + 1 } } ∧
        t = { s with tmp := moved, dt := t.dt, re := { s.re with loads := t.re.loads }, pu := t.pu, ew := t.ew })) ∧
    (∀ v, a.stage = .fixedWord d v → ∃ t, exec .adoptionAccessGrant s = .next t ∧
      memReadWord t.mem (windowAddr s.pu.params (4 * d.val)) = v ∧
      keepsOutside s.mem t.mem (windowAddr s.pu.params (4 * d.val)) 4 ∧
      t = { s with mem := t.mem, tmp := moved, pu := { s.pu with adoption := some { a with stage := next } } })

/-- ADOPTION_START begins the adoption of a restart, with the port map emptied, when the table-update list has drained. The
grant that ends an adoption leaves plan 7 with its condition, or its torn header written, and memory else as it was; it raises
ADOPTION_DONE, sets the lock by the LOCKOUT strap, starts the tick timer, runs an occasion of the arbiter on that state, and
ends the handling of a CMD_RESTART (R48, R75, R151, R153). That an early ADOPTION_START changes nothing, the emptied map, and
the order within the last event, are the model's choices (logs 5, 21, 13 and 36). -/
def Obligations.AdoptionStartsAndEnds : Prop :=
  (∀ (s : State) (a : Adoption), s.pu.adoption = some a → a.stage = .drain →
    (s.dt.updates = [] → exec .adoptionStart s = .next { s with
      dt := { s.dt with ports := Vector.replicate 48 { holder := none, claimant := none } }
      pu := { s.pu with adoption := some { a with stage := .mask 0 } } }) ∧
    (s.dt.updates ≠ [] → exec .adoptionStart s = .next s)) ∧
  ∀ (s : State) (a : Adoption), Memory.wf s.mem → s.nextGrant = some .xch → s.pu.adoption = some a →
    let header := windowAddr s.pu.params 0x141C
    let done := s.emit .adoptionDone 0 0#16 (BitVec.ofNat 32 a.adopted) (BitVec.ofNat 32 a.fixed)
    let ended := fun (mem : List Host.Cell) (conditions : Vector PlanCondition 8) => ({ done with
      mem := mem, tmp := (s.movePointers .xch).tmp, xe := { s.xe with conditions := conditions }
      cbp := { s.cbp with lock := if s.pu.lockout then .held else .opened }
      re := { s.re with tickTimer := true, occasionDue := true }, pu := { s.pu with adoption := none } } : State)
    let ends := fun (mem : List Host.Cell) (conditions : Vector PlanCondition 8) =>
      ∃ u t, exec .arbiterOccasion (ended mem conditions) = .next u ∧ exec .adoptionAccessGrant s = .next t ∧
        (u.cbp.head ≠ .restarting → t = u) ∧ (u.cbp.head = .restarting → t = u.retireHead) ∧
        t.pu = { s.pu with adoption := none } ∧ t.cbp.lock = (if s.pu.lockout then .held else .opened) ∧
        t.re.tickTimer = true ∧ t.re.occasionDue = false ∧
        s.raisesFirst t .adoptionDone 0 0#16 (BitVec.ofNat 32 a.adopted) (BitVec.ofNat 32 a.fixed) ∧ s.onlyRaises t ∧
        t.mem = mem ∧ t.tmp = (s.movePointers .xch).tmp ∧ t.xe = { s.xe with conditions := conditions } ∧
        t.lm = s.lm ∧ t.masks = s.masks ∧ t.los = s.los ∧
        (s.cbp.head ≠ .restarting → t.cbp.head = s.cbp.head ∧ t.cbp.queue = s.cbp.queue) ∧
        (s.cbp.head = .restarting → t.cbp.head = .waiting)
    (a.stage = .header 7 → field (s.loadWord 0x141C) 0 2 = 0 → ends s.mem (s.xe.conditions.set 7 .idle)) ∧
    (a.stage = .header 7 → field (s.loadWord 0x141C) 0 2 = 2 → ends s.mem (s.xe.conditions.set 7 .torn)) ∧
    ∀ w, a.stage = .tornHeader 7 w →
      ∃ mem, memReadWord mem header = w ∧ keepsOutside s.mem mem header 4 ∧ ends mem s.xe.conditions

/-! ### Ramps -/

/-- RAMP_TICK_EXPIRY: with the table-update list empty the tick runs and every way with a slot owes one pass; with an
entry on the list it is deferred, and merges into a tick already deferred (R66, R67). A tick owes one pass to each way
with a slot as it runs (the model's reading, log 11). -/
def Obligations.RampTickRunsOrWaits : Prop :=
  ∀ s : State, s.re.tickTimer = true →
    (s.dt.updates = [] → ∃ t, exec .rampTickExpiry s = .next t ∧
      (∀ w : Way, t.re.passesDue[w] = s.re.passesDue[w] +
        (if ∃ n ∈ s.re.list, ∃ sl, s.re.slots[n] = some sl ∧ wayOf sl.dest = w then 1 else 0)) ∧
      t = { s with re := { s.re with passesDue := t.re.passesDue } }) ∧
    (s.dt.updates ≠ [] → exec .rampTickExpiry s = .next { s with re := { s.re with deferred := true } })

/-- WAY_PASS: the weight changes that a pass makes on its way sum to no more than max(F, floor(L k / 256)) for the load as
the pass begins (R62, R67, R68). A pass is one that a tick owes (the model's reading, log 11). -/
def Obligations.PassStaysWithinBudget : Prop :=
  ∀ (w : Way) (s : State), 0 < s.re.passesDue[w] → ∃ t, exec (.wayPass w) s = .next t ∧
    ((List.finRange 96).map fun n =>
        cost (s.record (lineDest w n)).curAttn (t.record (lineDest w n)).curAttn).sum
      ≤ max s.pu.params.budgetFloor (s.re.loads[w] * s.pu.params.slewFraction / 256)

/-- WAY_PASS: the first slot that the pass reaches in DIMMING or BRIGHTENING moves by at least one unit toward its goal;
only destinations in the way's slots change, no intent, flag or queued mark does, and nothing outside the table and the
event queue changes, of the tick timer, a deferred tick and the passes owed but the pass taken; an occasion of the
arbiter is due where a slot is freed (R65, R66, R68, R73, R75). The pass visits the way's slots in ramp-list order with
the budget that the visits before have left (R67). A visit moves a slot in DIMMING or BRIGHTENING by the largest step, at
most S and the distance to its goal, whose cost fits that budget, and not at all where none fits; at its goal the slot is
phase-evaluated; a visit of a slot in PORT_WAIT spends nothing, takes a port that no other destination holds at 255 and
goes on toward the effective target, and otherwise writes nothing (R54, R68, R69, R72). A visit that moves its slot or
takes a port marks its destination alone, and a slot freed at its goal counts as settled for its set (R16, R18, R43). A
pass is one that a tick owes, and each visit marks as a request of its own (the model's readings, logs 11 and 14). -/
def Obligations.PassMovesItsFirstSlot : Prop :=
  (∀ (w : Way) (s : State), s.tableLaw → 0 < s.re.passesDue[w] → 96 ≤ s.pu.params.budgetFloor →
    1 ≤ s.pu.params.maxStep → ∃ t, exec (.wayPass w) s = .next t ∧
      (∀ (waiting later : List SlotNo) (n : SlotNo) (sl : RampSlot), s.slotsOfWay w = waiting ++ n :: later →
        (∀ k ∈ waiting, ∃ q, s.re.slots[k] = some q ∧ q.phase = .portWait) → s.re.slots[n] = some sl →
        sl.phase ≠ .portWait → (s.record sl.dest).curAttn ≠ sl.goal →
        distance (t.record sl.dest).curAttn sl.goal < distance (s.record sl.dest).curAttn sl.goal) ∧
      (∀ d, (∀ n ∈ s.slotsOfWay w, ∀ sl, s.re.slots[n] = some sl → sl.dest ≠ d) → t.record d = s.record d) ∧
      (∀ d, (t.record d).intentSrc = (s.record d).intentSrc ∧ (t.record d).intentAttn = (s.record d).intentAttn ∧
        (t.record d).blocked = (s.record d).blocked ∧ (t.record d).forced = (s.record d).forced ∧
        (t.record d).queued = (s.record d).queued) ∧
      s.keepsOutsideTable t ∧ s.onlyRaises t ∧
      t.dt = { s.dt with records := t.dt.records, ports := t.dt.ports, updates := t.dt.updates } ∧
      (t.csa = { s.csa with settling := t.csa.settling } ∧
        (t.csa.settling.map SettlingSet.id).Sublist (s.csa.settling.map SettlingSet.id)) ∧
      t.re = { s.re with
        slots := t.re.slots, list := t.re.list, loads := t.re.loads, occasionDue := t.re.occasionDue
        passesDue := s.re.passesDue.set w (s.re.passesDue[w] - 1) } ∧
      s.occasionFollows t) ∧
  (∀ (w : Way) (s : State), 0 < s.re.passesDue[w] → exec (.wayPass w) s = .next
    ((s.slotsOfWay w).foldl (State.visit s.pu.params.maxStep)
      ({ s with re := { s.re with passesDue := s.re.passesDue.set w (s.re.passesDue[w] - 1) } },
        max s.pu.params.budgetFloor (s.re.loads[w] * s.pu.params.slewFraction / 256))).1) ∧
  ∀ (s : State) (n : SlotNo) (sl : RampSlot) (maxStep left : Nat), s.tableLaw → s.re.slots[n] = some sl →
    let d := sl.dest
    let r := s.record d
    let held := (s.otherHolder d r.intentSrc).isSome
    let t := (State.visit maxStep (s, left) n).1
    let leaves := (State.visit maxStep (s, left) n).2
    let fits := fun delta : Nat => 1 ≤ delta ∧ delta ≤ min maxStep (distance r.curAttn sl.goal) ∧
      cost r.curAttn (stepToward r.curAttn sl.goal delta) ≤ left
    (t.tableLaw ∧ (∀ e, e ≠ d → t.record e = s.record e) ∧ (∀ k : SlotNo, k ≠ n → t.re.slots[k] = s.re.slots[k]) ∧
      (t.re.list = if t.re.slots[n] = none then s.re.list.erase n else s.re.list) ∧ s.occasionFollows t ∧
      (s.countsOff t (fun _ => false) fun e => e == d && (t.record d).slot.isNone) ∧
      s.keepsTicks t ∧ s.keepsOutsideTable t ∧ s.onlyRaises t ∧
      t.dt = { s.dt with records := t.dt.records, ports := t.dt.ports, updates := t.dt.updates } ∧
      t.csa = { s.csa with settling := t.csa.settling } ∧
      (t.csa.settling.map SettlingSet.id).Sublist (s.csa.settling.map SettlingSet.id)) ∧
    (sl.phase = .portWait → leaves = left ∧ (held = true → t = s) ∧
      (held = false → (t.record d, t.re.slots[n]) = { r with curSrc := r.intentSrc }.towardTarget d sl ∧
        (∀ p, r.intentSrc = .port p → t.dt.ports[p].holder = some d) ∧ (∃ x ∈ t.dt.updates, x.dest = d) ∧
        s.marksUpdates t none fun e => e == d)) ∧
    (sl.phase ≠ .portWait →
      ((∀ delta, ¬ fits delta) → t = s ∧ leaves = left) ∧
      ∀ delta, fits delta → (∀ more, delta < more → ¬ fits more) →
        let a := stepToward r.curAttn sl.goal delta
        (distance r.curAttn a = delta ∧ distance a sl.goal + delta = distance r.curAttn sl.goal) ∧
        leaves + cost r.curAttn a = left ∧ (∃ x ∈ t.dt.updates, x.dest = d) ∧
        (s.marksUpdates t none fun e => e == d) ∧
        (a ≠ sl.goal → t.record d = { r with curAttn := a } ∧ t.re.slots[n] = some sl) ∧
        (a = sl.goal → (t.record d, t.re.slots[n]) = { r with curAttn := a }.phased d sl held))

/-- ARBITER_OCCASION: a head that passes the dynamic check but needs more slots than are free waits, and nothing changes;
a head that fails it leaves the queue with PORT_HELD, its queued marks removed and no intent written, and the occasion
goes on with the next head, or with the wanted destinations, as it would from the state so left, the destinations marked
joining the table-update list together at its end in ascending index; a lone head so refused with none wanted changes
nothing else (R16, R18, R37, R76, R78). A set needs a slot for each line entry whose destination holds none, that would
not be forced, and whose current differs from its source at its effective target (R76). An occasion is one noted as due,
and the order in which the marks of one occasion join the list is the model's reading (logs 12 and 14). -/
def Obligations.HeadWaitsOrIsRefused : Prop :=
  (∀ (s : State) (entries : List SetEntry), s.neededSlots entries = (entries.filter fun e =>
    let r := s.record e.dest
    let target := if e.src = .none ∨ r.blocked = true then dark else e.attn
    isLine e.dest && r.slot.isNone && !s.forcedFor e.src && !(r.curSrc == e.src && r.curAttn == target)).length) ∧
  ∀ (s : State) (q : QueuedSet) (rest : List QueuedSet), s.re.occasionDue = true → s.pu.adoption = none →
    s.csa.queue = q :: rest →
    (s.dynamicCheck q.entries = none → s.freeSlots.length < s.neededSlots q.entries →
      exec .arbiterOccasion s = .next { s with re := { s.re with occasionDue := false } }) ∧
    (∀ e p c, rest = [] → s.dynamicCheck q.entries = some (e, p, c) →
      (∀ d, isLine d = true → (s.record d).wanted = false) →
      ∃ t, exec .arbiterOccasion s = .next t ∧ t.csa = { s.csa with queue := [] } ∧
        t.ew = (s.emit .setRejected 5 (BitVec.ofNat 16 e.dest.val)
          (setDetail q.label q.entries.length false true) (portDetail p c)).ew ∧
        (∀ d, t.record d = { s.record d with
          queued := (s.record d).queued - (q.entries.map SetEntry.dest).count d }) ∧
        (∀ f ∈ q.entries, ∃ u ∈ t.dt.updates, u.dest = f.dest) ∧
        (s.marksUpdates t none fun d => (q.entries.map SetEntry.dest).contains d) ∧
        t.dt = { s.dt with records := t.dt.records, updates := t.dt.updates } ∧
        t = { s with csa := t.csa, ew := t.ew, dt := t.dt, re := { s.re with occasionDue := false } }) ∧
    ∀ e p c, s.dynamicCheck q.entries = some (e, p, c) → ∃ u t v : State,
      (∀ d, u.record d = { s.record d with
        queued := (s.record d).queued - (q.entries.map SetEntry.dest).count d }) ∧
      (∀ d, d ∈ u.dt.updates.map UpdateEntry.dest ↔
        d ∈ s.dt.updates.map UpdateEntry.dest ∨ d ∈ q.entries.map SetEntry.dest) ∧
      (s.marksUpdates u none fun d => (q.entries.map SetEntry.dest).contains d) ∧
      u = { s.emit .setRejected 5 (BitVec.ofNat 16 e.dest.val) (setDetail q.label q.entries.length false true)
          (portDetail p c) with
        csa := { s.csa with queue := rest }, dt := { s.dt with records := u.dt.records, updates := u.dt.updates } } ∧
      exec .arbiterOccasion s = .next t ∧ exec .arbiterOccasion u = .next v ∧
      (∀ d, d ∈ t.dt.updates.map UpdateEntry.dest ↔ d ∈ v.dt.updates.map UpdateEntry.dest) ∧
      (s.marksUpdates t none fun d => (v.dt.updates.map UpdateEntry.dest).contains d) ∧
      t = { v with dt := { v.dt with updates := t.dt.updates } }

/-- ARBITER_OCCASION that applies the head set: every entry's intent, forced flag and queued mark are written; a drop and
a forced line entry stand at their effective target at once, any other line entry is at rest or in a slot that serves the
set, and no wanted flag is left on them; the set is listed as settling with the number of those slots and none
interrupted, or SET_SETTLED is raised at once where there is none; the slots taken from other sets count as interrupted
there; no other destination's intent or flag changes (R38 to R42, R45). The entries are settled in entry order: a moving
entry takes the lowest-numbered slot still free, and moving and retargeted slots go to the end of the ramp list and are
phase-evaluated, a slot found at rest being freed again (R39, R40, R72, R77). With sets behind the head the occasion goes
on with the next, and then with the wanted destinations, as it would from the state so left, the destinations marked
joining the table-update list together at its end in ascending index (R16, R18, R76, R77). An occasion is one noted as
due, the order in which its marks join the list is the model's reading, and the number that names the set is the model's
own (the model's choices, logs 12, 14 and 17). -/
def Obligations.SetAppliedWhole : Prop :=
  (∀ (s : State) (q : QueuedSet), s.tableLaw → s.re.occasionDue = true → s.pu.adoption = none → s.csa.queue = [q] →
    s.dynamicCheck q.entries = none → s.neededSlots q.entries ≤ s.freeSlots.length →
    ∃ t, exec .arbiterOccasion s = .next t ∧ t.csa.queue = [] ∧ t.csa.openSet = s.csa.openSet ∧
      (∀ e ∈ q.entries,
        let r := t.record e.dest
        (r.intentSrc = e.src ∧ r.intentAttn = e.attn ∧ r.forced = s.forcedFor e.src ∧
          r.blocked = (s.record e.dest).blocked ∧ r.queued = (s.record e.dest).queued - 1 ∧ r.wanted = false) ∧
        (isLine e.dest = false ∨ r.forced = true →
          r.curSrc = e.src ∧ r.curAttn = effectiveTarget e.dest r ∧ r.slot = none) ∧
        (r.slot = none → atRest e.dest r = true) ∧
        (∀ n, r.slot = some n → ∃ sl, t.re.slots[n] = some sl ∧ sl.serves = some s.csa.nextSet) ∧
        ∃ u ∈ t.dt.updates, u.dest = e.dest) ∧
      t.csa.nextSet = s.csa.nextSet + 1 ∧
      (0 < t.servingCount s.csa.nextSet → ∃ before, t.csa.settling = before ++
        [{ id := s.csa.nextSet, label := q.label, entries := q.entries.length
           remaining := t.servingCount s.csa.nextSet, interrupted := 0 }]) ∧
      (t.servingCount s.csa.nextSet = 0 → ∃ u : State, s.onlyRaises u ∧
        t.ew = (u.emit .setSettled 0 (BitVec.ofNat 16 q.label.toNat) (BitVec.ofNat 32 q.entries.length) 0#32).ew) ∧
      (s.interruptsSets t fun d => (q.entries.map SetEntry.dest).contains d) ∧
      (∀ d, d ∉ q.entries.map SetEntry.dest →
        (t.record d).intentSrc = (s.record d).intentSrc ∧ (t.record d).intentAttn = (s.record d).intentAttn ∧
        (t.record d).blocked = (s.record d).blocked ∧ (t.record d).forced = (s.record d).forced ∧
        (t.record d).queued = (s.record d).queued) ∧
      (s.marksUpdates t none fun d =>
        (q.entries.map SetEntry.dest).contains d || ((s.record d).wanted && !(t.record d).wanted)) ∧
      t.dt = { s.dt with records := t.dt.records, ports := t.dt.ports, updates := t.dt.updates } ∧
      (s.keepsTicks t ∧ t.re.occasionDue = false) ∧ s.keepsOutsideTable t ∧ s.onlyRaises t) ∧
  ∀ (s : State) (q : QueuedSet) (rest : List QueuedSet), s.tableLaw → s.re.occasionDue = true → s.pu.adoption = none →
    s.csa.queue = q :: rest → s.dynamicCheck q.entries = none → s.neededSlots q.entries ≤ s.freeSlots.length →
    let dests := q.entries.map SetEntry.dest
    let id := s.csa.nextSet
    ∃ (run : Nat → State) (u t v : State),
      (∀ e ∈ q.entries, (run 0).record e.dest = { s.record e.dest with
        intentSrc := e.src, intentAttn := e.attn, forced := s.forcedFor e.src, queued := (s.record e.dest).queued - 1 }) ∧
      (∀ d, d ∉ dests → (run 0).record d = s.record d) ∧ (run 0).re = s.re ∧
      (∀ i ≤ q.entries.length, ∀ p d, (run i).dt.ports[p].holder = some d ↔ ((run i).record d).curSrc = .port p) ∧
      (∀ i e, q.entries[i]? = some e → (run i).settlesEntry (run (i + 1)) id e) ∧
      (let last := run q.entries.length
       (∀ d, u.record d = last.record d) ∧ u.re = { s.re with
         slots := last.re.slots, list := last.re.list, loads := u.re.loads, occasionDue := true }) ∧
      (∀ d, d ∈ u.dt.updates.map UpdateEntry.dest ↔ d ∈ s.dt.updates.map UpdateEntry.dest ∨ d ∈ dests) ∧
      (s.marksUpdates u none fun d => dests.contains d) ∧
      (u.csa.queue = rest ∧ u.csa.openSet = s.csa.openSet ∧ u.csa.nextSet = id + 1 ∧
        (0 < u.servingCount id → ∃ before, (before.map SettlingSet.id).Sublist (s.csa.settling.map SettlingSet.id) ∧
          u.csa.settling = before ++
            [{ id := id, label := q.label, entries := q.entries.length
               remaining := u.servingCount id, interrupted := 0 }]) ∧
        (u.servingCount id = 0 → (u.csa.settling.map SettlingSet.id).Sublist (s.csa.settling.map SettlingSet.id) ∧
          ∃ w : State, s.onlyRaises w ∧
          u.ew = (w.emit .setSettled 0 (BitVec.ofNat 16 q.label.toNat) (BitVec.ofNat 32 q.entries.length) 0#32).ew)) ∧
      (s.interruptsSets u fun d => dests.contains d) ∧ u.tableLaw ∧ s.keepsOutsideTable u ∧ s.onlyRaises u ∧
      u.dt = { s.dt with records := u.dt.records, ports := u.dt.ports, updates := u.dt.updates } ∧
      exec .arbiterOccasion s = .next t ∧ exec .arbiterOccasion u = .next v ∧
      (∀ d, d ∈ t.dt.updates.map UpdateEntry.dest ↔ d ∈ v.dt.updates.map UpdateEntry.dest) ∧
      (s.marksUpdates t none fun d => (v.dt.updates.map UpdateEntry.dest).contains d) ∧
      t = { v with dt := { v.dt with updates := t.dt.updates } }

/-- ARBITER_OCCASION with the set queue empty: wanted destinations are admitted in ascending index while a slot is free;
each one admitted loses its flag and is phase-evaluated in the lowest-numbered slot then free, those that do not leave
their slot at once hold the lowest-numbered free slots, in their order at the end of the ramp list, one left wanting
leaves no slot free and no later one admitted, no intent, flag or queued mark changes, no slot occupied before changes,
the destinations admitted join the table-update list in ascending index, and no set, no event record and no tick is
touched (R16, R18, R71, R72, R74, R79). An occasion is one noted as due, and that its marks join the list together is the
model's reading (the model's choices, logs 12 and 14). -/
def Obligations.WantedAdmittedInOrder : Prop :=
  ∀ s : State, s.tableLaw → s.re.occasionDue = true → s.pu.adoption = none → s.csa.queue = [] →
    ∃ t, exec .arbiterOccasion s = .next t ∧ t.re.occasionDue = false ∧
      (∀ d, (t.record d).wanted = true → (s.record d).wanted = true ∧ t.freeSlots = [] ∧
        (t.record d) = s.record d ∧ ∀ e, d < e → (s.record e).wanted = true → (t.record e).wanted = true) ∧
      (∀ d, (s.record d).wanted = true → (t.record d).wanted = false →
        (∃ u ∈ t.dt.updates, u.dest = d) ∧ ((t.record d).slot = none → atRest d (t.record d) = true)) ∧
      (∀ d, (s.record d).wanted = false → t.record d = s.record d) ∧
      (∀ d, (t.record d).intentSrc = (s.record d).intentSrc ∧ (t.record d).intentAttn = (s.record d).intentAttn ∧
        (t.record d).blocked = (s.record d).blocked ∧ (t.record d).forced = (s.record d).forced ∧
        (t.record d).queued = (s.record d).queued) ∧
      (let taken := allDests.filter fun d => (s.record d).wanted && (t.record d).slot.isSome
       taken.map (fun d => (t.record d).slot) = (s.freeSlots.take taken.length).map some ∧
       t.re.list = s.re.list ++ s.freeSlots.take taken.length) ∧
      (let due := allDests.filter fun d => (s.record d).wanted
       ∃ run : Nat → State, (∀ d, (run 0).record d = s.record d) ∧ (run 0).re = s.re ∧
         (∀ i ≤ due.length, ∀ p d, (run i).dt.ports[p].holder = some d ↔ ((run i).record d).curSrc = .port p) ∧
         (∀ i d, due[i]? = some d → (run i).admitsWanted (run (i + 1)) d) ∧
         (∀ d, t.record d = ((run due.length).record d)) ∧
         t.re.slots = (run due.length).re.slots ∧ t.re.list = (run due.length).re.list) ∧
      (s.marksUpdates t none fun d => (s.record d).wanted && !(t.record d).wanted) ∧
      t.dt = { s.dt with records := t.dt.records, ports := t.dt.ports, updates := t.dt.updates } ∧
      (s.keepsTicks t ∧ ∀ n : SlotNo, s.re.slots[n] ≠ none → t.re.slots[n] = s.re.slots[n]) ∧
      s.re.list <+: t.re.list ∧ s.keepsOutsideTable t ∧ t.csa = s.csa ∧ t.ew = s.ew

/-- The weight table: w(A) is the integer nearest to 4096 x 10^(-A/100), halves up, for A in 0-254 and 0 for 255; it falls as
A rises, by at most 93 between neighbours and by 93 from 0 to 1; the cost is the same in either direction (R62). -/
def Obligations.WeightsAreNearest : Prop :=
  (∀ a : Attn, a ≠ 255#8 →
    (2 * weight a - 1) ^ 100 * 10 ^ a.toNat ≤ 8192 ^ 100 ∧ 8192 ^ 100 < (2 * weight a + 1) ^ 100 * 10 ^ a.toNat) ∧
  weight 255#8 = 0 ∧ weight 254#8 = 12 ∧
  (∀ a : Attn, a ≠ 255#8 → weight (a + 1#8) ≤ weight a ∧ weight a - weight (a + 1#8) ≤ 93) ∧
  weight 0#8 - weight 1#8 = 93 ∧
  ∀ a b : Attn, cost a b = cost b a ∧ (cost a b : Int) = |(weight b : Int) - (weight a : Int)|

/-! ### Light -/

/-- CHECK_INTERVAL_EXPIRY owes each way one evaluation and begins the status zone's rewrite from a snapshot of the
part-state word, the CSA and RE word, the dropped count, the timebase, the ways and the loads, the front record going
first where a rewrite in hand is begun again and the ring has room; LOS_CHANGE gives the line its level and, once the LM
watches, sets the way's latch by its mode (R94, R95, R140, R143, R158). An evaluation taken ahead of the snapshot is not
owed again, and a change to the present level is no edge (the model's choices, logs 9 and 31); that mark is the model's
(log 22). -/
def Obligations.CheckIntervalAndLosChange : Prop :=
  (∀ s : State, s.lm.checkTimer = true → ∃ t, exec .checkIntervalExpiry s = .next t ∧
    (∀ w : Way, t.lm.evalsDue[w] = s.lm.evalsDue[w] + (if s.lm.evalAhead[w] then 0 else 1) ∧ t.lm.evalAhead[w] = false) ∧
    t.lm = { s.lm with evalsDue := t.lm.evalsDue, evalAhead := t.lm.evalAhead } ∧
    (∃ rw, t.ew.rewrite = some rw ∧ rw.next = 0 ∧
      rw.snapshot[0] = BitVec.ofNat 32 (s.cbp.lock.code + s.pu.outcome.code * 16 + s.xe.list.length * 65536 +
        (match s.xe.running with | some x => 256 + x.request.plan.val * 4096 | none => 0)) ∧
      rw.snapshot[1] = BitVec.ofNat 32 (s.csa.openSet.length + s.csa.queue.length * 256 + s.freeSlots.length * 65536 +
        s.csa.settling.length * 16777216) ∧
      rw.snapshot[2] = BitVec.ofNat 32 s.ew.dropped ∧ rw.snapshot[3] = s.ew.timebase ∧
      (∀ w : Way, rw.snapshot[4 + w.val]'(by omega) = BitVec.ofNat 32 (s.lm.ways[w].state.code +
        s.lm.ways[w].counter * 256 + s.lm.ways[w].recovery * 65536)) ∧
      ∀ w : Way, rw.snapshot[8 + w.val]'(by omega) = BitVec.ofNat 32 s.re.loads[w]) ∧
    (t.ew.recordFirst = true ↔ s.ew.rewrite ≠ none ∧ s.ew.queue ≠ [] ∧
      (s.ew.head + 1) % s.pu.params.ringLength ≠ s.ew.tail) ∧
    t = { s with lm := t.lm, ew := { s.ew with rewrite := t.ew.rewrite, recordFirst := t.ew.recordFirst } }) ∧
  ∀ (w : Way) (level : Bool) (s : State), ∃ t, exec (.losChange w level) s = .next t ∧
    t.los = s.los.set w level ∧
    (s.lm.watching = false → t.lm = s.lm) ∧
    (s.lm.watching = true →
      let before := s.los[w] != s.pu.params.losActiveLow[w]
      let now := level != s.pu.params.losActiveLow[w]
      t.lm = { s.lm with ways := s.lm.ways.set w { s.lm.ways[w] with latch := s.lm.ways[w].latch ||
        (match s.pu.params.losMode[w] with | .level => now | .edge => now && !before) } }) ∧
    t = { s with los := t.los, lm := t.lm }

/-- WAY_EVALUATION in CLEAR, WARNING or DEGRADED takes one evaluation: a lossy interval raises the fault counter by 5 to
at most 200, a clean one lowers it by 1; the state is the one whose range holds it, each change of state raises
WAY_STATE, entry to CLEAR clears plan-requested and entry to DEGRADED sets it where the way has a plan and calls that
plan: merged with a listed or the running exchange, refused where it is TORN, and otherwise listed behind the fault
requests and ahead of the controller request, its record after the WAY_STATE (R94 to R98, R102, R111). An evaluation is
one owed, or taken ahead of its expiry (the model's reading, log 9). -/
def Obligations.ServingWayFollowsItsCounter : Prop :=
  ∀ (w : Way) (s : State), s.wayLaw → s.lm.checkTimer = true → (0 < s.lm.evalsDue[w] ∨ s.lm.evalAhead[w] = false) →
    s.lm.ways[w].state.holdsDark = false →
    let r := s.lm.ways[w]
    let c := if r.latch then min 200 (r.counter + 5) else r.counter - 1
    let st : WayState := if c < 40 then .clear else if c < 100 then .warning else if c < 200 then .degraded else .isolated
    ∃ t, exec (.wayEvaluation w) s = .next t ∧
      t.lm.ways[w] =
        { latch := s.pu.params.losMode[w] == .level && (s.los[w] != s.pu.params.losActiveLow[w])
          state := st, counter := c, recovery := 0
          planRequested :=
            if st = r.state then r.planRequested
            else if st = .clear then false
            else r.planRequested || (st == .degraded && (s.pu.params.plan[w]).isSome) } ∧
      (∀ k : Way, k ≠ w → t.lm.ways[k] = s.lm.ways[k]) ∧
      (st ≠ r.state → s.raisesFirst t .wayState 0 (BitVec.ofNat 16 w.val)
        (BitVec.ofNat 32 (r.state.code + st.code * 256)) (BitVec.ofNat 32 c)) ∧
      (st = r.state → t.ew = s.ew) ∧ s.onlyRaises t ∧ s.takesEvaluation t w ∧
      (st ≠ .isolated → t.dt = s.dt ∧ t.re = s.re ∧ t.csa = s.csa) ∧
      (let raised := if st = r.state then s else s.emit .wayState 0 (BitVec.ofNat 16 w.val)
         (BitVec.ofNat 32 (r.state.code + st.code * 256)) (BitVec.ofNat 32 c)
       (st ≠ .isolated → (st = r.state ∨ st ≠ .degraded ∨ s.pu.params.plan[w] = none ∨ r.planRequested = true) →
         t.xe = s.xe ∧ t.ew = raised.ew) ∧
       ∀ p, st = .degraded → st ≠ r.state → s.pu.params.plan[w] = some p → r.planRequested = false →
         let merged := fun q : ExchangeRequest => fun running : Bool =>
           t.xe = s.xe ∧ t.ew = (raised.emit .exchangeMerged 0 (BitVec.ofNat 16 p.val)
             (originDetail (.fault w)) (mergedDetail running q.origin)).ew
         (∀ before q after, s.xe.list = before ++ q :: after → (∀ b ∈ before, b.plan ≠ p) → q.plan = p →
           merged q false) ∧
         ((∀ q ∈ s.xe.list, q.plan ≠ p) →
           (∀ x, s.xe.running = some x → x.request.plan = p → merged x.request true) ∧
           ((∀ x, s.xe.running = some x → x.request.plan ≠ p) →
             (s.xe.conditions[p] = .torn → t.xe = s.xe ∧ t.ew = (raised.emit .exchangeRefused 2
               (BitVec.ofNat 16 p.val) (originDetail (.fault w)) 0#32).ew) ∧
             (s.xe.conditions[p] = .idle → t.ew = raised.ew ∧
               ∀ faults rest, s.xe.list = faults ++ rest → (∀ q ∈ faults, q.origin ≠ .controller) →
                 (∀ q, rest.head? = some q → q.origin = .controller) →
                 t.xe = { s.xe with list := faults ++ { origin := .fault w, plan := p } :: rest })))) ∧
      (st = .isolated → t.xe = s.xe) ∧
      t = { s with lm := t.lm, ew := t.ew, dt := t.dt, re := t.re, csa := t.csa, xe := t.xe }

/-- WAY_EVALUATION that isolates a way: its isolated indication is set and every destination whose intent source is the
way is forced to (intent source, 255) without slot or wanted flag and put on the table-update list in ascending index,
or, while an adoption has yet to build its record, only flagged and listed; no other record or slot changes; the add-port
map loses the forced destinations as holders; the sets whose slots are lost count them interrupted and are recorded after
the WAY_STATE where they settle; an occasion of the arbiter is due where a slot is freed (R7, R8, R16, R18, R45, R50,
R58, R71, R74, R75, R99, R152). An evaluation is one owed, or taken ahead of its expiry (the model's reading, log 9). -/
def Obligations.IsolationForcesDark : Prop :=
  ∀ (w : Way) (s : State), s.wayLaw → s.tableLaw → s.lm.checkTimer = true →
    (0 < s.lm.evalsDue[w] ∨ s.lm.evalAhead[w] = false) → s.lm.ways[w].state = .degraded → s.lm.ways[w].latch = true →
    195 ≤ s.lm.ways[w].counter →
    ∃ t, exec (.wayEvaluation w) s = .next t ∧ t.lm.ways[w].state = .isolated ∧ t.lm.ways[w].counter = 200 ∧
      (∀ k : Way, t.dt.isolated[k] = (s.dt.isolated[k] || k == w)) ∧
      (∀ d, (s.record d).intentSrc.feed = some w →
        t.record d = (if s.isBuilt d then { s.record d with
            curSrc := (s.record d).intentSrc, curAttn := dark, forced := true, wanted := false, slot := none }
          else { s.record d with forced := true }) ∧
        ∃ u ∈ t.dt.updates, u.dest = d) ∧
      (∀ d, (s.record d).intentSrc.feed ≠ some w → t.record d = s.record d) ∧
      s.raisesFirst t .wayState 0 (BitVec.ofNat 16 w.val) 0x302#32 200#32 ∧ s.onlyRaises t ∧ s.takesEvaluation t w ∧
      (s.interruptsSets t fun d => (s.record d).intentSrc.feed == some w) ∧ s.occasionFollows t ∧
      (s.marksUpdates t none fun d => (s.record d).intentSrc.feed == some w) ∧
      (s.keepsTicks t ∧ (∀ n : SlotNo, s.re.slots[n] = none → t.re.slots[n] = none) ∧
        (∀ (n : SlotNo) (sl : RampSlot), s.re.slots[n] = some sl →
          t.re.slots[n] = if (s.record sl.dest).intentSrc.feed = some w then none else some sl) ∧
        t.re.list = s.re.list.filter fun n => (t.re.slots[n]).isSome) ∧
      (∀ p : Port, t.dt.ports[p] = { s.dt.ports[p] with
        holder := s.dt.ports[p].holder.filter fun d => !(s.isBuilt d && (s.record d).intentSrc.feed == some w) }) ∧
      (t.csa = { s.csa with settling := t.csa.settling } ∧
        (t.csa.settling.map SettlingSet.id).Sublist (s.csa.settling.map SettlingSet.id)) ∧
      t = { s with lm := t.lm, ew := t.ew, dt := t.dt, re := t.re, csa := t.csa }

/-- WAY_EVALUATION in ISOLATED takes one evaluation and clears the loss latch, which an active line of a LEVEL way sets
again: a lossy interval sets the recovery count to 0; a clean one raises it; at 150 the way enters AWAIT_RELEASE under
manual recovery, its plan-requested indication kept in these three, and otherwise CLEAR with its WAY_STATE alone, its
destinations unforced and listed, drops written to their effective target and line destinations wanted if not at rest,
but for those whose record an adoption has yet to build, with an occasion of the arbiter due where a flag is raised (R9,
R16, R18, R71, R74, R75, R94, R95, R96, R98, R100, R104, R152). An evaluation is one owed, or taken ahead of its expiry
(the model's reading, log 9). -/
def Obligations.IsolatedWayRecovers : Prop :=
  ∀ (w : Way) (s : State), s.wayLaw → s.lm.checkTimer = true → (0 < s.lm.evalsDue[w] ∨ s.lm.evalAhead[w] = false) →
    s.lm.ways[w].state = .isolated →
    let r := s.lm.ways[w]
    let latch := s.pu.params.losMode[w] == .level && (s.los[w] != s.pu.params.losActiveLow[w])
    ∃ t, exec (.wayEvaluation w) s = .next t ∧
      (∀ k : Way, k ≠ w → t.lm.ways[k] = s.lm.ways[k] ∧ t.dt.isolated[k] = s.dt.isolated[k]) ∧
      s.takesEvaluation t w ∧
      (r.latch = true → t.lm.ways[w].state = .isolated ∧ t.lm.ways[w].counter = 200 ∧ t.lm.ways[w].recovery = 0 ∧
        t.lm.ways[w] = { r with latch := latch, recovery := 0 } ∧ t = { s with lm := t.lm }) ∧
      (r.latch = false → r.recovery < 149 → t.lm.ways[w].state = .isolated ∧ t.lm.ways[w].counter = 200 ∧
        t.lm.ways[w].recovery = r.recovery + 1 ∧
        t.lm.ways[w] = { r with latch := latch, recovery := r.recovery + 1 } ∧ t = { s with lm := t.lm }) ∧
      (r.latch = false → r.recovery = 149 → s.pu.params.manual[w] = true →
        t.lm.ways[w].state = .awaitRelease ∧ t.lm.ways[w].counter = 200 ∧ t.lm.ways[w].recovery = 150 ∧
        t.lm.ways[w] = { r with latch := latch, state := .awaitRelease, recovery := 150 } ∧
        s.raisesFirst t .wayState 0 (BitVec.ofNat 16 w.val) 0x403#32 0x96C8#32 ∧
        t.ew = (s.emit .wayState 0 (BitVec.ofNat 16 w.val) 0x403#32 0x96C8#32).ew ∧
        t = { s with lm := t.lm, ew := t.ew }) ∧
      (r.latch = false → r.recovery = 149 → s.pu.params.manual[w] = false →
        t.lm.ways[w].state = .clear ∧ t.lm.ways[w].counter = 0 ∧ t.lm.ways[w].recovery = 0 ∧
        t.lm.ways[w].planRequested = false ∧ t.dt.isolated[w] = false ∧
        t.lm.ways[w] = { latch := latch, state := .clear, counter := 0, recovery := 0, planRequested := false } ∧
        s.raisesFirst t .wayState 0 (BitVec.ofNat 16 w.val) 3#32 0#32 ∧
        t.ew = (s.emit .wayState 0 (BitVec.ofNat 16 w.val) 3#32 0#32).ew ∧
        (∀ d, (s.record d).intentSrc.feed = some w →
          (t.record d).forced = false ∧ ∃ u ∈ t.dt.updates, u.dest = d) ∧
        (s.tableLaw → ∀ d, (s.record d).intentSrc.feed = some w →
          t.record d = if s.isBuilt d then { s.record d with
              forced := false
              curAttn := if isLine d then (s.record d).curAttn else effectiveTarget d { s.record d with forced := false }
              curSrc := if isLine d then (s.record d).curSrc else (s.record d).intentSrc
              wanted := isLine d && !atRest d { s.record d with forced := false } }
            else { s.record d with forced := false }) ∧
        (∀ d, (s.record d).intentSrc.feed ≠ some w → t.record d = s.record d) ∧
        (s.marksUpdates t none fun d => (s.record d).intentSrc.feed == some w) ∧ (s.tableLaw → t.dt.ports = s.dt.ports) ∧
        t.re = { s.re with occasionDue := t.re.occasionDue } ∧ s.occasionFollows t ∧
        t = { s with lm := t.lm, ew := t.ew, dt := t.dt, re := t.re })

/-- A way in AWAIT_RELEASE keeps counter 200 and recovery count 150 through clean intervals; a lossy interval returns it
to ISOLATED with recovery count 0 and WAY_STATE and no request to the DT; its plan-requested indication is kept, and its
loss latch is cleared, an active line of a LEVEL way setting it again; CMD_RELEASE naming it moves it to CLEAR (R94, R96,
R98, R101). An evaluation is one owed, or taken ahead of its expiry (the model's reading, log 9). -/
def Obligations.AwaitReleaseWaitsForTheHost : Prop :=
  (∀ (w : Way) (s : State), s.wayLaw → s.lm.checkTimer = true → (0 < s.lm.evalsDue[w] ∨ s.lm.evalAhead[w] = false) →
    s.lm.ways[w].state = .awaitRelease →
    let latch := s.pu.params.losMode[w] == .level && (s.los[w] != s.pu.params.losActiveLow[w])
    ∃ t, exec (.wayEvaluation w) s = .next t ∧ (∀ k : Way, k ≠ w → t.lm.ways[k] = s.lm.ways[k]) ∧
      s.takesEvaluation t w ∧
      (s.lm.ways[w].latch = false → t.lm.ways[w] = { s.lm.ways[w] with latch := latch } ∧
        t.lm.ways[w].counter = 200 ∧ t.lm.ways[w].recovery = 150 ∧ t = { s with lm := t.lm }) ∧
      (s.lm.ways[w].latch = true →
        t.lm.ways[w] = { s.lm.ways[w] with state := .isolated, recovery := 0, latch := latch } ∧
        t = { s with
          lm := t.lm
          ew := (s.emit .wayState 0 (BitVec.ofNat 16 w.val) 0x304#32 200#32).ew })) ∧
  ∀ (w : Way) (s : State) (h : PostedWrite), s.commandToTake 3 = some h → h.data.toNat = w.val →
    s.lm.ways[w].state = .awaitRelease → ∃ t, exec .cmdRelease s = .next t ∧ t.lm.ways[w].state = .clear

/-! ### Laws that every step keeps -/

/-- Every law of a safe run holds of the state after reset. The state after reset is the model's choice where the spec
gives no value (log 2). -/
def Obligations.ResetKeepsEveryLaw : Prop :=
  State.reset.preloadLaw ∧ Memory.wf State.reset.mem ∧ State.reset.ringLaw ∧ State.reset.loadLaw ∧
    State.reset.wayLaw ∧ State.reset.readLaw ∧ State.reset.exchangeLaw ∧ State.reset.tableLaw ∧ State.reset.imageLaw

/-- Until preload ends the part stands as a hard reset leaves it, whatever command comes, but for the memory, the LOS
lines, the timebase, the response, the straps' samples and the ROM lines (R124, R145). The settings and the preload
outcome stand at the values of State.reset till then, which no rule gives (the model's choice, log 2). -/
def Obligations.NothingMovesBeforePreloadEnds : Prop :=
  ∀ s t : State, s.preloadLaw → step s = .next t → t.preloadLaw

/-- Every step keeps table memory in its canonical form. An unlisted byte reads 0x00 (the model's choice, log 1). -/
def Obligations.MemoryStaysCanonical : Prop :=
  ∀ s t : State, Memory.wf s.mem → step s = .next t → Memory.wf t.mem

/-- Every step keeps head and tail inside the ring, never begins a record that would make the head equal the tail, keeps
EVT_N asserted exactly while head differs from tail, and keeps the event queue to eight records and the dropped count to
65535; a record raised joins the queue with the timebase as its stamp, or, with eight queued, is dropped and counted, the
count standing at 65535 (section 9.3, R138 to R141). -/
def Obligations.InterruptFollowsTheRing : Prop :=
  (∀ s t : State, s.preloadLaw → s.ringLaw → step s = .next t → t.ringLaw) ∧
  ∀ (s : State) (kind : RecordKind) (reason : Nat) (subject : BitVec 16) (a b : Word),
    (s.ew.queue.length < 8 → s.emit kind reason subject a b = { s with ew := { s.ew with queue := s.ew.queue ++
      [{ kind := kind, reason := BitVec.ofNat 8 reason, subject := subject, detailA := a, detailB := b
         stamp := s.ew.timebase }] } }) ∧
    (8 ≤ s.ew.queue.length → s.emit kind reason subject a b =
      { s with ew := { s.ew with dropped := if s.ew.dropped < 65535 then s.ew.dropped + 1 else s.ew.dropped } })

/-- Every step keeps each way's load equal to the sum of its line destinations' contributions, and a load so kept never
exceeds 393,216 (R63). -/
def Obligations.LoadsFollowTheCurrents : Prop :=
  (∀ s t : State, s.loadLaw → step s = .next t → t.loadLaw) ∧
    ∀ (s : State) (w : Way), s.loadLaw → s.re.loads[w] ≤ 393216

/-- Every step keeps each way's counts in the range of its state and the DT's isolated indication set exactly in ISOLATED and
AWAIT_RELEASE (R7, R96, R97, R100, R101). -/
def Obligations.WaysKeepTheirRanges : Prop :=
  ∀ s t : State, s.wayLaw → step s = .next t → t.wayLaw

/-- Every step keeps each read that has been issued or holds data behind every write posted before it and behind the
table writes that their handling makes, no read under way while an exchange runs, and at most eight writes posted (R120,
R126, R132, R133). Sequence numbers are kept as a count (the model's choice, log 16). -/
def Obligations.ReadsStayBehindWrites : Prop :=
  ∀ s t : State, s.readLaw → step s = .next t → t.readLaw

/-- Every step keeps the exchange request list to at most five requests, no plan twice, and the controller request last
(R110, R111, R112). -/
def Obligations.ExchangeListStaysInBounds : Prop :=
  ∀ s t : State, s.preloadLaw → s.exchangeLaw → step s = .next t → t.exchangeLaw

/-- Every step keeps the table laws, among them the bounds of the open set and the set queue, a destination's queued
marks as the count of the queued sets that name it, a settling set's remaining count as the number of slots that serve
it, and a DIMMING slot's goal darker and a BRIGHTENING slot's goal brighter than its destination, and a record that an
adoption under way has built having its current source equal to its intent source; and with no adoption running they say
that each add port is the intent source of at most one destination and the current source of at most one, that no line
destination is fed from its own way, that source none is dark, and that a destination in PORT_WAIT has current source
none (R10, R21, R23, R34, R42, R72, R150). Applied sets are named by a counter of the model's own (log 17). -/
def Obligations.TableLawsAreKept : Prop :=
  (∀ s t : State, s.preloadLaw → s.tableLaw → step s = .next t → t.tableLaw) ∧
  ∀ s : State, s.tableLaw → s.pu.adoption = none →
    (∀ p d e, (s.record d).intentSrc = .port p → (s.record e).intentSrc = .port p → d = e) ∧
    (∀ p d e, (s.record d).curSrc = .port p → (s.record e).curSrc = .port p → d = e) ∧
    (∀ d, isLine d = true → (s.record d).intentSrc ≠ .express (wayOf d) ∧ (s.record d).curSrc ≠ .express (wayOf d)) ∧
    (∀ d, (s.record d).curSrc = .none → (s.record d).curAttn = dark) ∧
    ∀ d n sl, (s.record d).slot = some n → s.re.slots[n] = some sl → sl.phase = .portWait →
      (s.record d).curSrc = .none

/-- Every step keeps table memory in step with the table: a destination not on the table-update list has, in memory, a
path word equal to the current word of its record; a line destination's blocked flag is its mask bit but for requests of
a mask write still to be sent; each mask word in memory is the MU's but for one whose write is in hand; and the posted write
queue is not empty while its head is in handling (R6, R16, R87, R88, R127). That each request is a step of its own is the
model's reading (log 37). -/
def Obligations.MemoryFollowsTheTable : Prop :=
  ∀ s t : State, s.preloadLaw → Memory.wf s.mem → s.tableLaw → s.imageLaw → step s = .next t → t.imageLaw

/-- While a destination's blocked or forced flag is set, no command but a hard reset or an adoption's grant lowers its current
attenuation (R22). -/
def Obligations.FlaggedNeverBrightens : Prop :=
  ∀ (c : Instr) (s t : State) (d : Dest), s.preloadLaw → s.tableLaw → exec c s = .next t →
    (∀ u, c ≠ .resetAssert u) → c ≠ .adoptionAccessGrant → (s.record d).flagged → (t.record d).flagged →
    (s.record d).curAttn.toNat ≤ (t.record d).curAttn.toNat
end

