-- ==== Sys2Proof/Laws/Memory.lean ====
section
/-! SUPPORT. Table memory: every memory operation keeps the canonical form, a byte written reads back, and every other byte
reads as before. -/

namespace Sys2Proof.Machine

theorem memory_wf_nil : Memory.wf [] := ⟨List.Pairwise.nil, by simp⟩

theorem memory_wf_cons {c : Host.Cell} {m : List Host.Cell} :
    Memory.wf (c :: m) ↔ (∀ y ∈ m, c.1 < y.1) ∧ c.2 ≠ Config.unwrittenByte ∧ Memory.wf m := by
  simp only [Memory.wf, List.pairwise_cons, List.mem_cons, forall_eq_or_imp]
  tauto

/-- Every address that a memory written at `a` lists is `a` or was listed. -/
theorem memWrite_addresses {m : List Host.Cell} {a : Nat} {b : Byte} :
    ∀ y ∈ memWrite m a b, y.1 = a ∨ ∃ z ∈ m, z.1 = y.1 := by
  induction m with
  | nil => intro y hy; simp only [memWrite] at hy; split at hy <;> simp_all
  | cons c rest ih =>
    obtain ⟨x, v⟩ := c
    intro y hy
    simp only [memWrite] at hy
    split at hy
    · split at hy
      · exact .inr ⟨y, hy, rfl⟩
      · rcases List.mem_cons.1 hy with rfl | hy
        · exact .inl rfl
        · exact .inr ⟨y, hy, rfl⟩
    · split at hy
      · split at hy
        · exact .inr ⟨y, List.mem_cons_of_mem _ hy, rfl⟩
        · rcases List.mem_cons.1 hy with rfl | hy
          · exact .inl rfl
          · exact .inr ⟨y, List.mem_cons_of_mem _ hy, rfl⟩
      · rcases List.mem_cons.1 hy with rfl | hy
        · exact .inr ⟨(x, v), List.mem_cons_self, rfl⟩
        · rcases ih y hy with h | ⟨z, hz, h⟩
          · exact .inl h
          · exact .inr ⟨z, List.mem_cons_of_mem _ hz, h⟩

/-- A write keeps the canonical form. -/
theorem memWrite_wf {m : List Host.Cell} (h : Memory.wf m) (a : Nat) (b : Byte) : Memory.wf (memWrite m a b) := by
  induction m with
  | nil =>
    simp only [memWrite]
    split
    · exact memory_wf_nil
    · exact memory_wf_cons.2 ⟨by simp, ‹_›, memory_wf_nil⟩
  | cons c rest ih =>
    obtain ⟨x, v⟩ := c
    obtain ⟨hlt, hv, hrest⟩ := memory_wf_cons.1 h
    simp only [memWrite]
    split
    · split
      · exact h
      · refine memory_wf_cons.2 ⟨?_, ‹_›, h⟩
        intro y hy
        rcases List.mem_cons.1 hy with rfl | hy
        · assumption
        · exact Nat.lt_trans ‹_› (hlt y hy)
    · split
      · subst_vars
        split
        · exact hrest
        · exact memory_wf_cons.2 ⟨hlt, ‹_›, hrest⟩
      · refine memory_wf_cons.2 ⟨?_, hv, ih hrest⟩
        intro y hy
        rcases memWrite_addresses y hy with e | ⟨z, hz, e⟩
        · simp only at *; omega
        · exact e ▸ hlt z hz

/-- Bytes written keep the canonical form. -/
theorem memWriteBytes_wf {m : List Host.Cell} (h : Memory.wf m) (a : Nat) (bytes : List Byte) :
    Memory.wf (memWriteBytes m a bytes) := by
  induction bytes generalizing m a with
  | nil => exact h
  | cons b rest ih => exact ih (memWrite_wf h a b) (a + 1)

/-- An access cut off keeps the canonical form. -/
theorem cutBytes_wf {m : List Host.Cell} (h : Memory.wf m) (a n : Nat) (bytes : List Byte) :
    Memory.wf (cutBytes m a n bytes) := by
  induction bytes generalizing m a n with
  | nil => exact h
  | cons b rest ih =>
    simp only [cutBytes]
    split
    · exact ih (memWrite_wf h a b) (a + 1) (n + 1)
    · exact ih h (a + 1) (n + 1)

/-- The memory of the state after reset is canonical. -/
theorem reset_memory_wf : Memory.wf State.reset.mem := memory_wf_nil

/-- An address below every listed one reads as an unwritten byte. -/
theorem memRead_below {m : List Host.Cell} {a : Nat} (h : ∀ y ∈ m, a < y.1) : memRead m a = Config.unwrittenByte := by
  induction m with
  | nil => rfl
  | cons c rest ih =>
    obtain ⟨x, v⟩ := c
    have hx : x ≠ a := by have := h (x, v) List.mem_cons_self; simp only at this; omega
    simp only [memRead, hx, if_false]
    exact ih fun y hy => h y (List.mem_cons_of_mem _ hy)

/-- A byte written reads back. -/
theorem memRead_memWrite_same {m : List Host.Cell} (h : Memory.wf m) (a : Nat) (b : Byte) :
    memRead (memWrite m a b) a = b := by
  induction m with
  | nil => simp only [memWrite]; split <;> simp_all [memRead]
  | cons c rest ih =>
    obtain ⟨x, v⟩ := c
    obtain ⟨hlt, hv, hrest⟩ := memory_wf_cons.1 h
    simp only [memWrite]
    split
    · split
      · have hx : x ≠ a := by omega
        simp only [memRead, hx, if_false]
        rw [memRead_below fun y hy => by have := hlt y hy; simp only at this; omega]
        exact (‹b = _›).symm
      · simp [memRead]
    · split
      · subst_vars
        split
        · rw [memRead_below hlt]; exact (‹b = _›).symm
        · simp [memRead]
      · have hx : x ≠ a := fun e => by simp_all
        simp only [memRead, hx, if_false]
        exact ih hrest

/-- Every other byte reads as before. -/
theorem memRead_memWrite_other {m : List Host.Cell} {a x : Nat} (b : Byte) (hx : x ≠ a) :
    memRead (memWrite m a b) x = memRead m x := by
  induction m with
  | nil =>
    simp only [memWrite]
    split
    · rfl
    · simp [memRead, Ne.symm hx]
  | cons c rest ih =>
    obtain ⟨y, v⟩ := c
    simp only [memWrite]
    split
    · split
      · rfl
      · simp [memRead, Ne.symm hx]
    · split
      · subst_vars
        split <;> simp [memRead, Ne.symm hx]
      · simp only [memRead]
        rw [ih]

/-- Every byte outside the bytes written reads as before. -/
theorem memWriteBytes_keepsOutside (m : List Host.Cell) (a : Nat) (bytes : List Byte) :
    keepsOutside m (memWriteBytes m a bytes) a bytes.length := by
  induction bytes generalizing m a with
  | nil => exact fun _ _ => rfl
  | cons b rest ih =>
    intro x hx
    simp only [List.length_cons] at hx
    rw [memWriteBytes, ih (memWrite m a b) (a + 1) x (by omega), memRead_memWrite_other b (by omega)]

/-- The bytes written read back. -/
theorem memWriteBytes_holds {m : List Host.Cell} (h : Memory.wf m) (a : Nat) (bytes : List Byte) :
    holdsBytes (memWriteBytes m a bytes) a bytes := by
  induction bytes generalizing m a with
  | nil => intro i hi; simp at hi
  | cons b rest ih =>
    intro i hi
    match i with
    | 0 =>
      rw [memWriteBytes, memWriteBytes_keepsOutside (memWrite m a b) (a + 1) rest _ (by omega)]
      simpa using memRead_memWrite_same h a b
    | j + 1 =>
      have := ih (memWrite_wf h a b) (a + 1) j (by simpa using hi)
      rw [memWriteBytes, List.getElem_cons_succ, ← this]
      congr 1
      omega

/-- Four bytes of a word make the word again. -/
theorem wordOfBytes_wordBytes (w : Word) : wordOfBytes (wordBytes w) = w := by
  apply BitVec.eq_of_toNat_eq
  have hw := w.isLt
  simp only [wordOfBytes, wordBytes, byteAt, List.foldr, BitVec.toNat_ofNat]
  omega

/-- A word that memory holds is what a word read gives. -/
theorem memReadWord_of_holds {m : List Host.Cell} {a : Nat} {w : Word} (h : holdsBytes m a (wordBytes w)) :
    memReadWord m a = w := by
  have h0 := h 0 (by simp [wordBytes])
  have h1 := h 1 (by simp [wordBytes])
  have h2 := h 2 (by simp [wordBytes])
  have h3 := h 3 (by simp [wordBytes])
  have : memReadBytes m a 4 = wordBytes w := by
    simp only [memReadBytes, List.range, List.range.loop, List.map]
    simp only [h0, h1, h2, h3]
    rfl
  rw [memReadWord, this, wordOfBytes_wordBytes]

/-- A word written reads back. -/
theorem memReadWord_memWriteBytes {m : List Host.Cell} (h : Memory.wf m) (a : Nat) (w : Word) :
    memReadWord (memWriteBytes m a (wordBytes w)) a = w := memReadWord_of_holds (memWriteBytes_holds h a _)

end Sys2Proof.Machine
end

