-- ==== Sys2Proof/Laws/Bus.lean ====
section
/-! SUPPORT. What the operations of the CBP and of the SRAM port can change, said once for each: posting, the end of the
head's handling, the pointers, and a grant. -/

namespace Sys2Proof.Machine

/-! ### Posting and the end of the head's handling -/

/-- Posting changes the CBP alone: the write joins the queue's end with the next place in the order of giving out, and each
slot that it reaches returns to LATCHED behind it (R126, R134). -/
theorem State.post_spec (s : State) (a : Addr) (size : Size) (data : Word) :
    s.post a size data = { s with cbp := { s.cbp with
      queue := s.cbp.queue ++
        [{ addr := a, size := size, data := data, zone := zoneOf s.pu.params a, tag := s.cbp.postedCount }]
      postedCount := s.cbp.postedCount + 1, slots := (s.post a size data).cbp.slots } } ∧
    ∀ (i : ReadSlotNo) (r : ReadSlot), s.cbp.slots[i] = some r → (s.post a size data).cbp.slots[i] =
      some (if reaches s.pu.params a size r then r.reachedBy s.cbp.postedCount else r) := by
  refine ⟨rfl, fun i r h => ?_⟩
  simp only [State.post]
  simp only [Fin.getElem_fin, Vector.getElem_map] at h ⊢
  rw [h]
  rfl

/-- A held write is posted, refused, or there is none; the CBP alone changes (R126). -/
theorem State.postHeld_spec (s : State) :
    ((∀ a size data, s.cbp.held ≠ some (.write a size data)) ∧ s.postHeld = s) ∨
    ∃ a size data, s.cbp.held = some (.write a size data) ∧
      ((s.lockRefusesWrite a size = true ∧
          s.postHeld = { s with cbp := { s.cbp with held := none, response := .retry } }) ∨
        (s.lockRefusesWrite a size = false ∧
          s.postHeld = (State.post { s with cbp := { s.cbp with held := none } } a size data).respond .done)) := by
  unfold State.postHeld
  split
  · rename_i a size data h
    refine .inr ⟨a, size, data, h, ?_⟩
    dsimp only
    have e : State.lockRefusesWrite { s with cbp := { s.cbp with held := none } } a size = s.lockRefusesWrite a size := rfl
    rw [e]
    split
    · exact .inl ⟨‹_›, rfl⟩
    · rename_i hn
      exact .inr ⟨by simpa using hn, rfl⟩
  · rename_i h
    exact .inl ⟨fun _ _ _ h' => (by rw [h] at h'; cases h'), rfl⟩
  · rename_i h
    exact .inl ⟨fun _ _ _ h' => (by rw [h] at h'; cases h'), rfl⟩

/-- The end of the head's handling changes the CBP alone (R127). -/
theorem State.retireHead_eq (s : State) : s.retireHead = { s with cbp := s.retireHead.cbp } := by
  unfold State.retireHead
  obtain ⟨_, h⟩ | ⟨a, size, data, _, ⟨_, h⟩ | ⟨_, h⟩⟩ := State.postHeld_spec
    ({ s with cbp := { s.cbp with queue := s.cbp.queue.tail, head := .waiting } } : State) <;> rw [h]
  rfl

/-- It depends on the CBP and the settings alone. -/
theorem State.retireHead_cbp_congr {s t : State} (h : t.cbp = s.cbp) (k : t.pu = s.pu) :
    t.retireHead.cbp = s.retireHead.cbp := by
  unfold State.retireHead State.postHeld State.lockRefusesWrite State.post State.respond
  rw [h, k]
  dsimp only
  cases s.cbp.held with
  | none => rfl
  | some x =>
    cases x with
    | read => rfl
    | write =>
      dsimp only
      split <;> rfl

/-- So it commutes with a change of any other block. -/
theorem State.retireHead_of {s t : State} (h : t.cbp = s.cbp) (k : t.pu = s.pu) :
    t.retireHead = { t with cbp := s.retireHead.cbp } := by
  rw [t.retireHead_eq, State.retireHead_cbp_congr h k]

@[simp] theorem State.retireHead_pending (s : State) : s.retireHead.pending = s.pending := by rw [s.retireHead_eq]
@[simp] theorem State.retireHead_csa (s : State) : s.retireHead.csa = s.csa := by rw [s.retireHead_eq]
@[simp] theorem State.retireHead_dt (s : State) : s.retireHead.dt = s.dt := by rw [s.retireHead_eq]
@[simp] theorem State.retireHead_re (s : State) : s.retireHead.re = s.re := by rw [s.retireHead_eq]
@[simp] theorem State.retireHead_masks (s : State) : s.retireHead.masks = s.masks := by rw [s.retireHead_eq]
@[simp] theorem State.retireHead_lm (s : State) : s.retireHead.lm = s.lm := by rw [s.retireHead_eq]
@[simp] theorem State.retireHead_xe (s : State) : s.retireHead.xe = s.xe := by rw [s.retireHead_eq]
@[simp] theorem State.retireHead_ew (s : State) : s.retireHead.ew = s.ew := by rw [s.retireHead_eq]
@[simp] theorem State.retireHead_tmp (s : State) : s.retireHead.tmp = s.tmp := by rw [s.retireHead_eq]
@[simp] theorem State.retireHead_pu (s : State) : s.retireHead.pu = s.pu := by rw [s.retireHead_eq]
@[simp] theorem State.retireHead_los (s : State) : s.retireHead.los = s.los := by rw [s.retireHead_eq]
@[simp] theorem State.retireHead_mem (s : State) : s.retireHead.mem = s.mem := by rw [s.retireHead_eq]
@[simp] theorem State.retireHead_freeCount (s : State) : s.retireHead.freeCount = s.freeCount := by rw [s.retireHead_eq]

/-- A command taken is a full-word command head that its owner can take (R127, R128). -/
theorem State.commandToTake_spec {s : State} {n : Nat} {h : PostedWrite} (hc : s.commandToTake n = some h) :
    s.headToTake = some h ∧ h.zone = .command ∧ h.size = .four ∧ offsetOf h.addr = 0x800 + 4 * n := by
  unfold State.commandToTake at hc
  split at hc
  · rename_i h' hh
    split at hc
    · cases hc; exact ⟨hh, ‹_›⟩
    · cases hc
  · cases hc

/-- A head that can be taken waits at the front of the queue (R127). -/
theorem State.headToTake_spec {s : State} {h : PostedWrite} (hh : s.headToTake = some h) :
    s.cbp.head = .waiting ∧ (∃ rest, s.cbp.queue = h :: rest) ∧ (h.zone = .passThrough ∨ s.handsWindow = true) := by
  unfold State.headToTake at hh
  split at hh
  · rename_i h' rest hw hq
    split at hh
    · cases hh; exact ⟨hw, ⟨rest, hq⟩, ‹_›⟩
    · cases hh
  · cases hh

/-! ### Grants -/

/-- The pointers move and nothing else changes (R136). -/
theorem State.movePointers_eq (s : State) (r : Requester) : s.movePointers r = { s with tmp := (s.movePointers r).tmp } := by
  unfold State.movePointers
  split <;> rfl

/-- How the pointers move depends on the pointers and the groups alone (R136). -/
theorem State.movePointers_tmp_congr {s t : State} (r : Requester) (h : t.tmp = s.tmp) (k : t.pu = s.pu) :
    (t.movePointers r).tmp = (s.movePointers r).tmp := by
  unfold State.movePointers
  rw [h, k]
  split <;> rfl

/-- An access changes memory alone: a write makes its bytes, a read nothing. -/
theorem State.makeAccess_eq (s : State) (acc : Option Access) : s.makeAccess acc = { s with mem := (s.makeAccess acc).mem } := by
  unfold State.makeAccess
  split <;> rfl

/-- A grant to a requester that the arbiter does not grant changes nothing (log 6). -/
theorem State.grant_refused {s : State} {r : Requester} {k : State → State} (h : s.nextGrant ≠ some r) :
    s.grant r k = s := by
  unfold State.grant
  rw [if_neg h]

/-- A grant: the access is made, the pointers move, and the requester's own part follows (R136). -/
theorem State.grant_made {s : State} {r : Requester} {k : State → State} (h : s.nextGrant = some r) :
    s.grant r k = k { s with mem := (s.makeAccess (s.access r)).mem, tmp := (s.movePointers r).tmp } := by
  unfold State.grant
  rw [if_pos h]
  congr 1
  rw [State.movePointers_eq, State.movePointers_tmp_congr (s := s) r, State.makeAccess_eq]
  · rw [State.makeAccess_eq]
  · rw [State.makeAccess_eq]

/-! ### The table-update list -/

/-- With no adoption running TBL may write every entry (R17). -/
theorem State.tblMayWrite_of_none {s : State} (h : s.pu.adoption = none) (d : Dest) : s.tblMayWrite d = true := by
  rw [State.tblMayWrite, h]

/-- The entry that TBL takes stands behind entries that it may not write, and with it gone those around it keep their order
(R17, R152). -/
theorem State.tblEntry_spec {s : State} {e : UpdateEntry} (h : s.tblEntry = some e) :
    s.tblMayWrite e.dest = true ∧ ∃ before after, s.dt.updates = before ++ e :: after ∧
      (∀ u ∈ before, s.tblMayWrite u.dest = false) ∧
      (s.dt.updates.eraseP fun u => s.tblMayWrite u.dest) = before ++ after := by
  obtain ⟨he, before, after, hl, hb⟩ := List.find?_eq_some_iff_append.1 h
  refine ⟨he, before, after, hl, fun u hu => by simpa using hb u hu, ?_⟩
  rw [hl, List.eraseP_append_right _ fun u hu => by simpa using hb u hu]
  simp [he]

/-- A granted word changes the table-update list and the ramp engine alone (R17, R66). -/
theorem State.updateWritten_eq (s : State) : s.updateWritten = { s with
    dt := { s.dt with updates := s.dt.updates.eraseP fun u => s.tblMayWrite u.dest }, re := s.updateWritten.re } := by
  unfold State.updateWritten
  dsimp only
  split <;> rfl

end Sys2Proof.Machine
end

