-- ==== Sys2Proof/Laws/State.lean ====
section
/-! SUPPORT. One lemma for each field of the state under each of the named updates: every one is true by unfolding. -/

namespace Sys2Proof.Machine

/-! ### setRecord -/

@[simp] theorem State.setRecord_pending (s : State) (d : Dest) (r : DestRecord) :
    (s.setRecord d r).pending = s.pending := rfl

@[simp] theorem State.setRecord_cbp (s : State) (d : Dest) (r : DestRecord) :
    (s.setRecord d r).cbp = s.cbp := rfl

@[simp] theorem State.setRecord_csa (s : State) (d : Dest) (r : DestRecord) :
    (s.setRecord d r).csa = s.csa := rfl

@[simp] theorem State.setRecord_dt (s : State) (d : Dest) (r : DestRecord) :
    (s.setRecord d r).dt = { s.dt with records := s.dt.records.set d (some r) } := rfl

@[simp] theorem State.setRecord_re (s : State) (d : Dest) (r : DestRecord) :
    (s.setRecord d r).re = s.re := rfl

@[simp] theorem State.setRecord_masks (s : State) (d : Dest) (r : DestRecord) :
    (s.setRecord d r).masks = s.masks := rfl

@[simp] theorem State.setRecord_lm (s : State) (d : Dest) (r : DestRecord) :
    (s.setRecord d r).lm = s.lm := rfl

@[simp] theorem State.setRecord_xe (s : State) (d : Dest) (r : DestRecord) :
    (s.setRecord d r).xe = s.xe := rfl

@[simp] theorem State.setRecord_ew (s : State) (d : Dest) (r : DestRecord) :
    (s.setRecord d r).ew = s.ew := rfl

@[simp] theorem State.setRecord_tmp (s : State) (d : Dest) (r : DestRecord) :
    (s.setRecord d r).tmp = s.tmp := rfl

@[simp] theorem State.setRecord_pu (s : State) (d : Dest) (r : DestRecord) :
    (s.setRecord d r).pu = s.pu := rfl

@[simp] theorem State.setRecord_los (s : State) (d : Dest) (r : DestRecord) :
    (s.setRecord d r).los = s.los := rfl

@[simp] theorem State.setRecord_mem (s : State) (d : Dest) (r : DestRecord) :
    (s.setRecord d r).mem = s.mem := rfl

@[simp] theorem State.setRecord_freeCount (s : State) (d : Dest) (r : DestRecord) :
    (s.setRecord d r).freeCount = s.freeCount := rfl

/-! ### setPort -/

@[simp] theorem State.setPort_pending (s : State) (p : Port) (r : PortRecord) :
    (s.setPort p r).pending = s.pending := rfl

@[simp] theorem State.setPort_cbp (s : State) (p : Port) (r : PortRecord) :
    (s.setPort p r).cbp = s.cbp := rfl

@[simp] theorem State.setPort_csa (s : State) (p : Port) (r : PortRecord) :
    (s.setPort p r).csa = s.csa := rfl

@[simp] theorem State.setPort_dt (s : State) (p : Port) (r : PortRecord) :
    (s.setPort p r).dt = { s.dt with ports := s.dt.ports.set p r } := rfl

@[simp] theorem State.setPort_re (s : State) (p : Port) (r : PortRecord) :
    (s.setPort p r).re = s.re := rfl

@[simp] theorem State.setPort_masks (s : State) (p : Port) (r : PortRecord) :
    (s.setPort p r).masks = s.masks := rfl

@[simp] theorem State.setPort_lm (s : State) (p : Port) (r : PortRecord) :
    (s.setPort p r).lm = s.lm := rfl

@[simp] theorem State.setPort_xe (s : State) (p : Port) (r : PortRecord) :
    (s.setPort p r).xe = s.xe := rfl

@[simp] theorem State.setPort_ew (s : State) (p : Port) (r : PortRecord) :
    (s.setPort p r).ew = s.ew := rfl

@[simp] theorem State.setPort_tmp (s : State) (p : Port) (r : PortRecord) :
    (s.setPort p r).tmp = s.tmp := rfl

@[simp] theorem State.setPort_pu (s : State) (p : Port) (r : PortRecord) :
    (s.setPort p r).pu = s.pu := rfl

@[simp] theorem State.setPort_los (s : State) (p : Port) (r : PortRecord) :
    (s.setPort p r).los = s.los := rfl

@[simp] theorem State.setPort_mem (s : State) (p : Port) (r : PortRecord) :
    (s.setPort p r).mem = s.mem := rfl

@[simp] theorem State.setPort_freeCount (s : State) (p : Port) (r : PortRecord) :
    (s.setPort p r).freeCount = s.freeCount := rfl

/-! ### setIsolated -/

@[simp] theorem State.setIsolated_pending (s : State) (k : Way) (b : Bool) :
    (s.setIsolated k b).pending = s.pending := rfl

@[simp] theorem State.setIsolated_cbp (s : State) (k : Way) (b : Bool) :
    (s.setIsolated k b).cbp = s.cbp := rfl

@[simp] theorem State.setIsolated_csa (s : State) (k : Way) (b : Bool) :
    (s.setIsolated k b).csa = s.csa := rfl

@[simp] theorem State.setIsolated_dt (s : State) (k : Way) (b : Bool) :
    (s.setIsolated k b).dt = { s.dt with isolated := s.dt.isolated.set k b } := rfl

@[simp] theorem State.setIsolated_re (s : State) (k : Way) (b : Bool) :
    (s.setIsolated k b).re = s.re := rfl

@[simp] theorem State.setIsolated_masks (s : State) (k : Way) (b : Bool) :
    (s.setIsolated k b).masks = s.masks := rfl

@[simp] theorem State.setIsolated_lm (s : State) (k : Way) (b : Bool) :
    (s.setIsolated k b).lm = s.lm := rfl

@[simp] theorem State.setIsolated_xe (s : State) (k : Way) (b : Bool) :
    (s.setIsolated k b).xe = s.xe := rfl

@[simp] theorem State.setIsolated_ew (s : State) (k : Way) (b : Bool) :
    (s.setIsolated k b).ew = s.ew := rfl

@[simp] theorem State.setIsolated_tmp (s : State) (k : Way) (b : Bool) :
    (s.setIsolated k b).tmp = s.tmp := rfl

@[simp] theorem State.setIsolated_pu (s : State) (k : Way) (b : Bool) :
    (s.setIsolated k b).pu = s.pu := rfl

@[simp] theorem State.setIsolated_los (s : State) (k : Way) (b : Bool) :
    (s.setIsolated k b).los = s.los := rfl

@[simp] theorem State.setIsolated_mem (s : State) (k : Way) (b : Bool) :
    (s.setIsolated k b).mem = s.mem := rfl

@[simp] theorem State.setIsolated_freeCount (s : State) (k : Way) (b : Bool) :
    (s.setIsolated k b).freeCount = s.freeCount := rfl

/-! ### markAll -/

@[simp] theorem State.markAll_pending (s : State) (tag : Option Nat) (ds : List Dest) :
    (s.markAll tag ds).pending = s.pending := rfl

@[simp] theorem State.markAll_cbp (s : State) (tag : Option Nat) (ds : List Dest) :
    (s.markAll tag ds).cbp = s.cbp := rfl

@[simp] theorem State.markAll_csa (s : State) (tag : Option Nat) (ds : List Dest) :
    (s.markAll tag ds).csa = s.csa := rfl

@[simp] theorem State.markAll_dt (s : State) (tag : Option Nat) (ds : List Dest) :
    (s.markAll tag ds).dt = { s.dt with updates := ds.foldl (markUpdate tag) s.dt.updates } := rfl

@[simp] theorem State.markAll_re (s : State) (tag : Option Nat) (ds : List Dest) :
    (s.markAll tag ds).re = s.re := rfl

@[simp] theorem State.markAll_masks (s : State) (tag : Option Nat) (ds : List Dest) :
    (s.markAll tag ds).masks = s.masks := rfl

@[simp] theorem State.markAll_lm (s : State) (tag : Option Nat) (ds : List Dest) :
    (s.markAll tag ds).lm = s.lm := rfl

@[simp] theorem State.markAll_xe (s : State) (tag : Option Nat) (ds : List Dest) :
    (s.markAll tag ds).xe = s.xe := rfl

@[simp] theorem State.markAll_ew (s : State) (tag : Option Nat) (ds : List Dest) :
    (s.markAll tag ds).ew = s.ew := rfl

@[simp] theorem State.markAll_tmp (s : State) (tag : Option Nat) (ds : List Dest) :
    (s.markAll tag ds).tmp = s.tmp := rfl

@[simp] theorem State.markAll_pu (s : State) (tag : Option Nat) (ds : List Dest) :
    (s.markAll tag ds).pu = s.pu := rfl

@[simp] theorem State.markAll_los (s : State) (tag : Option Nat) (ds : List Dest) :
    (s.markAll tag ds).los = s.los := rfl

@[simp] theorem State.markAll_mem (s : State) (tag : Option Nat) (ds : List Dest) :
    (s.markAll tag ds).mem = s.mem := rfl

@[simp] theorem State.markAll_freeCount (s : State) (tag : Option Nat) (ds : List Dest) :
    (s.markAll tag ds).freeCount = s.freeCount := rfl

/-! ### setSlot -/

@[simp] theorem State.setSlot_pending (s : State) (n : SlotNo) (sl : Option RampSlot) :
    (s.setSlot n sl).pending = s.pending := rfl

@[simp] theorem State.setSlot_cbp (s : State) (n : SlotNo) (sl : Option RampSlot) :
    (s.setSlot n sl).cbp = s.cbp := rfl

@[simp] theorem State.setSlot_csa (s : State) (n : SlotNo) (sl : Option RampSlot) :
    (s.setSlot n sl).csa = s.csa := rfl

@[simp] theorem State.setSlot_dt (s : State) (n : SlotNo) (sl : Option RampSlot) :
    (s.setSlot n sl).dt = s.dt := rfl

@[simp] theorem State.setSlot_re (s : State) (n : SlotNo) (sl : Option RampSlot) :
    (s.setSlot n sl).re = { s.re with slots := s.re.slots.set n sl } := rfl

@[simp] theorem State.setSlot_masks (s : State) (n : SlotNo) (sl : Option RampSlot) :
    (s.setSlot n sl).masks = s.masks := rfl

@[simp] theorem State.setSlot_lm (s : State) (n : SlotNo) (sl : Option RampSlot) :
    (s.setSlot n sl).lm = s.lm := rfl

@[simp] theorem State.setSlot_xe (s : State) (n : SlotNo) (sl : Option RampSlot) :
    (s.setSlot n sl).xe = s.xe := rfl

@[simp] theorem State.setSlot_ew (s : State) (n : SlotNo) (sl : Option RampSlot) :
    (s.setSlot n sl).ew = s.ew := rfl

@[simp] theorem State.setSlot_tmp (s : State) (n : SlotNo) (sl : Option RampSlot) :
    (s.setSlot n sl).tmp = s.tmp := rfl

@[simp] theorem State.setSlot_pu (s : State) (n : SlotNo) (sl : Option RampSlot) :
    (s.setSlot n sl).pu = s.pu := rfl

@[simp] theorem State.setSlot_los (s : State) (n : SlotNo) (sl : Option RampSlot) :
    (s.setSlot n sl).los = s.los := rfl

@[simp] theorem State.setSlot_mem (s : State) (n : SlotNo) (sl : Option RampSlot) :
    (s.setSlot n sl).mem = s.mem := rfl

@[simp] theorem State.setSlot_freeCount (s : State) (n : SlotNo) (sl : Option RampSlot) :
    (s.setSlot n sl).freeCount = s.freeCount := rfl

/-! ### stopTicks -/

@[simp] theorem State.stopTicks_pending (s : State) :
    (s.stopTicks).pending = s.pending := rfl

@[simp] theorem State.stopTicks_cbp (s : State) :
    (s.stopTicks).cbp = s.cbp := rfl

@[simp] theorem State.stopTicks_csa (s : State) :
    (s.stopTicks).csa = s.csa := rfl

@[simp] theorem State.stopTicks_dt (s : State) :
    (s.stopTicks).dt = s.dt := rfl

@[simp] theorem State.stopTicks_re (s : State) :
    (s.stopTicks).re = { s.re with tickTimer := false, deferred := false, passesDue := Vector.replicate 4 0, occasionDue := false } := rfl

@[simp] theorem State.stopTicks_masks (s : State) :
    (s.stopTicks).masks = s.masks := rfl

@[simp] theorem State.stopTicks_lm (s : State) :
    (s.stopTicks).lm = s.lm := rfl

@[simp] theorem State.stopTicks_xe (s : State) :
    (s.stopTicks).xe = s.xe := rfl

@[simp] theorem State.stopTicks_ew (s : State) :
    (s.stopTicks).ew = s.ew := rfl

@[simp] theorem State.stopTicks_tmp (s : State) :
    (s.stopTicks).tmp = s.tmp := rfl

@[simp] theorem State.stopTicks_pu (s : State) :
    (s.stopTicks).pu = s.pu := rfl

@[simp] theorem State.stopTicks_los (s : State) :
    (s.stopTicks).los = s.los := rfl

@[simp] theorem State.stopTicks_mem (s : State) :
    (s.stopTicks).mem = s.mem := rfl

@[simp] theorem State.stopTicks_freeCount (s : State) :
    (s.stopTicks).freeCount = s.freeCount := rfl

/-! ### takePass -/

@[simp] theorem State.takePass_pending (s : State) (w : Way) :
    (s.takePass w).pending = s.pending := rfl

@[simp] theorem State.takePass_cbp (s : State) (w : Way) :
    (s.takePass w).cbp = s.cbp := rfl

@[simp] theorem State.takePass_csa (s : State) (w : Way) :
    (s.takePass w).csa = s.csa := rfl

@[simp] theorem State.takePass_dt (s : State) (w : Way) :
    (s.takePass w).dt = s.dt := rfl

@[simp] theorem State.takePass_re (s : State) (w : Way) :
    (s.takePass w).re = { s.re with passesDue := s.re.passesDue.set w (s.re.passesDue[w] - 1) } := rfl

@[simp] theorem State.takePass_masks (s : State) (w : Way) :
    (s.takePass w).masks = s.masks := rfl

@[simp] theorem State.takePass_lm (s : State) (w : Way) :
    (s.takePass w).lm = s.lm := rfl

@[simp] theorem State.takePass_xe (s : State) (w : Way) :
    (s.takePass w).xe = s.xe := rfl

@[simp] theorem State.takePass_ew (s : State) (w : Way) :
    (s.takePass w).ew = s.ew := rfl

@[simp] theorem State.takePass_tmp (s : State) (w : Way) :
    (s.takePass w).tmp = s.tmp := rfl

@[simp] theorem State.takePass_pu (s : State) (w : Way) :
    (s.takePass w).pu = s.pu := rfl

@[simp] theorem State.takePass_los (s : State) (w : Way) :
    (s.takePass w).los = s.los := rfl

@[simp] theorem State.takePass_mem (s : State) (w : Way) :
    (s.takePass w).mem = s.mem := rfl

@[simp] theorem State.takePass_freeCount (s : State) (w : Way) :
    (s.takePass w).freeCount = s.freeCount := rfl

/-! ### store -/

@[simp] theorem State.store_pending (s : State) (a : Nat) (bytes : List Byte) :
    (s.store a bytes).pending = s.pending := rfl

@[simp] theorem State.store_cbp (s : State) (a : Nat) (bytes : List Byte) :
    (s.store a bytes).cbp = s.cbp := rfl

@[simp] theorem State.store_csa (s : State) (a : Nat) (bytes : List Byte) :
    (s.store a bytes).csa = s.csa := rfl

@[simp] theorem State.store_dt (s : State) (a : Nat) (bytes : List Byte) :
    (s.store a bytes).dt = s.dt := rfl

@[simp] theorem State.store_re (s : State) (a : Nat) (bytes : List Byte) :
    (s.store a bytes).re = s.re := rfl

@[simp] theorem State.store_masks (s : State) (a : Nat) (bytes : List Byte) :
    (s.store a bytes).masks = s.masks := rfl

@[simp] theorem State.store_lm (s : State) (a : Nat) (bytes : List Byte) :
    (s.store a bytes).lm = s.lm := rfl

@[simp] theorem State.store_xe (s : State) (a : Nat) (bytes : List Byte) :
    (s.store a bytes).xe = s.xe := rfl

@[simp] theorem State.store_ew (s : State) (a : Nat) (bytes : List Byte) :
    (s.store a bytes).ew = s.ew := rfl

@[simp] theorem State.store_tmp (s : State) (a : Nat) (bytes : List Byte) :
    (s.store a bytes).tmp = s.tmp := rfl

@[simp] theorem State.store_pu (s : State) (a : Nat) (bytes : List Byte) :
    (s.store a bytes).pu = s.pu := rfl

@[simp] theorem State.store_los (s : State) (a : Nat) (bytes : List Byte) :
    (s.store a bytes).los = s.los := rfl

@[simp] theorem State.store_mem (s : State) (a : Nat) (bytes : List Byte) :
    (s.store a bytes).mem = memWriteBytes s.mem a bytes := rfl

@[simp] theorem State.store_freeCount (s : State) (a : Nat) (bytes : List Byte) :
    (s.store a bytes).freeCount = s.freeCount := rfl

/-! ### respond -/

@[simp] theorem State.respond_pending (s : State) (r : Response) :
    (s.respond r).pending = s.pending := rfl

@[simp] theorem State.respond_cbp (s : State) (r : Response) :
    (s.respond r).cbp = { s.cbp with response := r } := rfl

@[simp] theorem State.respond_csa (s : State) (r : Response) :
    (s.respond r).csa = s.csa := rfl

@[simp] theorem State.respond_dt (s : State) (r : Response) :
    (s.respond r).dt = s.dt := rfl

@[simp] theorem State.respond_re (s : State) (r : Response) :
    (s.respond r).re = s.re := rfl

@[simp] theorem State.respond_masks (s : State) (r : Response) :
    (s.respond r).masks = s.masks := rfl

@[simp] theorem State.respond_lm (s : State) (r : Response) :
    (s.respond r).lm = s.lm := rfl

@[simp] theorem State.respond_xe (s : State) (r : Response) :
    (s.respond r).xe = s.xe := rfl

@[simp] theorem State.respond_ew (s : State) (r : Response) :
    (s.respond r).ew = s.ew := rfl

@[simp] theorem State.respond_tmp (s : State) (r : Response) :
    (s.respond r).tmp = s.tmp := rfl

@[simp] theorem State.respond_pu (s : State) (r : Response) :
    (s.respond r).pu = s.pu := rfl

@[simp] theorem State.respond_los (s : State) (r : Response) :
    (s.respond r).los = s.los := rfl

@[simp] theorem State.respond_mem (s : State) (r : Response) :
    (s.respond r).mem = s.mem := rfl

@[simp] theorem State.respond_freeCount (s : State) (r : Response) :
    (s.respond r).freeCount = s.freeCount := rfl

/-! ### setReadSlot -/

@[simp] theorem State.setReadSlot_pending (s : State) (i : ReadSlotNo) (r : Option ReadSlot) :
    (s.setReadSlot i r).pending = s.pending := rfl

@[simp] theorem State.setReadSlot_cbp (s : State) (i : ReadSlotNo) (r : Option ReadSlot) :
    (s.setReadSlot i r).cbp = { s.cbp with slots := s.cbp.slots.set i r } := rfl

@[simp] theorem State.setReadSlot_csa (s : State) (i : ReadSlotNo) (r : Option ReadSlot) :
    (s.setReadSlot i r).csa = s.csa := rfl

@[simp] theorem State.setReadSlot_dt (s : State) (i : ReadSlotNo) (r : Option ReadSlot) :
    (s.setReadSlot i r).dt = s.dt := rfl

@[simp] theorem State.setReadSlot_re (s : State) (i : ReadSlotNo) (r : Option ReadSlot) :
    (s.setReadSlot i r).re = s.re := rfl

@[simp] theorem State.setReadSlot_masks (s : State) (i : ReadSlotNo) (r : Option ReadSlot) :
    (s.setReadSlot i r).masks = s.masks := rfl

@[simp] theorem State.setReadSlot_lm (s : State) (i : ReadSlotNo) (r : Option ReadSlot) :
    (s.setReadSlot i r).lm = s.lm := rfl

@[simp] theorem State.setReadSlot_xe (s : State) (i : ReadSlotNo) (r : Option ReadSlot) :
    (s.setReadSlot i r).xe = s.xe := rfl

@[simp] theorem State.setReadSlot_ew (s : State) (i : ReadSlotNo) (r : Option ReadSlot) :
    (s.setReadSlot i r).ew = s.ew := rfl

@[simp] theorem State.setReadSlot_tmp (s : State) (i : ReadSlotNo) (r : Option ReadSlot) :
    (s.setReadSlot i r).tmp = s.tmp := rfl

@[simp] theorem State.setReadSlot_pu (s : State) (i : ReadSlotNo) (r : Option ReadSlot) :
    (s.setReadSlot i r).pu = s.pu := rfl

@[simp] theorem State.setReadSlot_los (s : State) (i : ReadSlotNo) (r : Option ReadSlot) :
    (s.setReadSlot i r).los = s.los := rfl

@[simp] theorem State.setReadSlot_mem (s : State) (i : ReadSlotNo) (r : Option ReadSlot) :
    (s.setReadSlot i r).mem = s.mem := rfl

@[simp] theorem State.setReadSlot_freeCount (s : State) (i : ReadSlotNo) (r : Option ReadSlot) :
    (s.setReadSlot i r).freeCount = s.freeCount := rfl

/-! ### freeReadSlot -/

@[simp] theorem State.freeReadSlot_pending (s : State) (i : ReadSlotNo) :
    (s.freeReadSlot i).pending = s.pending := rfl

@[simp] theorem State.freeReadSlot_cbp (s : State) (i : ReadSlotNo) :
    (s.freeReadSlot i).cbp = { s.cbp with slots := s.cbp.slots.set i none, latchOrder := s.cbp.latchOrder.erase i } := rfl

@[simp] theorem State.freeReadSlot_csa (s : State) (i : ReadSlotNo) :
    (s.freeReadSlot i).csa = s.csa := rfl

@[simp] theorem State.freeReadSlot_dt (s : State) (i : ReadSlotNo) :
    (s.freeReadSlot i).dt = s.dt := rfl

@[simp] theorem State.freeReadSlot_re (s : State) (i : ReadSlotNo) :
    (s.freeReadSlot i).re = s.re := rfl

@[simp] theorem State.freeReadSlot_masks (s : State) (i : ReadSlotNo) :
    (s.freeReadSlot i).masks = s.masks := rfl

@[simp] theorem State.freeReadSlot_lm (s : State) (i : ReadSlotNo) :
    (s.freeReadSlot i).lm = s.lm := rfl

@[simp] theorem State.freeReadSlot_xe (s : State) (i : ReadSlotNo) :
    (s.freeReadSlot i).xe = s.xe := rfl

@[simp] theorem State.freeReadSlot_ew (s : State) (i : ReadSlotNo) :
    (s.freeReadSlot i).ew = s.ew := rfl

@[simp] theorem State.freeReadSlot_tmp (s : State) (i : ReadSlotNo) :
    (s.freeReadSlot i).tmp = s.tmp := rfl

@[simp] theorem State.freeReadSlot_pu (s : State) (i : ReadSlotNo) :
    (s.freeReadSlot i).pu = s.pu := rfl

@[simp] theorem State.freeReadSlot_los (s : State) (i : ReadSlotNo) :
    (s.freeReadSlot i).los = s.los := rfl

@[simp] theorem State.freeReadSlot_mem (s : State) (i : ReadSlotNo) :
    (s.freeReadSlot i).mem = s.mem := rfl

@[simp] theorem State.freeReadSlot_freeCount (s : State) (i : ReadSlotNo) :
    (s.freeReadSlot i).freeCount = s.freeCount := rfl

/-! ### setHead -/

@[simp] theorem State.setHead_pending (s : State) (stage : HeadStage) :
    (s.setHead stage).pending = s.pending := rfl

@[simp] theorem State.setHead_cbp (s : State) (stage : HeadStage) :
    (s.setHead stage).cbp = { s.cbp with head := stage } := rfl

@[simp] theorem State.setHead_csa (s : State) (stage : HeadStage) :
    (s.setHead stage).csa = s.csa := rfl

@[simp] theorem State.setHead_dt (s : State) (stage : HeadStage) :
    (s.setHead stage).dt = s.dt := rfl

@[simp] theorem State.setHead_re (s : State) (stage : HeadStage) :
    (s.setHead stage).re = s.re := rfl

@[simp] theorem State.setHead_masks (s : State) (stage : HeadStage) :
    (s.setHead stage).masks = s.masks := rfl

@[simp] theorem State.setHead_lm (s : State) (stage : HeadStage) :
    (s.setHead stage).lm = s.lm := rfl

@[simp] theorem State.setHead_xe (s : State) (stage : HeadStage) :
    (s.setHead stage).xe = s.xe := rfl

@[simp] theorem State.setHead_ew (s : State) (stage : HeadStage) :
    (s.setHead stage).ew = s.ew := rfl

@[simp] theorem State.setHead_tmp (s : State) (stage : HeadStage) :
    (s.setHead stage).tmp = s.tmp := rfl

@[simp] theorem State.setHead_pu (s : State) (stage : HeadStage) :
    (s.setHead stage).pu = s.pu := rfl

@[simp] theorem State.setHead_los (s : State) (stage : HeadStage) :
    (s.setHead stage).los = s.los := rfl

@[simp] theorem State.setHead_mem (s : State) (stage : HeadStage) :
    (s.setHead stage).mem = s.mem := rfl

@[simp] theorem State.setHead_freeCount (s : State) (stage : HeadStage) :
    (s.setHead stage).freeCount = s.freeCount := rfl

/-! ### headWrites -/

@[simp] theorem State.headWrites_pending (s : State) (todo : List Access) (restart : Bool) :
    (s.headWrites todo restart).pending = s.pending := rfl

@[simp] theorem State.headWrites_cbp (s : State) (todo : List Access) (restart : Bool) :
    (s.headWrites todo restart).cbp = { s.cbp with head := .writing todo restart } := rfl

@[simp] theorem State.headWrites_csa (s : State) (todo : List Access) (restart : Bool) :
    (s.headWrites todo restart).csa = s.csa := rfl

@[simp] theorem State.headWrites_dt (s : State) (todo : List Access) (restart : Bool) :
    (s.headWrites todo restart).dt = s.dt := rfl

@[simp] theorem State.headWrites_re (s : State) (todo : List Access) (restart : Bool) :
    (s.headWrites todo restart).re = s.re := rfl

@[simp] theorem State.headWrites_masks (s : State) (todo : List Access) (restart : Bool) :
    (s.headWrites todo restart).masks = s.masks := rfl

@[simp] theorem State.headWrites_lm (s : State) (todo : List Access) (restart : Bool) :
    (s.headWrites todo restart).lm = s.lm := rfl

@[simp] theorem State.headWrites_xe (s : State) (todo : List Access) (restart : Bool) :
    (s.headWrites todo restart).xe = s.xe := rfl

@[simp] theorem State.headWrites_ew (s : State) (todo : List Access) (restart : Bool) :
    (s.headWrites todo restart).ew = s.ew := rfl

@[simp] theorem State.headWrites_tmp (s : State) (todo : List Access) (restart : Bool) :
    (s.headWrites todo restart).tmp = s.tmp := rfl

@[simp] theorem State.headWrites_pu (s : State) (todo : List Access) (restart : Bool) :
    (s.headWrites todo restart).pu = s.pu := rfl

@[simp] theorem State.headWrites_los (s : State) (todo : List Access) (restart : Bool) :
    (s.headWrites todo restart).los = s.los := rfl

@[simp] theorem State.headWrites_mem (s : State) (todo : List Access) (restart : Bool) :
    (s.headWrites todo restart).mem = s.mem := rfl

@[simp] theorem State.headWrites_freeCount (s : State) (todo : List Access) (restart : Bool) :
    (s.headWrites todo restart).freeCount = s.freeCount := rfl

/-! ### withdrawReads -/

@[simp] theorem State.withdrawReads_pending (s : State) :
    (s.withdrawReads).pending = s.pending := rfl

@[simp] theorem State.withdrawReads_cbp (s : State) :
    (s.withdrawReads).cbp = { s.cbp with slots := s.cbp.slots.map (Option.map ReadSlot.withdraw) } := rfl

@[simp] theorem State.withdrawReads_csa (s : State) :
    (s.withdrawReads).csa = s.csa := rfl

@[simp] theorem State.withdrawReads_dt (s : State) :
    (s.withdrawReads).dt = s.dt := rfl

@[simp] theorem State.withdrawReads_re (s : State) :
    (s.withdrawReads).re = s.re := rfl

@[simp] theorem State.withdrawReads_masks (s : State) :
    (s.withdrawReads).masks = s.masks := rfl

@[simp] theorem State.withdrawReads_lm (s : State) :
    (s.withdrawReads).lm = s.lm := rfl

@[simp] theorem State.withdrawReads_xe (s : State) :
    (s.withdrawReads).xe = s.xe := rfl

@[simp] theorem State.withdrawReads_ew (s : State) :
    (s.withdrawReads).ew = s.ew := rfl

@[simp] theorem State.withdrawReads_tmp (s : State) :
    (s.withdrawReads).tmp = s.tmp := rfl

@[simp] theorem State.withdrawReads_pu (s : State) :
    (s.withdrawReads).pu = s.pu := rfl

@[simp] theorem State.withdrawReads_los (s : State) :
    (s.withdrawReads).los = s.los := rfl

@[simp] theorem State.withdrawReads_mem (s : State) :
    (s.withdrawReads).mem = s.mem := rfl

@[simp] theorem State.withdrawReads_freeCount (s : State) :
    (s.withdrawReads).freeCount = s.freeCount := rfl

/-! ### emptyOpen -/

@[simp] theorem State.emptyOpen_pending (s : State) :
    (s.emptyOpen).pending = s.pending := rfl

@[simp] theorem State.emptyOpen_cbp (s : State) :
    (s.emptyOpen).cbp = s.cbp := rfl

@[simp] theorem State.emptyOpen_csa (s : State) :
    (s.emptyOpen).csa = { s.csa with openSet := [] } := rfl

@[simp] theorem State.emptyOpen_dt (s : State) :
    (s.emptyOpen).dt = s.dt := rfl

@[simp] theorem State.emptyOpen_re (s : State) :
    (s.emptyOpen).re = s.re := rfl

@[simp] theorem State.emptyOpen_masks (s : State) :
    (s.emptyOpen).masks = s.masks := rfl

@[simp] theorem State.emptyOpen_lm (s : State) :
    (s.emptyOpen).lm = s.lm := rfl

@[simp] theorem State.emptyOpen_xe (s : State) :
    (s.emptyOpen).xe = s.xe := rfl

@[simp] theorem State.emptyOpen_ew (s : State) :
    (s.emptyOpen).ew = s.ew := rfl

@[simp] theorem State.emptyOpen_tmp (s : State) :
    (s.emptyOpen).tmp = s.tmp := rfl

@[simp] theorem State.emptyOpen_pu (s : State) :
    (s.emptyOpen).pu = s.pu := rfl

@[simp] theorem State.emptyOpen_los (s : State) :
    (s.emptyOpen).los = s.los := rfl

@[simp] theorem State.emptyOpen_mem (s : State) :
    (s.emptyOpen).mem = s.mem := rfl

@[simp] theorem State.emptyOpen_freeCount (s : State) :
    (s.emptyOpen).freeCount = s.freeCount := rfl

/-! ### clearSets -/

@[simp] theorem State.clearSets_pending (s : State) :
    (s.clearSets).pending = s.pending := rfl

@[simp] theorem State.clearSets_cbp (s : State) :
    (s.clearSets).cbp = s.cbp := rfl

@[simp] theorem State.clearSets_csa (s : State) :
    (s.clearSets).csa = { s.csa with queue := [], settling := [] } := rfl

@[simp] theorem State.clearSets_dt (s : State) :
    (s.clearSets).dt = s.dt := rfl

@[simp] theorem State.clearSets_re (s : State) :
    (s.clearSets).re = s.re := rfl

@[simp] theorem State.clearSets_masks (s : State) :
    (s.clearSets).masks = s.masks := rfl

@[simp] theorem State.clearSets_lm (s : State) :
    (s.clearSets).lm = s.lm := rfl

@[simp] theorem State.clearSets_xe (s : State) :
    (s.clearSets).xe = s.xe := rfl

@[simp] theorem State.clearSets_ew (s : State) :
    (s.clearSets).ew = s.ew := rfl

@[simp] theorem State.clearSets_tmp (s : State) :
    (s.clearSets).tmp = s.tmp := rfl

@[simp] theorem State.clearSets_pu (s : State) :
    (s.clearSets).pu = s.pu := rfl

@[simp] theorem State.clearSets_los (s : State) :
    (s.clearSets).los = s.los := rfl

@[simp] theorem State.clearSets_mem (s : State) :
    (s.clearSets).mem = s.mem := rfl

@[simp] theorem State.clearSets_freeCount (s : State) :
    (s.clearSets).freeCount = s.freeCount := rfl

/-! ### setMask -/

@[simp] theorem State.setMask_pending (s : State) (m : Fin 12) (w : Word) :
    (s.setMask m w).pending = s.pending := rfl

@[simp] theorem State.setMask_cbp (s : State) (m : Fin 12) (w : Word) :
    (s.setMask m w).cbp = s.cbp := rfl

@[simp] theorem State.setMask_csa (s : State) (m : Fin 12) (w : Word) :
    (s.setMask m w).csa = s.csa := rfl

@[simp] theorem State.setMask_dt (s : State) (m : Fin 12) (w : Word) :
    (s.setMask m w).dt = s.dt := rfl

@[simp] theorem State.setMask_re (s : State) (m : Fin 12) (w : Word) :
    (s.setMask m w).re = s.re := rfl

@[simp] theorem State.setMask_masks (s : State) (m : Fin 12) (w : Word) :
    (s.setMask m w).masks = s.masks.set m (some w) := rfl

@[simp] theorem State.setMask_lm (s : State) (m : Fin 12) (w : Word) :
    (s.setMask m w).lm = s.lm := rfl

@[simp] theorem State.setMask_xe (s : State) (m : Fin 12) (w : Word) :
    (s.setMask m w).xe = s.xe := rfl

@[simp] theorem State.setMask_ew (s : State) (m : Fin 12) (w : Word) :
    (s.setMask m w).ew = s.ew := rfl

@[simp] theorem State.setMask_tmp (s : State) (m : Fin 12) (w : Word) :
    (s.setMask m w).tmp = s.tmp := rfl

@[simp] theorem State.setMask_pu (s : State) (m : Fin 12) (w : Word) :
    (s.setMask m w).pu = s.pu := rfl

@[simp] theorem State.setMask_los (s : State) (m : Fin 12) (w : Word) :
    (s.setMask m w).los = s.los := rfl

@[simp] theorem State.setMask_mem (s : State) (m : Fin 12) (w : Word) :
    (s.setMask m w).mem = s.mem := rfl

@[simp] theorem State.setMask_freeCount (s : State) (m : Fin 12) (w : Word) :
    (s.setMask m w).freeCount = s.freeCount := rfl

/-! ### setWay -/

@[simp] theorem State.setWay_pending (s : State) (w : Way) (r : WayRecord) :
    (s.setWay w r).pending = s.pending := rfl

@[simp] theorem State.setWay_cbp (s : State) (w : Way) (r : WayRecord) :
    (s.setWay w r).cbp = s.cbp := rfl

@[simp] theorem State.setWay_csa (s : State) (w : Way) (r : WayRecord) :
    (s.setWay w r).csa = s.csa := rfl

@[simp] theorem State.setWay_dt (s : State) (w : Way) (r : WayRecord) :
    (s.setWay w r).dt = s.dt := rfl

@[simp] theorem State.setWay_re (s : State) (w : Way) (r : WayRecord) :
    (s.setWay w r).re = s.re := rfl

@[simp] theorem State.setWay_masks (s : State) (w : Way) (r : WayRecord) :
    (s.setWay w r).masks = s.masks := rfl

@[simp] theorem State.setWay_lm (s : State) (w : Way) (r : WayRecord) :
    (s.setWay w r).lm = { s.lm with ways := s.lm.ways.set w r } := rfl

@[simp] theorem State.setWay_xe (s : State) (w : Way) (r : WayRecord) :
    (s.setWay w r).xe = s.xe := rfl

@[simp] theorem State.setWay_ew (s : State) (w : Way) (r : WayRecord) :
    (s.setWay w r).ew = s.ew := rfl

@[simp] theorem State.setWay_tmp (s : State) (w : Way) (r : WayRecord) :
    (s.setWay w r).tmp = s.tmp := rfl

@[simp] theorem State.setWay_pu (s : State) (w : Way) (r : WayRecord) :
    (s.setWay w r).pu = s.pu := rfl

@[simp] theorem State.setWay_los (s : State) (w : Way) (r : WayRecord) :
    (s.setWay w r).los = s.los := rfl

@[simp] theorem State.setWay_mem (s : State) (w : Way) (r : WayRecord) :
    (s.setWay w r).mem = s.mem := rfl

@[simp] theorem State.setWay_freeCount (s : State) (w : Way) (r : WayRecord) :
    (s.setWay w r).freeCount = s.freeCount := rfl

/-! ### setExchangeList -/

@[simp] theorem State.setExchangeList_pending (s : State) (l : List ExchangeRequest) :
    (s.setExchangeList l).pending = s.pending := rfl

@[simp] theorem State.setExchangeList_cbp (s : State) (l : List ExchangeRequest) :
    (s.setExchangeList l).cbp = s.cbp := rfl

@[simp] theorem State.setExchangeList_csa (s : State) (l : List ExchangeRequest) :
    (s.setExchangeList l).csa = s.csa := rfl

@[simp] theorem State.setExchangeList_dt (s : State) (l : List ExchangeRequest) :
    (s.setExchangeList l).dt = s.dt := rfl

@[simp] theorem State.setExchangeList_re (s : State) (l : List ExchangeRequest) :
    (s.setExchangeList l).re = s.re := rfl

@[simp] theorem State.setExchangeList_masks (s : State) (l : List ExchangeRequest) :
    (s.setExchangeList l).masks = s.masks := rfl

@[simp] theorem State.setExchangeList_lm (s : State) (l : List ExchangeRequest) :
    (s.setExchangeList l).lm = s.lm := rfl

@[simp] theorem State.setExchangeList_xe (s : State) (l : List ExchangeRequest) :
    (s.setExchangeList l).xe = { s.xe with list := l } := rfl

@[simp] theorem State.setExchangeList_ew (s : State) (l : List ExchangeRequest) :
    (s.setExchangeList l).ew = s.ew := rfl

@[simp] theorem State.setExchangeList_tmp (s : State) (l : List ExchangeRequest) :
    (s.setExchangeList l).tmp = s.tmp := rfl

@[simp] theorem State.setExchangeList_pu (s : State) (l : List ExchangeRequest) :
    (s.setExchangeList l).pu = s.pu := rfl

@[simp] theorem State.setExchangeList_los (s : State) (l : List ExchangeRequest) :
    (s.setExchangeList l).los = s.los := rfl

@[simp] theorem State.setExchangeList_mem (s : State) (l : List ExchangeRequest) :
    (s.setExchangeList l).mem = s.mem := rfl

@[simp] theorem State.setExchangeList_freeCount (s : State) (l : List ExchangeRequest) :
    (s.setExchangeList l).freeCount = s.freeCount := rfl

/-! ### setCondition -/

@[simp] theorem State.setCondition_pending (s : State) (p : Plan) (c : PlanCondition) :
    (s.setCondition p c).pending = s.pending := rfl

@[simp] theorem State.setCondition_cbp (s : State) (p : Plan) (c : PlanCondition) :
    (s.setCondition p c).cbp = s.cbp := rfl

@[simp] theorem State.setCondition_csa (s : State) (p : Plan) (c : PlanCondition) :
    (s.setCondition p c).csa = s.csa := rfl

@[simp] theorem State.setCondition_dt (s : State) (p : Plan) (c : PlanCondition) :
    (s.setCondition p c).dt = s.dt := rfl

@[simp] theorem State.setCondition_re (s : State) (p : Plan) (c : PlanCondition) :
    (s.setCondition p c).re = s.re := rfl

@[simp] theorem State.setCondition_masks (s : State) (p : Plan) (c : PlanCondition) :
    (s.setCondition p c).masks = s.masks := rfl

@[simp] theorem State.setCondition_lm (s : State) (p : Plan) (c : PlanCondition) :
    (s.setCondition p c).lm = s.lm := rfl

@[simp] theorem State.setCondition_xe (s : State) (p : Plan) (c : PlanCondition) :
    (s.setCondition p c).xe = { s.xe with conditions := s.xe.conditions.set p c } := rfl

@[simp] theorem State.setCondition_ew (s : State) (p : Plan) (c : PlanCondition) :
    (s.setCondition p c).ew = s.ew := rfl

@[simp] theorem State.setCondition_tmp (s : State) (p : Plan) (c : PlanCondition) :
    (s.setCondition p c).tmp = s.tmp := rfl

@[simp] theorem State.setCondition_pu (s : State) (p : Plan) (c : PlanCondition) :
    (s.setCondition p c).pu = s.pu := rfl

@[simp] theorem State.setCondition_los (s : State) (p : Plan) (c : PlanCondition) :
    (s.setCondition p c).los = s.los := rfl

@[simp] theorem State.setCondition_mem (s : State) (p : Plan) (c : PlanCondition) :
    (s.setCondition p c).mem = s.mem := rfl

@[simp] theorem State.setCondition_freeCount (s : State) (p : Plan) (c : PlanCondition) :
    (s.setCondition p c).freeCount = s.freeCount := rfl

/-! ### setRunning -/

@[simp] theorem State.setRunning_pending (s : State) (x : Option RunningExchange) :
    (s.setRunning x).pending = s.pending := rfl

@[simp] theorem State.setRunning_cbp (s : State) (x : Option RunningExchange) :
    (s.setRunning x).cbp = s.cbp := rfl

@[simp] theorem State.setRunning_csa (s : State) (x : Option RunningExchange) :
    (s.setRunning x).csa = s.csa := rfl

@[simp] theorem State.setRunning_dt (s : State) (x : Option RunningExchange) :
    (s.setRunning x).dt = s.dt := rfl

@[simp] theorem State.setRunning_re (s : State) (x : Option RunningExchange) :
    (s.setRunning x).re = s.re := rfl

@[simp] theorem State.setRunning_masks (s : State) (x : Option RunningExchange) :
    (s.setRunning x).masks = s.masks := rfl

@[simp] theorem State.setRunning_lm (s : State) (x : Option RunningExchange) :
    (s.setRunning x).lm = s.lm := rfl

@[simp] theorem State.setRunning_xe (s : State) (x : Option RunningExchange) :
    (s.setRunning x).xe = { s.xe with running := x } := rfl

@[simp] theorem State.setRunning_ew (s : State) (x : Option RunningExchange) :
    (s.setRunning x).ew = s.ew := rfl

@[simp] theorem State.setRunning_tmp (s : State) (x : Option RunningExchange) :
    (s.setRunning x).tmp = s.tmp := rfl

@[simp] theorem State.setRunning_pu (s : State) (x : Option RunningExchange) :
    (s.setRunning x).pu = s.pu := rfl

@[simp] theorem State.setRunning_los (s : State) (x : Option RunningExchange) :
    (s.setRunning x).los = s.los := rfl

@[simp] theorem State.setRunning_mem (s : State) (x : Option RunningExchange) :
    (s.setRunning x).mem = s.mem := rfl

@[simp] theorem State.setRunning_freeCount (s : State) (x : Option RunningExchange) :
    (s.setRunning x).freeCount = s.freeCount := rfl

/-! ### requestRingWord -/

@[simp] theorem State.requestRingWord_pending (s : State) :
    (s.requestRingWord).pending = s.pending := rfl

@[simp] theorem State.requestRingWord_cbp (s : State) :
    (s.requestRingWord).cbp = s.cbp := rfl

@[simp] theorem State.requestRingWord_csa (s : State) :
    (s.requestRingWord).csa = s.csa := rfl

@[simp] theorem State.requestRingWord_dt (s : State) :
    (s.requestRingWord).dt = s.dt := rfl

@[simp] theorem State.requestRingWord_re (s : State) :
    (s.requestRingWord).re = s.re := rfl

@[simp] theorem State.requestRingWord_masks (s : State) :
    (s.requestRingWord).masks = s.masks := rfl

@[simp] theorem State.requestRingWord_lm (s : State) :
    (s.requestRingWord).lm = s.lm := rfl

@[simp] theorem State.requestRingWord_xe (s : State) :
    (s.requestRingWord).xe = s.xe := rfl

@[simp] theorem State.requestRingWord_ew (s : State) :
    (s.requestRingWord).ew = { s.ew with ringWordDue := true } := rfl

@[simp] theorem State.requestRingWord_tmp (s : State) :
    (s.requestRingWord).tmp = s.tmp := rfl

@[simp] theorem State.requestRingWord_pu (s : State) :
    (s.requestRingWord).pu = s.pu := rfl

@[simp] theorem State.requestRingWord_los (s : State) :
    (s.requestRingWord).los = s.los := rfl

@[simp] theorem State.requestRingWord_mem (s : State) :
    (s.requestRingWord).mem = s.mem := rfl

@[simp] theorem State.requestRingWord_freeCount (s : State) :
    (s.requestRingWord).freeCount = s.freeCount := rfl

/-! ### setAdoption -/

@[simp] theorem State.setAdoption_pending (s : State) (a : Option Adoption) :
    (s.setAdoption a).pending = s.pending := rfl

@[simp] theorem State.setAdoption_cbp (s : State) (a : Option Adoption) :
    (s.setAdoption a).cbp = s.cbp := rfl

@[simp] theorem State.setAdoption_csa (s : State) (a : Option Adoption) :
    (s.setAdoption a).csa = s.csa := rfl

@[simp] theorem State.setAdoption_dt (s : State) (a : Option Adoption) :
    (s.setAdoption a).dt = s.dt := rfl

@[simp] theorem State.setAdoption_re (s : State) (a : Option Adoption) :
    (s.setAdoption a).re = s.re := rfl

@[simp] theorem State.setAdoption_masks (s : State) (a : Option Adoption) :
    (s.setAdoption a).masks = s.masks := rfl

@[simp] theorem State.setAdoption_lm (s : State) (a : Option Adoption) :
    (s.setAdoption a).lm = s.lm := rfl

@[simp] theorem State.setAdoption_xe (s : State) (a : Option Adoption) :
    (s.setAdoption a).xe = s.xe := rfl

@[simp] theorem State.setAdoption_ew (s : State) (a : Option Adoption) :
    (s.setAdoption a).ew = s.ew := rfl

@[simp] theorem State.setAdoption_tmp (s : State) (a : Option Adoption) :
    (s.setAdoption a).tmp = s.tmp := rfl

@[simp] theorem State.setAdoption_pu (s : State) (a : Option Adoption) :
    (s.setAdoption a).pu = { s.pu with adoption := a } := rfl

@[simp] theorem State.setAdoption_los (s : State) (a : Option Adoption) :
    (s.setAdoption a).los = s.los := rfl

@[simp] theorem State.setAdoption_mem (s : State) (a : Option Adoption) :
    (s.setAdoption a).mem = s.mem := rfl

@[simp] theorem State.setAdoption_freeCount (s : State) (a : Option Adoption) :
    (s.setAdoption a).freeCount = s.freeCount := rfl

/-! ### beginAdoption -/

@[simp] theorem State.beginAdoption_pending (s : State) :
    (s.beginAdoption).pending = s.pending := rfl

@[simp] theorem State.beginAdoption_cbp (s : State) :
    (s.beginAdoption).cbp = s.cbp := rfl

@[simp] theorem State.beginAdoption_csa (s : State) :
    (s.beginAdoption).csa = s.csa := rfl

@[simp] theorem State.beginAdoption_dt (s : State) :
    (s.beginAdoption).dt = s.dt := rfl

@[simp] theorem State.beginAdoption_re (s : State) :
    (s.beginAdoption).re = s.re := rfl

@[simp] theorem State.beginAdoption_masks (s : State) :
    (s.beginAdoption).masks = s.masks := rfl

@[simp] theorem State.beginAdoption_lm (s : State) :
    (s.beginAdoption).lm = s.lm := rfl

@[simp] theorem State.beginAdoption_xe (s : State) :
    (s.beginAdoption).xe = s.xe := rfl

@[simp] theorem State.beginAdoption_ew (s : State) :
    (s.beginAdoption).ew = s.ew := rfl

@[simp] theorem State.beginAdoption_tmp (s : State) :
    (s.beginAdoption).tmp = s.tmp := rfl

@[simp] theorem State.beginAdoption_pu (s : State) :
    (s.beginAdoption).pu = { s.pu with adoption := some { stage := .mask 0, adopted := 0, fixed := 0 } } := rfl

@[simp] theorem State.beginAdoption_los (s : State) :
    (s.beginAdoption).los = s.los := rfl

@[simp] theorem State.beginAdoption_mem (s : State) :
    (s.beginAdoption).mem = s.mem := rfl

@[simp] theorem State.beginAdoption_freeCount (s : State) :
    (s.beginAdoption).freeCount = s.freeCount := rfl

/-! ### A request under way -/

@[simp] theorem State.begin_st (s : State) : s.begin.st = s := rfl

@[simp] theorem State.begin_marks (s : State) : s.begin.marks = [] := rfl

@[simp] theorem State.begin_freed (s : State) : s.begin.freed = false := rfl

@[simp] theorem State.begin_raised (s : State) : s.begin.raised = false := rfl

@[simp] theorem Work.setRecord_st (w : Work) (d : Dest) (r : DestRecord) : (w.setRecord d r).st = w.st.setRecord d r := rfl

@[simp] theorem Work.setRecord_marks (w : Work) (d : Dest) (r : DestRecord) : (w.setRecord d r).marks = w.marks := rfl

@[simp] theorem Work.mark_st (w : Work) (d : Dest) : (w.mark d).st = w.st := rfl

@[simp] theorem Work.mark_marks (w : Work) (d : Dest) : (w.mark d).marks = insertDest d w.marks := rfl

@[simp] theorem Work.emit_st (w : Work) (kind : RecordKind) (reason : Nat) (subject : BitVec 16) (a b : Word) :
    (w.emit kind reason subject a b).st = w.st.emit kind reason subject a b := rfl

end Sys2Proof.Machine
end

