-- ==== Sys2Proof/Laws/Requests.lean ====
section
/-! SUPPORT. What the requests of the DT and the RE can change, said once for each shared operation: all of them keep every
block but the destination table, the ramp engine, the change sets and the event writer; which fields of a record each of
them keeps; phase evaluation; what a marking makes of the table-update list; the handling of a mask write. -/

namespace Sys2Proof.Machine

/-! ### The frame of a request -/

theorem State.keepsOutsideTable.refl (s : State) : s.keepsOutsideTable s := ⟨rfl, rfl, rfl, rfl, rfl, rfl, rfl, rfl, rfl, rfl⟩

theorem State.keepsOutsideTable.trans {s t u : State} (h : s.keepsOutsideTable t) (k : t.keepsOutsideTable u) :
    s.keepsOutsideTable u :=
  ⟨k.pending.trans h.pending, k.cbp.trans h.cbp, k.masks.trans h.masks, k.lm.trans h.lm, k.xe.trans h.xe,
    k.tmp.trans h.tmp, k.pu.trans h.pu, k.los.trans h.los, k.mem.trans h.mem, k.freeCount.trans h.freeCount⟩

/-- A fold of steps that each keep every block outside the table keeps it too. -/
theorem foldl_keepsOutsideTable {α : Type} (f : Work → α → Work) (hf : ∀ (w : Work) (a : α), w.st.keepsOutsideTable (f w a).st)
    (l : List α) (w : Work) : w.st.keepsOutsideTable (l.foldl f w).st := by
  induction l generalizing w with
  | nil => exact .refl _
  | cons a l ih => exact (hf w a).trans (ih (f w a))

/-- What a record raised can do: one record more at the end of the queue, or the dropped count (R138). -/
theorem State.emit_spec (s : State) (kind : RecordKind) (reason : Nat) (subject : BitVec 16) (a b : Word) :
    (s.ew.queue.length < Config.eventCapacity ∧
      s.emit kind reason subject a b = { s with ew := { s.ew with queue := s.ew.queue ++
        [{ kind := kind, reason := BitVec.ofNat 8 reason, subject := subject, detailA := a, detailB := b
           stamp := s.ew.timebase }] } }) ∨
    (Config.eventCapacity ≤ s.ew.queue.length ∧
      s.emit kind reason subject a b =
        { s with ew := { s.ew with dropped := countDropped s.ew.dropped } }) := by
  unfold State.emit
  split
  · exact .inl ⟨‹_›, rfl⟩
  · exact .inr ⟨by omega, rfl⟩

theorem State.emit_keepsOutsideTable (s : State) (kind : RecordKind) (reason : Nat) (subject : BitVec 16) (a b : Word) :
    s.keepsOutsideTable (s.emit kind reason subject a b) := by
  obtain ⟨_, h⟩ | ⟨_, h⟩ := s.emit_spec kind reason subject a b <;> rw [h] <;>
    exact ⟨rfl, rfl, rfl, rfl, rfl, rfl, rfl, rfl, rfl, rfl⟩

@[simp] theorem State.emit_dt (s : State) (kind : RecordKind) (reason : Nat) (subject : BitVec 16) (a b : Word) :
    (s.emit kind reason subject a b).dt = s.dt := by
  obtain ⟨_, h⟩ | ⟨_, h⟩ := s.emit_spec kind reason subject a b <;> rw [h]

@[simp] theorem State.emit_re (s : State) (kind : RecordKind) (reason : Nat) (subject : BitVec 16) (a b : Word) :
    (s.emit kind reason subject a b).re = s.re := by
  obtain ⟨_, h⟩ | ⟨_, h⟩ := s.emit_spec kind reason subject a b <;> rw [h]

@[simp] theorem State.emit_csa (s : State) (kind : RecordKind) (reason : Nat) (subject : BitVec 16) (a b : Word) :
    (s.emit kind reason subject a b).csa = s.csa := by
  obtain ⟨_, h⟩ | ⟨_, h⟩ := s.emit_spec kind reason subject a b <;> rw [h]

@[simp] theorem State.emit_mem (s : State) (kind : RecordKind) (reason : Nat) (subject : BitVec 16) (a b : Word) :
    (s.emit kind reason subject a b).mem = s.mem := (s.emit_keepsOutsideTable kind reason subject a b).mem

@[simp] theorem State.emit_pending (s : State) (kind : RecordKind) (reason : Nat) (subject : BitVec 16) (a b : Word) :
    (s.emit kind reason subject a b).pending = s.pending := (s.emit_keepsOutsideTable kind reason subject a b).pending

@[simp] theorem State.emit_cbp (s : State) (kind : RecordKind) (reason : Nat) (subject : BitVec 16) (a b : Word) :
    (s.emit kind reason subject a b).cbp = s.cbp := (s.emit_keepsOutsideTable kind reason subject a b).cbp

@[simp] theorem State.emit_lm (s : State) (kind : RecordKind) (reason : Nat) (subject : BitVec 16) (a b : Word) :
    (s.emit kind reason subject a b).lm = s.lm := (s.emit_keepsOutsideTable kind reason subject a b).lm

@[simp] theorem State.emit_xe (s : State) (kind : RecordKind) (reason : Nat) (subject : BitVec 16) (a b : Word) :
    (s.emit kind reason subject a b).xe = s.xe := (s.emit_keepsOutsideTable kind reason subject a b).xe

@[simp] theorem State.emit_pu (s : State) (kind : RecordKind) (reason : Nat) (subject : BitVec 16) (a b : Word) :
    (s.emit kind reason subject a b).pu = s.pu := (s.emit_keepsOutsideTable kind reason subject a b).pu

/-- One destination marked: its place in the list, its tag, and the end of the list for a new one (R16, R18). -/
theorem markUpdate_eq (tag : Option Nat) (l : List UpdateEntry) (d : Dest)
    (h : tag = none ∨ (l.map UpdateEntry.dest).Nodup) : markUpdate tag l d = markedUpdates l tag [d] := by
  induction l with
  | nil => rfl
  | cons e rest ih =>
    have hr : tag = none ∨ (rest.map UpdateEntry.dest).Nodup := h.imp id fun n => (List.nodup_cons.1 n).2
    unfold markUpdate
    split
    · next he =>
      subst he
      cases tag with
      | none => simp [markedUpdates]
      | some x =>
        have hn : e.dest ∉ rest.map UpdateEntry.dest := (List.nodup_cons.1 (h.resolve_left nofun)).1
        have hm : rest.map (fun u => if u.dest = e.dest then { u with tag := some x } else u) = rest :=
          (List.map_congr_left fun u hu => if_neg fun hd => hn (by rw [← hd]; exact List.mem_map_of_mem hu)).trans
            (List.map_id _)
        simp [markedUpdates, hm]
    · next he =>
      rw [ih hr]
      simp [markedUpdates, he, Ne.symm he, List.filter_cons]

/-- The destinations that a request has marked stand in ascending order, and marking one adds that one alone (R16). -/
theorem insertDest_spec (d : Dest) (l : List Dest) (h : l.Pairwise (· < ·)) :
    (insertDest d l).Pairwise (· < ·) ∧ ∀ e, e ∈ insertDest d l ↔ e = d ∨ e ∈ l := by
  induction l with
  | nil => simp [insertDest]
  | cons x rest ih =>
    obtain ⟨hx, hr⟩ := List.pairwise_cons.1 h
    unfold insertDest
    split
    · next hd =>
      refine ⟨List.pairwise_cons.2 ⟨fun e he => ?_, h⟩, fun e => by simp⟩
      obtain rfl | he := List.mem_cons.1 he
      · exact hd
      · exact hd.trans (hx e he)
    · next hd =>
      split
      · next he => subst he; exact ⟨h, fun e => by simp⟩
      · next he =>
        refine ⟨List.pairwise_cons.2 ⟨fun e hm => ?_, (ih hr).1⟩, fun e => ?_⟩
        · obtain rfl | hm := ((ih hr).2 e).1 hm
          · exact lt_of_le_of_ne (not_lt.1 hd) (Ne.symm he)
          · exact hx e hm
        · simp only [List.mem_cons, (ih hr).2]
          tauto

/-- The dropped count never falls (R138). -/
theorem le_countDropped (n : Nat) : n ≤ countDropped n := by unfold countDropped; split <;> omega

/-- It keeps its limit (R138). -/
theorem countDropped_le {n : Nat} (h : n ≤ Config.droppedLimit) : countDropped n ≤ Config.droppedLimit := by
  unfold countDropped; split <;> omega

/-- A record raised is all that raising one does to the event writer, whatever the queue and the count hold (R138). -/
theorem State.emit_onlyRaises (s : State) (kind : RecordKind) (reason : Nat) (subject : BitVec 16) (a b : Word) :
    s.onlyRaises (s.emit kind reason subject a b) := by
  obtain ⟨_, e⟩ | ⟨_, e⟩ := s.emit_spec kind reason subject a b <;> rw [e]
  · exact ⟨rfl, List.prefix_append _ _, Nat.le_refl _⟩
  · exact ⟨rfl, List.prefix_rfl, le_countDropped _⟩

theorem State.reportLoad_keepsOutsideTable (s : State) (d : Dest) (old new : DestRecord) :
    s.keepsOutsideTable (s.reportLoad d old new) := by
  unfold State.reportLoad
  split <;> exact ⟨rfl, rfl, rfl, rfl, rfl, rfl, rfl, rfl, rfl, rfl⟩

theorem State.clearHolder_keepsOutsideTable (s : State) (src : Source) : s.keepsOutsideTable (s.clearHolder src) := by
  cases src <;> exact ⟨rfl, rfl, rfl, rfl, rfl, rfl, rfl, rfl, rfl, rfl⟩

theorem State.takeHolder_keepsOutsideTable (s : State) (d : Dest) (src : Source) :
    s.keepsOutsideTable (s.takeHolder d src) := by
  cases src <;> exact ⟨rfl, rfl, rfl, rfl, rfl, rfl, rfl, rfl, rfl, rfl⟩

theorem State.clearClaimant_keepsOutsideTable (s : State) (d : Dest) (src : Source) :
    s.keepsOutsideTable (s.clearClaimant d src) := by
  unfold State.clearClaimant
  split
  · split <;> exact ⟨rfl, rfl, rfl, rfl, rfl, rfl, rfl, rfl, rfl, rfl⟩
  all_goals exact .refl _

theorem State.takeClaimant_keepsOutsideTable (s : State) (d : Dest) (src : Source) :
    s.keepsOutsideTable (s.takeClaimant d src) := by
  cases src <;> exact ⟨rfl, rfl, rfl, rfl, rfl, rfl, rfl, rfl, rfl, rfl⟩

theorem State.setRecord_keepsOutsideTable (s : State) (d : Dest) (r : DestRecord) : s.keepsOutsideTable (s.setRecord d r) :=
  ⟨rfl, rfl, rfl, rfl, rfl, rfl, rfl, rfl, rfl, rfl⟩

theorem State.setSlot_keepsOutsideTable (s : State) (n : SlotNo) (sl : Option RampSlot) :
    s.keepsOutsideTable (s.setSlot n sl) := ⟨rfl, rfl, rfl, rfl, rfl, rfl, rfl, rfl, rfl, rfl⟩

theorem Work.writeCurrent_keepsOutsideTable (w : Work) (d : Dest) (src : Source) (attn : Attn) :
    w.st.keepsOutsideTable (w.writeCurrent d src attn).st :=
  (((w.st.setRecord_keepsOutsideTable d _).trans (State.reportLoad_keepsOutsideTable _ d _ _)).trans
    (State.clearHolder_keepsOutsideTable _ _)).trans (State.takeHolder_keepsOutsideTable _ d src)

theorem Work.writeIntent_keepsOutsideTable (w : Work) (d : Dest) (src : Source) (attn : Attn) :
    w.st.keepsOutsideTable (w.writeIntent d src attn).st :=
  ((w.st.setRecord_keepsOutsideTable d _).trans (State.clearClaimant_keepsOutsideTable _ d _)).trans
    (State.takeClaimant_keepsOutsideTable _ d src)

theorem State.releaseSet_keepsOutsideTable (s : State) (serves : Option Nat) (interrupted : Bool) :
    s.keepsOutsideTable (s.releaseSet serves interrupted) := by
  unfold State.releaseSet
  split
  · exact .refl _
  · split
    · exact .refl _
    · split
      · exact State.keepsOutsideTable.trans
          (t := { s with csa := { s.csa with settling := s.csa.settling.filter fun x => x.id != _ } })
          ⟨rfl, rfl, rfl, rfl, rfl, rfl, rfl, rfl, rfl, rfl⟩ (State.emit_keepsOutsideTable _ _ _ _ _ _)
      · exact ⟨rfl, rfl, rfl, rfl, rfl, rfl, rfl, rfl, rfl, rfl⟩

theorem Work.freeSlot_keepsOutsideTable (w : Work) (n : SlotNo) : w.st.keepsOutsideTable (w.freeSlot n).st := by
  unfold Work.freeSlot
  split
  · exact .refl _
  · exact ⟨rfl, rfl, rfl, rfl, rfl, rfl, rfl, rfl, rfl, rfl⟩

theorem Work.interruptSlot_keepsOutsideTable (w : Work) (n : SlotNo) :
    w.st.keepsOutsideTable (w.interruptSlot n).st := by
  unfold Work.interruptSlot
  split
  · exact .refl _
  · exact (State.releaseSet_keepsOutsideTable _ _ _).trans (Work.freeSlot_keepsOutsideTable { w with st := _ } n)

theorem Work.settleSlot_keepsOutsideTable (w : Work) (n : SlotNo) : w.st.keepsOutsideTable (w.settleSlot n).st := by
  unfold Work.settleSlot
  split
  · exact .refl _
  · exact (State.releaseSet_keepsOutsideTable _ _ _).trans (Work.freeSlot_keepsOutsideTable { w with st := _ } n)

theorem Work.setPhase_keepsOutsideTable (w : Work) (n : SlotNo) (phase : Phase) (goal : Attn) :
    w.st.keepsOutsideTable (w.setPhase n phase goal).st := by
  unfold Work.setPhase
  split
  · exact .refl _
  · dsimp only
    split <;> exact ⟨rfl, rfl, rfl, rfl, rfl, rfl, rfl, rfl, rfl, rfl⟩

theorem Work.evaluateGoal_keepsOutsideTable (w : Work) (n : SlotNo) (d : Dest) :
    w.st.keepsOutsideTable (w.evaluateGoal n d).st := by
  unfold Work.evaluateGoal
  dsimp only
  split
  · exact w.settleSlot_keepsOutsideTable n
  · split <;> exact w.setPhase_keepsOutsideTable n _ _

theorem Work.enterPortWait_keepsOutsideTable (w : Work) (n : SlotNo) (d : Dest) (phase : Phase) :
    w.st.keepsOutsideTable (w.enterPortWait n d phase).st := by
  unfold Work.enterPortWait
  split
  · exact w.setPhase_keepsOutsideTable n _ _
  · exact (w.writeCurrent_keepsOutsideTable d _ _).trans (Work.setPhase_keepsOutsideTable _ n _ _)

/-- Phase evaluation keeps every block outside the table. -/
theorem Work.evaluate_keepsOutsideTable (w : Work) (n : SlotNo) : w.st.keepsOutsideTable (w.evaluate n).st := by
  unfold Work.evaluate
  split
  · exact .refl _
  · dsimp only
    split
    · exact w.evaluateGoal_keepsOutsideTable n _
    · split
      · exact w.setPhase_keepsOutsideTable n _ _
      · split
        · exact w.enterPortWait_keepsOutsideTable n _ _
        · exact (w.writeCurrent_keepsOutsideTable _ _ _).trans (Work.evaluateGoal_keepsOutsideTable _ n _)

theorem Work.occupySlot_keepsOutsideTable (w : Work) (n : SlotNo) (d : Dest) (serves : Option Nat) :
    w.st.keepsOutsideTable (w.occupySlot n d serves).st := by
  unfold Work.occupySlot
  refine State.keepsOutsideTable.trans ?_ (Work.evaluate_keepsOutsideTable _ n)
  exact ⟨rfl, rfl, rfl, rfl, rfl, rfl, rfl, rfl, rfl, rfl⟩

theorem Work.retargetSlot_keepsOutsideTable (w : Work) (n : SlotNo) (serves : Nat) :
    w.st.keepsOutsideTable (w.retargetSlot n serves).st := by
  unfold Work.retargetSlot
  split
  · exact .refl _
  · rename_i sl _
    refine State.keepsOutsideTable.trans ?_ (Work.evaluate_keepsOutsideTable _ n)
    exact (w.st.releaseSet_keepsOutsideTable sl.serves true).trans
      ⟨rfl, rfl, rfl, rfl, rfl, rfl, rfl, rfl, rfl, rfl⟩

theorem Work.reevaluateWanted_keepsOutsideTable (w : Work) (d : Dest) :
    w.st.keepsOutsideTable (w.reevaluateWanted d).st := ⟨rfl, rfl, rfl, rfl, rfl, rfl, rfl, rfl, rfl, rfl⟩

theorem Work.reevaluateDrop_keepsOutsideTable (w : Work) (d : Dest) :
    w.st.keepsOutsideTable (w.reevaluateDrop d).st := by
  unfold Work.reevaluateDrop
  dsimp only
  split
  · exact .refl _
  · exact w.writeCurrent_keepsOutsideTable d _ _

theorem Work.changeBlocked_keepsOutsideTable (w : Work) (d : Dest) (b : Bool) :
    w.st.keepsOutsideTable (w.changeBlocked d b).st := by
  have h : w.st.keepsOutsideTable ((w.setRecord d { w.st.record d with blocked := b }).mark d).st :=
    w.st.setRecord_keepsOutsideTable d _
  unfold Work.changeBlocked
  dsimp only
  split
  · exact h.trans (Work.evaluate_keepsOutsideTable _ _)
  · exact h.trans (Work.reevaluateWanted_keepsOutsideTable _ _)

theorem Work.cancelSlot_keepsOutsideTable (w : Work) (d : Dest) : w.st.keepsOutsideTable (w.cancelSlot d).st := by
  unfold Work.cancelSlot
  split
  · exact w.interruptSlot_keepsOutsideTable _
  · exact .refl _

theorem Work.forceDest_keepsOutsideTable (w : Work) (d : Dest) : w.st.keepsOutsideTable (w.forceDest d).st := by
  unfold Work.forceDest
  dsimp only
  refine State.keepsOutsideTable.trans ?_ (Work.writeCurrent_keepsOutsideTable _ d _ _)
  exact ((w.st.setRecord_keepsOutsideTable d _).trans (Work.cancelSlot_keepsOutsideTable (w.setRecord d _) d)).trans
    (State.setRecord_keepsOutsideTable _ d _)

theorem Work.unforceDest_keepsOutsideTable (w : Work) (d : Dest) : w.st.keepsOutsideTable (w.unforceDest d).st := by
  have h : w.st.keepsOutsideTable ((w.setRecord d { w.st.record d with forced := false }).mark d).st :=
    w.st.setRecord_keepsOutsideTable d _
  unfold Work.unforceDest
  dsimp only
  split
  · split
    · exact h
    · exact h.trans (Work.reevaluateWanted_keepsOutsideTable _ d)
  · exact h.trans (Work.reevaluateDrop_keepsOutsideTable _ d)

theorem Work.flagForced_keepsOutsideTable (w : Work) (d : Dest) (b : Bool) :
    w.st.keepsOutsideTable (w.flagForced d b).st := ⟨rfl, rfl, rfl, rfl, rfl, rfl, rfl, rfl, rfl, rfl⟩

theorem Work.finish_keepsOutsideTable (w : Work) (tag : Option Nat) : w.st.keepsOutsideTable (w.finish tag) :=
  ⟨rfl, rfl, rfl, rfl, rfl, rfl, rfl, rfl, rfl, rfl⟩

/-- The isolation request keeps every block outside the table. -/
theorem State.isolate_keepsOutsideTable (s : State) (k : Way) : s.keepsOutsideTable (s.isolate k) := by
  unfold State.isolate
  refine State.keepsOutsideTable.trans (t := s.setIsolated k true) ⟨rfl, rfl, rfl, rfl, rfl, rfl, rfl, rfl, rfl, rfl⟩ ?_
  refine State.keepsOutsideTable.trans ?_ (Work.finish_keepsOutsideTable _ none)
  refine foldl_keepsOutsideTable _ (fun w d => ?_) _ (s.setIsolated k true).begin
  split
  · exact w.forceDest_keepsOutsideTable d
  · exact w.flagForced_keepsOutsideTable d true

/-- The release request keeps every block outside the table. -/
theorem State.release_keepsOutsideTable (s : State) (k : Way) (tag : Option Nat) :
    s.keepsOutsideTable (s.release k tag) := by
  unfold State.release
  refine State.keepsOutsideTable.trans (t := s.setIsolated k false) ⟨rfl, rfl, rfl, rfl, rfl, rfl, rfl, rfl, rfl, rfl⟩ ?_
  refine State.keepsOutsideTable.trans ?_ (Work.finish_keepsOutsideTable _ tag)
  refine foldl_keepsOutsideTable _ (fun w d => ?_) _ (s.setIsolated k false).begin
  split
  · exact w.unforceDest_keepsOutsideTable d
  · exact w.flagForced_keepsOutsideTable d false

theorem State.startTick_keepsOutsideTable (s : State) : s.keepsOutsideTable s.startTick :=
  ⟨rfl, rfl, rfl, rfl, rfl, rfl, rfl, rfl, rfl, rfl⟩

/-! ### Records -/

@[simp] theorem State.record_setRecord_same (s : State) (d : Dest) (r : DestRecord) : (s.setRecord d r).record d = r := by
  simp [State.record]

theorem State.record_setRecord_other (s : State) {d e : Dest} (r : DestRecord) (h : e ≠ d) :
    (s.setRecord d r).record e = s.record e := by
  have : d.val ≠ e.val := fun he => h (Fin.ext he.symm)
  simp [State.record, this]

/-- A record depends on the table's records alone. -/
theorem State.record_congr {s t : State} (h : t.dt.records = s.dt.records) (d : Dest) : t.record d = s.record d := by
  unfold State.record
  rw [h]

@[simp] theorem State.emit_record (s : State) (kind : RecordKind) (reason : Nat) (subject : BitVec 16) (a b : Word)
    (d : Dest) : (s.emit kind reason subject a b).record d = s.record d := State.record_congr (by simp) d

theorem State.reportLoad_dt (s : State) (d : Dest) (old new : DestRecord) : (s.reportLoad d old new).dt = s.dt := by
  unfold State.reportLoad
  split <;> rfl

theorem State.clearHolder_records (s : State) (src : Source) : (s.clearHolder src).dt.records = s.dt.records := by
  cases src <;> rfl

theorem State.takeHolder_records (s : State) (d : Dest) (src : Source) :
    (s.takeHolder d src).dt.records = s.dt.records := by
  cases src <;> rfl

theorem State.clearClaimant_records (s : State) (d : Dest) (src : Source) :
    (s.clearClaimant d src).dt.records = s.dt.records := by
  unfold State.clearClaimant
  split
  · split <;> rfl
  all_goals rfl

theorem State.takeClaimant_records (s : State) (d : Dest) (src : Source) :
    (s.takeClaimant d src).dt.records = s.dt.records := by
  cases src <;> rfl

theorem State.releaseSet_dt (s : State) (serves : Option Nat) (interrupted : Bool) :
    (s.releaseSet serves interrupted).dt = s.dt := by
  unfold State.releaseSet
  split
  · rfl
  · split
    · rfl
    · split
      · simp
      · rfl

theorem State.releaseSet_re (s : State) (serves : Option Nat) (interrupted : Bool) :
    (s.releaseSet serves interrupted).re = s.re := by
  unfold State.releaseSet
  split
  · rfl
  · split
    · rfl
    · split
      · simp
      · rfl

/-- A write of a current changes the current of that destination and nothing else of any record (R4). -/
theorem Work.writeCurrent_record (w : Work) (d : Dest) (src : Source) (attn : Attn) (e : Dest) :
    (w.writeCurrent d src attn).st.record e =
      if e = d then { w.st.record d with curSrc := src, curAttn := attn } else w.st.record e := by
  have h : (w.writeCurrent d src attn).st.record e =
      (w.st.setRecord d { w.st.record d with curSrc := src, curAttn := attn }).record e := by
    apply State.record_congr
    simp only [Work.writeCurrent, Work.mark_st, State.takeHolder_records, State.clearHolder_records, State.reportLoad_dt]
  rw [h]
  split
  · subst_vars; exact State.record_setRecord_same _ _ _
  · exact State.record_setRecord_other _ _ ‹_›

/-- A write of an intent changes the intent of that destination and nothing else of any record (R49). -/
theorem Work.writeIntent_record (w : Work) (d : Dest) (src : Source) (attn : Attn) (e : Dest) :
    (w.writeIntent d src attn).st.record e =
      if e = d then { w.st.record d with intentSrc := src, intentAttn := attn } else w.st.record e := by
  have h : (w.writeIntent d src attn).st.record e =
      (w.st.setRecord d { w.st.record d with intentSrc := src, intentAttn := attn }).record e := by
    apply State.record_congr
    simp only [Work.writeIntent, State.takeClaimant_records, State.clearClaimant_records]
  rw [h]
  split
  · subst_vars; exact State.record_setRecord_same _ _ _
  · exact State.record_setRecord_other _ _ ‹_›

/-- Every record keeps its intent, its flags and its queued marks. -/
def State.keepsIntents (s t : State) : Prop :=
  ∀ d, t.record d = { s.record d with
    curSrc := (t.record d).curSrc, curAttn := (t.record d).curAttn, slot := (t.record d).slot, wanted := (t.record d).wanted }

theorem State.keepsIntents.refl (s : State) : s.keepsIntents s := fun _ => rfl

theorem State.keepsIntents.trans {s t u : State} (h : s.keepsIntents t) (k : t.keepsIntents u) : s.keepsIntents u := by
  intro d
  rw [k d, h d]

theorem State.keepsIntents_of_records {s t : State} (h : t.dt.records = s.dt.records) : s.keepsIntents t := by
  intro d
  rw [State.record_congr h d]

/-- A record replaced by one with the same intent, flags and queued marks. -/
theorem State.setRecord_keepsIntents (s : State) (d : Dest) (src : Source) (attn : Attn) (slot : Option SlotNo)
    (wanted : Bool) :
    s.keepsIntents
      (s.setRecord d { s.record d with curSrc := src, curAttn := attn, slot := slot, wanted := wanted }) := by
  intro e
  by_cases h : e = d
  · subst h; simp
  · rw [State.record_setRecord_other s _ h]

theorem Work.writeCurrent_keepsIntents (w : Work) (d : Dest) (src : Source) (attn : Attn) :
    w.st.keepsIntents (w.writeCurrent d src attn).st := by
  intro e
  rw [Work.writeCurrent_record]
  split
  · subst_vars; rfl
  · rfl

theorem Work.freeSlot_keepsIntents (w : Work) (n : SlotNo) : w.st.keepsIntents (w.freeSlot n).st := by
  unfold Work.freeSlot
  split
  · exact .refl _
  · rename_i sl _
    exact State.setRecord_keepsIntents w.st sl.dest _ _ _ _

theorem Work.settleSlot_keepsIntents (w : Work) (n : SlotNo) : w.st.keepsIntents (w.settleSlot n).st := by
  unfold Work.settleSlot
  split
  · exact .refl _
  · exact (State.keepsIntents_of_records (by rw [State.releaseSet_dt])).trans
      (Work.freeSlot_keepsIntents { w with st := _ } n)

theorem Work.interruptSlot_keepsIntents (w : Work) (n : SlotNo) : w.st.keepsIntents (w.interruptSlot n).st := by
  unfold Work.interruptSlot
  split
  · exact .refl _
  · exact (State.keepsIntents_of_records (by rw [State.releaseSet_dt])).trans
      (Work.freeSlot_keepsIntents { w with st := _ } n)

theorem Work.setPhase_records (w : Work) (n : SlotNo) (phase : Phase) (goal : Attn) :
    (w.setPhase n phase goal).st.dt.records = w.st.dt.records := by
  unfold Work.setPhase
  split
  · rfl
  · dsimp only
    split <;> rfl

theorem Work.setPhase_keepsIntents (w : Work) (n : SlotNo) (phase : Phase) (goal : Attn) :
    w.st.keepsIntents (w.setPhase n phase goal).st := State.keepsIntents_of_records (w.setPhase_records n phase goal)

theorem Work.evaluateGoal_keepsIntents (w : Work) (n : SlotNo) (d : Dest) : w.st.keepsIntents (w.evaluateGoal n d).st := by
  unfold Work.evaluateGoal
  dsimp only
  split
  · exact w.settleSlot_keepsIntents n
  · split <;> exact w.setPhase_keepsIntents n _ _

/-- Phase evaluation keeps every intent, flag and queued mark (R72). -/
theorem Work.evaluate_keepsIntents (w : Work) (n : SlotNo) : w.st.keepsIntents (w.evaluate n).st := by
  unfold Work.evaluate
  split
  · exact .refl _
  · dsimp only
    split
    · exact w.evaluateGoal_keepsIntents n _
    · split
      · exact w.setPhase_keepsIntents n _ _
      · split
        · unfold Work.enterPortWait
          split
          · exact w.setPhase_keepsIntents n _ _
          · exact (w.writeCurrent_keepsIntents _ _ _).trans (Work.setPhase_keepsIntents _ n _ _)
        · exact (w.writeCurrent_keepsIntents _ _ _).trans (Work.evaluateGoal_keepsIntents _ n _)

theorem Work.occupySlot_keepsIntents (w : Work) (n : SlotNo) (d : Dest) (serves : Option Nat) :
    w.st.keepsIntents (w.occupySlot n d serves).st := by
  unfold Work.occupySlot
  refine State.keepsIntents.trans ?_ (Work.evaluate_keepsIntents _ n)
  exact State.setRecord_keepsIntents w.st d _ _ _ _

theorem Work.retargetSlot_keepsIntents (w : Work) (n : SlotNo) (serves : Nat) :
    w.st.keepsIntents (w.retargetSlot n serves).st := by
  unfold Work.retargetSlot
  split
  · exact .refl _
  · refine State.keepsIntents.trans ?_ (Work.evaluate_keepsIntents _ n)
    refine State.keepsIntents_of_records ?_
    exact congrArg DestTable.records (State.releaseSet_dt _ _ _)

theorem Work.cancelSlot_keepsIntents (w : Work) (d : Dest) : w.st.keepsIntents (w.cancelSlot d).st := by
  unfold Work.cancelSlot
  split
  · exact w.interruptSlot_keepsIntents _
  · exact .refl _

/-! ### Phase evaluation (R72) -/

/-- Slot `n` has been left as `sl`, its destination's record as `r`, and the ramp list as it was, less the slot where it was
freed; no other slot and no other record has changed. -/
structure Work.leavesSlot (w v : Work) (n : SlotNo) (d : Dest) (r : DestRecord) (sl : Option RampSlot) : Prop where
  record : v.st.record d = r
  others : ∀ e, e ≠ d → v.st.record e = w.st.record e
  slot : v.st.re.slots[n] = sl
  slots : ∀ k : SlotNo, k ≠ n → v.st.re.slots[k] = w.st.re.slots[k]
  list : v.st.re.list = if sl = none then w.st.re.list.erase n else w.st.re.list

theorem State.reportLoad_slots (s : State) (d : Dest) (old new : DestRecord) :
    (s.reportLoad d old new).re.slots = s.re.slots ∧ (s.reportLoad d old new).re.list = s.re.list := by
  unfold State.reportLoad
  split <;> exact ⟨rfl, rfl⟩

/-- A write of a current leaves the ramp slots and the ramp list alone. -/
theorem Work.writeCurrent_slots (w : Work) (d : Dest) (src : Source) (attn : Attn) :
    (w.writeCurrent d src attn).st.re.slots = w.st.re.slots ∧ (w.writeCurrent d src attn).st.re.list = w.st.re.list := by
  have h : ∀ s : State, (s.takeHolder d src).re = s.re := fun s => by cases src <;> rfl
  have k : ∀ (s : State) (o : Source), (s.clearHolder o).re = s.re := fun s o => by cases o <;> rfl
  simp only [Work.writeCurrent, Work.mark_st, h, k]
  exact State.reportLoad_slots _ _ _ _

theorem SlotNo.val_ne {n k : SlotNo} (h : k ≠ n) : n.val ≠ k.val := fun e => h (Fin.ext e.symm)

/-- What a change of phase can do. -/
theorem Work.setPhase_leavesSlot {w : Work} {n : SlotNo} {sl : RampSlot} (hs : w.st.re.slots[n] = some sl) (phase : Phase)
    (goal : Attn) : w.leavesSlot (w.setPhase n phase goal) n sl.dest (w.st.record sl.dest)
      (some { sl with phase := phase, goal := goal }) := by
  have h : (w.setPhase n phase goal).st = w.st.setSlot n (some { sl with phase := phase, goal := goal }) := by
    unfold Work.setPhase
    rw [hs]
    dsimp only
    split <;> rfl
  refine ⟨State.record_congr (w.setPhase_records n phase goal) _, fun e _ => State.record_congr (w.setPhase_records n phase goal) e,
    ?_, fun k hk => ?_, ?_⟩
  · rw [h]; simp
  · rw [h]; simp [SlotNo.val_ne hk]
  · rw [h]; simp

/-- What the freeing of a slot found at rest can do (R70, R73). -/
theorem Work.settleSlot_leavesSlot {w : Work} {n : SlotNo} {sl : RampSlot} (hs : w.st.re.slots[n] = some sl) :
    w.leavesSlot (w.settleSlot n) n sl.dest { w.st.record sl.dest with slot := none } none := by
  have hd : ∀ e, (w.st.releaseSet sl.serves false).record e = w.st.record e :=
    fun e => State.record_congr (by rw [State.releaseSet_dt]) e
  have hr : (w.st.releaseSet sl.serves false).re = w.st.re := State.releaseSet_re _ _ _
  have h : (w.settleSlot n).st = State.setRecord { (w.st.releaseSet sl.serves false).setSlot n none with
      re := { ((w.st.releaseSet sl.serves false).setSlot n none).re with list := w.st.re.list.erase n } } sl.dest
      { w.st.record sl.dest with slot := none } := by
    rw [← hd]
    simp only [Work.settleSlot, hs, Work.freeSlot, hr, Work.mark_st, State.setSlot]
    rfl
  have hc : ∀ e, State.record { (w.st.releaseSet sl.serves false).setSlot n none with
      re := { ((w.st.releaseSet sl.serves false).setSlot n none).re with list := w.st.re.list.erase n } } e = w.st.record e := hd
  refine ⟨by rw [h]; exact State.record_setRecord_same _ _ _, fun e he => ?_, ?_, fun k hk => ?_, ?_⟩
  · rw [h, State.record_setRecord_other _ _ he, hc]
  · rw [h]; simp
  · rw [h]; simp [SlotNo.val_ne hk, hr]
  · rw [h]; simp

/-- Step 3 of phase evaluation, of a record whose source is its intent's (R72). -/
theorem Work.evaluateGoal_leavesSlot {w : Work} {n : SlotNo} {sl : RampSlot} (hs : w.st.re.slots[n] = some sl) :
    w.leavesSlot (w.evaluateGoal n sl.dest) n sl.dest ((w.st.record sl.dest).towardTarget sl.dest sl).1
      ((w.st.record sl.dest).towardTarget sl.dest sl).2 := by
  unfold Work.evaluateGoal DestRecord.towardTarget
  dsimp only
  split
  · exact Work.settleSlot_leavesSlot hs
  · split
    · exact Work.setPhase_leavesSlot hs _ _
    · exact Work.setPhase_leavesSlot hs _ _

/-- A change of one destination's current ahead of what follows on its slot. -/
theorem Work.leavesSlot.afterCurrent {w v : Work} {n : SlotNo} {d : Dest} {src : Source} {attn : Attn} {r : DestRecord}
    {sl : Option RampSlot} (h : (w.writeCurrent d src attn).leavesSlot v n d r sl) : w.leavesSlot v n d r sl where
  record := h.record
  others := fun e he => by rw [h.others e he, Work.writeCurrent_record, if_neg he]
  slot := h.slot
  slots := fun k hk => by rw [h.slots k hk, (w.writeCurrent_slots d src attn).1]
  list := by rw [h.list, (w.writeCurrent_slots d src attn).2]

/-- What phase evaluation can do: it leaves the slot and its destination's record as R72 says, and every other as it was. -/
theorem Work.evaluate_leavesSlot {w : Work} {n : SlotNo} {sl : RampSlot} (hs : w.st.re.slots[n] = some sl)
    (hw : sl.phase = .portWait → (w.st.record sl.dest).curSrc = .none) :
    let r := w.st.record sl.dest
    let phased := r.phased sl.dest sl (w.st.otherHolder sl.dest r.intentSrc).isSome
    w.leavesSlot (w.evaluate n) n sl.dest phased.1 phased.2 := by
  have hc : ∀ src attn, (w.writeCurrent sl.dest src attn).st.re.slots[n] = some sl := fun src attn => by
    rw [(w.writeCurrent_slots sl.dest src attn).1, hs]
  have he : (w.st.record sl.dest).curAttn = dark → ∀ src, (w.writeCurrent sl.dest src dark).st.record sl.dest =
      { w.st.record sl.dest with curSrc := src } := fun hdark src => by
    rw [Work.writeCurrent_record, if_pos rfl, ← hdark]
  unfold Work.evaluate DestRecord.phased
  rw [hs]
  dsimp only
  split
  · exact Work.evaluateGoal_leavesSlot hs
  · split
    · exact Work.setPhase_leavesSlot hs _ _
    · have hdark : (w.st.record sl.dest).curAttn = dark := Classical.not_not.1 ‹_›
      split
      · unfold Work.enterPortWait
        split
        · have k := Work.setPhase_leavesSlot hs .portWait dark
          rw [show ({ w.st.record sl.dest with curSrc := .none } : DestRecord) = w.st.record sl.dest by rw [← hw ‹_›]]
          exact k
        · have k := (Work.setPhase_leavesSlot (hc .none dark) .portWait dark).afterCurrent
          rw [he hdark] at k
          exact k
      · have k := (Work.evaluateGoal_leavesSlot (hc (w.st.record sl.dest).intentSrc dark)).afterCurrent
        rw [he hdark] at k
        exact k

/-- Phase evaluation in the terms in which the statements say it (R72). -/
theorem Work.evaluate_evaluates {w : Work} {n : SlotNo} {sl : RampSlot} (hs : w.st.re.slots[n] = some sl)
    (hw : sl.phase = .portWait → (w.st.record sl.dest).curSrc = .none) :
    w.st.evaluates (w.evaluate n).st n sl (w.st.record sl.dest) w.st.re.list := by
  have h := Work.evaluate_leavesSlot hs hw
  exact ⟨Prod.ext h.record h.slot, h.slots, by rw [h.list, h.slot]⟩

/-! ### The handling of a mask write (R87) -/

/-- A bit that a mask write changes is one whose value differs (R87). -/
theorem mem_changedBits (old new : Word) (b : Fin 32) :
    b ∈ changedBits old new ↔ new.getLsbD b.val ≠ old.getLsbD b.val := by
  simp only [changedBits, List.mem_filter, List.mem_finRange, true_and, bne_iff_ne]
  exact ne_comm

/-- The changed bits stand in ascending order (R87). -/
theorem changedBits_ascending (old new : Word) : (changedBits old new).Pairwise (· < ·) :=
  (List.pairwise_lt_finRange 32).filter _

/-- One blocked-flag request changes nothing outside the table (R6). -/
theorem State.blockRequest_keepsOutsideTable (s : State) (tag : Nat) (d : Dest) (b : Bool) :
    s.keepsOutsideTable (s.blockRequest tag d b) :=
  (Work.changeBlocked_keepsOutsideTable s.begin d b).trans (Work.finish_keepsOutsideTable _ _)

/-- The next request of a mask write changes the table, the change sets, the event writer and the head's condition alone:
after it the head stands at the request that follows, or at the memory write of the whole word (R87). -/
theorem State.blockNext_spec (s : State) (tag : Nat) (m : Fin 12) (b : Fin 32) (rest : List (Fin 32)) :
    ∃ u, u = s.blockRequest tag (maskDest m b) ((s.maskWord m).getLsbD b.val) ∧ s.keepsOutsideTable u ∧
      s.blockNext tag m (b :: rest) = { u with cbp := { s.cbp with head := s.maskStage m rest } } := by
  refine ⟨_, rfl, State.blockRequest_keepsOutsideTable _ _ _ _, ?_⟩
  rw [State.blockNext, State.setHead, (State.blockRequest_keepsOutsideTable s tag _ _).cbp]

/-- With a mask write in handling MASK_VIEW_WRITE sends its next request (R87). -/
theorem maskViewWriteStep_masking {s : State} {m : Fin 12} {todo : List (Fin 32)} {h : PostedWrite} {rest : List PostedWrite}
    (hh : s.cbp.head = .masking m todo) (hq : s.cbp.queue = h :: rest) : maskViewWriteStep s = s.blockNext h.tag m todo := by
  rw [maskViewWriteStep, hh, hq]

end Sys2Proof.Machine
end

