-- ==== Sys2Proof/WellFormed.lean ====
section
/-! DEFINITION. Which commands are well formed. Every operand's range is its type's, but for the ROM image. -/

namespace Sys2Proof

/-- The ROM image has exactly the twenty bytes that R146 clocks in. -/
def Instr.wellFormed : Instr → Bool
  | .preloadEnd image => image.length == 20
  | .resetAssert _ => true
  | .resetRelease _ _ _ => true
  | .timebaseTick => true
  | .hostWrite _ _ _ => true
  | .hostRead _ _ => true
  | .delayedReadIssue _ => true
  | .discardTimerExpiry _ => true
  | .pathWrite => true
  | .maskViewWrite => true
  | .writeThrough => true
  | .planHeaderWrite => true
  | .statusZoneWrite => true
  | .narrowCommandWrite => true
  | .cmdUnlock => true
  | .cmdAbortSet => true
  | .cmdExchange => true
  | .cmdRelease => true
  | .cmdRingTail => true
  | .cmdRestart => true
  | .ctlWriteGrant => true
  | .ctlReadGrant => true
  | .tblGrant => true
  | .rampTickExpiry => true
  | .wayPass _ => true
  | .arbiterOccasion => true
  | .checkIntervalExpiry => true
  | .losChange _ _ => true
  | .wayEvaluation _ => true
  | .exchangeStart => true
  | .exchangeAccessGrant => true
  | .exchangeSwap => true
  | .adoptionStart => true
  | .adoptionAccessGrant => true
  | .eventRecordGrant => true
  | .ringWordGrant => true
  | .statusZoneGrant => true

end Sys2Proof
end

