-- ==== Sys2Proof/Tests/Slice0.lean ====
section
/-! SUPPORT. The author's tests: worked examples of the spec on single steps, the WellFormed smoke, and a witness for the
hypotheses of each statement. -/

namespace Sys2Proof.Tests

open Sys2Proof Sys2Proof.Machine

-- The witnesses are checked one at a time: the threads of many at once would not fit the memory a check is given.
set_option Elab.async false

/-! ### Small states -/

/-- The part running, window base 0x00, window open, nothing else begun. -/
def up : State :=
  { State.reset with
    pu := { State.reset.pu with power := .running }
    cbp := { State.reset.cbp with lock := .opened } }

/-- The state after a command. -/
def after (c : Instr) (s : State) : State :=
  match exec c s with
  | .next t => t
  | .fault _ => s
  | .refused _ => s

/-- A state with a write of a word at the queue's head. -/
def posted (s : State) (offset : Nat) (size : Size) (data : Word) : State :=
  let a : Addr := BitVec.ofNat 24 offset
  { s with cbp := { s.cbp with
      queue := [{ addr := a, size := size, data := data, zone := zoneOf s.pu.params a, tag := 0 }], postedCount := 1 } }

/-- A state whose head is in handling. -/
def handling (s : State) (todo : List Access) (restart : Bool) : State :=
  { posted s 0x2000 .four 0#32 with cbp := { (posted s 0x2000 .four 0#32).cbp with head := .writing todo restart } }

/-- A state whose table-update list holds these destinations. -/
def listing (s : State) (ds : List Dest) : State :=
  { s with dt := { s.dt with updates := ds.map fun d => { dest := d, tag := none } } }

/-- A state with an exchange of plan 0 running. -/
def exchanging (s : State) (step : Fin 16) (stage : ExchangeStage) (key path : Word) : State :=
  let x : RunningExchange :=
    { request := { origin := .controller, plan := 0 }, step := step, swapped := 2, skipped := 1, stage := stage
      keyWord := key, pathWord := path }
  { s with xe := { s.xe with running := some x } }

/-- A state with an adoption under way. -/
def adopting (s : State) (stage : AdoptionStage) : State :=
  { s with
    pu := { s.pu with adoption := some { stage := stage, adopted := 431, fixed := 1 } }
    cbp := { s.cbp with lock := .adopting } }

/-- A state whose way 3 has this record. -/
def wayed (s : State) (state : WayState) (counter recovery : Nat) (latch : Bool) : State :=
  { s with
    lm :=
      { s.lm with
        checkTimer := true
        ways := s.lm.ways.set 3
          { latch := latch, state := state, counter := counter, recovery := recovery, planRequested := false } }
    dt := { s.dt with isolated := s.dt.isolated.set 3 state.holdsDark } }

/-- A state with one record of the event queue. -/
def recorded (s : State) (stage : Fin 5) : State :=
  { s with ew := { s.ew with
      stage := stage
      queue := [{ kind := .setSettled, reason := 0#8, subject := 7#16, detailA := 2#32, detailB := 0#32, stamp := 9#32 }] } }

/-- Bytes 0 to 19 of the spec's example image, with byte 6 and the check byte given (section 11.9). -/
def exampleImage (tick check : Byte) : List Byte :=
  [0xC3#8, 0x11#8, 0x40#8, 0x00#8, 0x01#8, 0x06#8, tick, 0x0A#8, 0x10#8, 0x00#8, 0x01#8, 0x05#8, 0x00#8, 0xFF#8, 0xFF#8,
    0xFF#8, 0xFF#8, 0x00#8, 0x32#8, check]

/-! ### WellFormed -/

theorem test_wellFormed_short_image : (Instr.preloadEnd [0xC3#8]).wellFormed = false := by decide
theorem test_wellFormed_long_image : (Instr.preloadEnd (List.replicate 21 0#8)).wellFormed = false := by decide
theorem test_wellFormed_image : (Instr.preloadEnd (exampleImage 0x14#8 0x83#8)).wellFormed = true := by decide

/-! ### Worked values of the spec -/

/-- Section 1.6 and 11.3: destination 197, add port 27, attenuation 40, at rest. -/
theorem test_current_word : composePath (.port 27) 40#8 0 = 0x00001E28#32 := by decide

/-- Section 11.3: the closing write 0x86004D3C is stored as 0x00004D3C. -/
theorem test_stored_word : storedWord 0x86004D3C#32 = 0x00004D3C#32 ∧ pathClose 0x86004D3C#32 = true ∧
    pathTrial 0x86004D3C#32 = false ∧ pathLabel 0x86004D3C#32 = 6#4 := by decide

/-- Section 5.1: mask word 6 bit 5 is destination 197; mask word 10 bit 31 is destination 351. -/
theorem test_mask_destinations : maskDest 6 5 = 197 ∧ maskDest 10 31 = 351 := by decide

/-- R85: the byte 0x80 written to offset 0x0719 makes 0x00000030 into 0x00008030. -/
theorem test_mask_byte : maskWrite .direct 0x30#32 1 [0x80#8] = 0x00008030#32 := by decide

/-- R62: weights of the table. -/
theorem test_weights : weight 0#8 = 4096 ∧ weight 1#8 = 4003 ∧ weight 49#8 = 1325 ∧ weight 254#8 = 12 ∧ weight 255#8 = 0 := by
  decide

/-- Section 11.9: the example image holds the defaults with window base 0x40. -/
theorem test_image_defaults : judgeImage true (exampleImage 0x14#8 0x83#8) = .romUsed ∧
    romParams (exampleImage 0x14#8 0x83#8) = defaultParams 0x40#8 := by decide +kernel

/-- Section 11.9: byte 6 changed to 0 fails the sum, detail B 0x0000ECC3. -/
theorem test_image_sum : judgeImage true (exampleImage 0x00#8 0x83#8) = .sum ∧
    bootDetail .sum (exampleImage 0x00#8 0x83#8) = 0x0000ECC3#32 := by decide +kernel

/-- Section 11.9: with the check byte 0x97 the image passes and T is clamped to 1. -/
theorem test_image_clamp : judgeImage true (exampleImage 0x00#8 0x97#8) = .romUsed ∧
    (romParams (exampleImage 0x00#8 0x97#8)).tickPeriod = 1 := by decide +kernel

/-- R125: the ends of zones, for the default ring of 256 records. -/
theorem test_zones : zoneOfOffset 256 0x5FF = .linePath ∧ zoneOfOffset 256 0x600 = .dropPath ∧
    zoneOfOffset 256 0x6BF = .dropPath ∧ zoneOfOffset 256 0x6C0 = .plain ∧ zoneOfOffset 256 0x72F = .mask .direct ∧
    zoneOfOffset 256 0x817 = .command ∧ zoneOfOffset 256 0x818 = .plain ∧ zoneOfOffset 256 0x933 = .status ∧
    zoneOfOffset 256 0x13FF = .planStore ∧ zoneOfOffset 256 0x141F = .planHeader ∧ zoneOfOffset 256 0x8FFF = .ring ∧
    zoneOfOffset 256 0x9000 = .plain := by decide

/-- All four requesters present accesses. -/
def crowded : State :=
  let s := listing (handling up [.write 0x2000 [0#8]] false) [0]
  { exchanging s 0 .header 0#32 0#32 with ew := { s.ew with ringWordDue := true } }

/-- The requesters of the next grants, in order. -/
def grantOrder : Nat → State → List (Option Requester)
  | 0, _ => []
  | n + 1, s =>
    s.nextGrant :: (match s.nextGrant with
      | some r => grantOrder n (s.movePointers r)
      | none => [])

/-- R137: the nine grants of the table. -/
theorem test_grant_order : grantOrder 9 crowded =
    [some .ctl, some .tbl, some .xch, some .evt, some .tbl, some .xch, some .ctl, some .tbl, some .xch] := by
  decide +kernel

/-! ### One step of each command -/

theorem test_resetAssert : (after (.resetAssert false) (wayed up .isolated 200 3 true)).lm.ways[3].state = .clear := by
  decide +kernel

theorem test_resetRelease : (after (.resetRelease 2#2 true true) State.reset).pu.romSent = [0x03#8, 0x00#8, 0x00#8] ∧
    (after (.resetRelease 2#2 true true) State.reset).pu.srcsN = false := by decide +kernel

/-- R147: a blank image raises BOOT_DEFAULTS with reason 2, SIGNATURE. -/
theorem test_preloadEnd :
    let t := after (.preloadEnd []) (after (.resetRelease 2#2 false true) State.reset)
    t.pu.params.windowBase = 0x40#8 ∧ t.ew.queue.map EventRecord.reason = [2#8] := by decide +kernel

/-- R142: after 4,294,967,295 the timebase returns to 0. -/
theorem test_timebase_wraps : (after .timebaseTick { up with ew := { up.ew with timebase := 0xFFFFFFFF#32 } }).ew.timebase = 0#32 := by
  decide +kernel

theorem test_hostWrite : (after (.hostWrite 0x2000#24 0xF#4 5#32) up).cbp.response = .done ∧
    ((after (.hostWrite 0x2000#24 0xF#4 5#32) up).cbp.queue.map PostedWrite.zone) = [.plain] := by decide +kernel

/-- R124: three byte enables are answered FAULT. -/
theorem test_hostWrite_three : (after (.hostWrite 0x2000#24 0x7#4 5#32) up).cbp.response = .fault := by decide +kernel

/-- R132: with nothing posted or pending a read is served directly, held with WAIT. -/
theorem test_hostRead : (after (.hostRead 0x2000#24 0xF#4) up).cbp.response = .wait := by decide +kernel

/-- R131: behind a posted write it is latched and answered RETRY. -/
theorem test_hostRead_latched :
    let t := after (.hostRead 0x2000#24 0xF#4) (posted up 0x2000 .four 5#32)
    t.cbp.response = .retry ∧ t.cbp.slots[0].map ReadSlot.barrier = some (some 0) := by decide +kernel

/-- A delayed-read slot 1 with this state, behind the posted write 0. -/
def latched (s : State) (st : ReadState) : State :=
  { s with cbp := { s.cbp with
      slots := s.cbp.slots.set 1 (some { addr := 0x2000#24, size := .four, state := st, barrier := some 0 })
      latchOrder := [1], postedCount := 1 } }

theorem test_delayedReadIssue : (after (.delayedReadIssue 1) (latched up .latched)).cbp.slots[1].map ReadSlot.state =
    some (.issued []) := by decide +kernel

theorem test_discardTimerExpiry :
    let t := after (.discardTimerExpiry 1) (latched up (.complete [0#8, 0#8, 0#8, 0#8]))
    t.cbp.slots[1] = none ∧ t.ew.queue.map EventRecord.kind = [.readDiscarded] := by decide +kernel

/-- R25: a write without CLOSE joins the open set, its unassigned and closing bits cleared. -/
theorem test_pathWrite : (after .pathWrite (posted up 0x194 .four 0x06004D3C#32)).csa.openSet =
    [{ dest := 101, word := 0x00004D3C#32 }] := by decide +kernel

/-- R29: express from the line destination's own way is refused as UTURN, code 3. -/
theorem test_pathWrite_uturn : (after .pathWrite (posted up 0x000 .four 0x80000114#32)).ew.queue.map EventRecord.reason =
    [3#8] := by decide +kernel

/-- R86: SET through offset 0x0740 sets bits of mask word 0. R87: the first request goes out as the word is stored, the next
at a step of its own. -/
theorem test_maskViewWrite :
    let s := after .maskViewWrite (posted up 0x740 .four 0x5#32)
    let t := after .maskViewWrite s
    s.masks[0] = some 0x5#32 ∧ s.dt.updates.map UpdateEntry.dest = [0] ∧ s.cbp.head = .masking 0 [2] ∧
      t.dt.updates.map UpdateEntry.dest = [0, 2] ∧
      t.cbp.head = .writing [.write 0x700 [5#8, 0#8, 0#8, 0#8]] false := by decide +kernel

theorem test_writeThrough : (after .writeThrough (posted up 0x2001 .two 0x0000BBAA#32)).cbp.head =
    .writing [.write 0x2001 [0xAA#8, 0xBB#8]] false := by decide +kernel

theorem test_planHeaderWrite :
    let s := posted { up with xe := { up.xe with conditions := up.xe.conditions.set 2 .torn } } 0x1408 .four 0#32
    (after .planHeaderWrite s).xe.conditions[2] = .idle := by decide +kernel

theorem test_statusZoneWrite :
    let t := after .statusZoneWrite (posted up 0x906 .two 0x1234#32)
    t.cbp.queue = [] ∧ t.ew.queue.map EventRecord.subject = [0x904#16] ∧
      t.ew.queue.map EventRecord.detailA = [0x12340000#32] := by decide +kernel

theorem test_narrowCommandWrite : (after .narrowCommandWrite (posted up 0x804 .one 0#32)).ew.queue.map EventRecord.reason =
    [3#8] := by decide +kernel

theorem test_cmdUnlock :
    (after .cmdUnlock (posted { up with cbp := { up.cbp with lock := .held } } 0x800 .four 0#32)).cbp.lock = .opened := by
  decide +kernel

theorem test_cmdAbortSet :
    let s := { up with csa := { up.csa with openSet := [{ dest := 5, word := 0#32 }] } }
    (after .cmdAbortSet (posted s 0x804 .four 0#32)).csa.openSet = [] ∧
      (after .cmdAbortSet (posted s 0x804 .four 0#32)).ew.queue.map EventRecord.subject = [5#16] := by decide +kernel

/-- R157: 8 is refused with BAD_PLAN, code 1. -/
theorem test_cmdExchange : (after .cmdExchange (posted up 0x808 .four 8#32)).ew.queue.map EventRecord.reason = [1#8] ∧
    (after .cmdExchange (posted up 0x808 .four 7#32)).xe.list = [{ origin := .controller, plan := 7 }] := by decide +kernel

theorem test_cmdRelease :
    (after .cmdRelease (posted (wayed up .awaitRelease 200 150 false) 0x80C .four 3#32)).lm.ways[3].state = .clear := by
  decide +kernel

/-- The ring holds the records of positions 255 and 0. -/
def ringed : State := { up with ew := { up.ew with head := 1, tail := 255, evtAsserted := true } }

/-- R141: the span from tail 255 to head 1 takes in 0 and not 2. -/
theorem test_cmdRingTail : (after .cmdRingTail (posted ringed 0x810 .four 0#32)).ew.tail = 0 ∧
    (after .cmdRingTail (posted ringed 0x810 .four 2#32)).ew.tail = 255 := by decide +kernel

theorem test_cmdRestart : (after .cmdRestart (posted up 0x814 .four 9#32)).cbp.head =
    .writing [.write 0x814 [9#8, 0#8, 0#8, 0#8]] true := by decide +kernel

theorem test_ctlWriteGrant :
    let t := after .ctlWriteGrant (handling up [.write 0x2000 [7#8]] false)
    memRead t.mem 0x2000 = 7#8 ∧ t.cbp.queue = [] := by decide +kernel

/-- R153: the grant of the mailbox of CMD_RESTART locks the window. -/
theorem test_ctlWriteGrant_restart :
    (after .ctlWriteGrant (handling up [.write 0x814 [0#8, 0#8, 0#8, 0#8]] true)).cbp.lock = .adopting := by decide +kernel

theorem test_ctlReadGrant : (after .ctlReadGrant (latched { up with mem := [(0x2001, 5#8)] } (.issued []))).cbp.slots[1].map
    ReadSlot.state = some (.complete [0#8, 5#8, 0#8, 0#8]) := by decide +kernel

/-- R14: a destination without a source has current word 0x000000FF. -/
theorem test_tblGrant : memReadWord (after .tblGrant (listing up [3])).mem 12 = 0x000000FF#32 := by decide +kernel

/-- R152: while adoption runs the word of a record not yet built waits. -/
theorem test_tblGrant_adopting :
    (after .tblGrant (adopting (listing up [5, 0]) (.path 1))).dt.updates.map UpdateEntry.dest = [5] := by decide +kernel

theorem test_rampTickExpiry :
    (after .rampTickExpiry { listing up [3] with re := { up.re with tickTimer := true } }).re.deferred = true := by
  decide +kernel

/-- Destination 0, fed by express from way 1, with this current attenuation, in slot 0 with this phase and goal. -/
def ramping (cur : Attn) (blocked : Bool) (phase : Phase) (goal : Attn) : State :=
  { up with
    dt := { up.dt with records := up.dt.records.set 0 (some
      { intentSrc := .express 1, intentAttn := 20#8, curSrc := .express 1, curAttn := cur, blocked := blocked, forced := false
        queued := 0, wanted := false, slot := some 0 }) }
    re := { up.re with
      slots := up.re.slots.set 0 (some { dest := 0, phase := phase, goal := goal, serves := none })
      list := [0], loads := up.re.loads.set 0 (weight cur), passesDue := up.re.passesDue.set 0 1 } }

/-- R62, R68: from 40 toward dark, 1631 - 1388 is within the budget of 256 and 1631 - 1356 is not, so 7 units. -/
theorem test_wayPass : ((after (.wayPass 0) (ramping 40#8 true .dimming dark)).record 0).curAttn = 47#8 := by decide +kernel

/-- A set with one drop entry. -/
def dropSet : QueuedSet := { label := 6#4, entries := [{ dest := 431, src := .drop 2 95, attn := 30#8, word := 0#32 }] }

/-- A set with one line entry. -/
def lineSet : QueuedSet := { label := 6#4, entries := [{ dest := 0, src := .express 1, attn := 30#8, word := 0#32 }] }

/-- A state with one set queued and the arbiter's occasion due. -/
def queued (s : State) (q : QueuedSet) : State :=
  { s with csa := { s.csa with queue := [q] }, re := { s.re with occasionDue := true } }

/-- A state with every ramp slot taken. -/
def full (s : State) : State :=
  { s with re := { s.re with
      slots := Vector.replicate 16 (some { dest := 383, phase := .dimming, goal := dark, serves := none }) } }

/-- R78: a head that needs a slot waits while none is free. -/
theorem test_arbiterOccasion : (after .arbiterOccasion (queued (full up) lineSet)).csa.queue = [lineSet] := by decide +kernel

/-- R40, R41: a set of one drop entry is written at its target and settles at once. -/
theorem test_applySet :
    let w := (queued up dropSet).begin.applySet dropSet
    (w.st.record 431).curSrc = .drop 2 95 ∧ (w.st.record 431).curAttn = 30#8 ∧
      w.st.ew.queue.map EventRecord.kind = [.setSettled] := by decide +kernel

/-- Destination 2, then destination 0, then destination 1, each to be fed by express from way 1. -/
def threeSet : QueuedSet :=
  { label := 6#4, entries := [2, 0, 1].map fun d => { dest := d, src := .express 1, attn := 30#8, word := 0#32 } }

/-- R77: with destinations 1 and 2 dark on that source and destination 0 in slot 0, destination 2 takes slot 1 and
destination 1 slot 2; the slots stand in the ramp list in entry order, the retargeted one among them. -/
theorem test_applySet_slots :
    let dark1 : DestRecord := { blankRecord with intentSrc := .express 1, curSrc := .express 1 }
    let s := (((ramping 40#8 false .brightening 20#8).setRecord 1 dark1).setRecord 2 dark1)
    let w := (queued s threeSet).begin.applySet threeSet
    w.st.re.list = [1, 0, 2] ∧ (w.st.record 2).slot = some 1 ∧ (w.st.record 1).slot = some 2 ∧
      (w.st.csa.settling.map SettlingSet.remaining) = [3] := by decide +kernel

theorem test_checkIntervalExpiry :
    let t := after .checkIntervalExpiry { up with lm := { up.lm with checkTimer := true } }
    t.lm.evalsDue.toList = [1, 1, 1, 1] ∧ (t.ew.rewrite.map fun rw => rw.snapshot[1]) = some 0x00100000#32 := by decide +kernel

theorem test_losChange :
    (after (.losChange 2 true) { up with lm := { up.lm with watching := true } }).lm.ways[2].latch = true := by decide +kernel

/-- R97: a lossy interval raises the counter by 5; at 40 the way enters WARNING. -/
theorem test_wayEvaluation : (after (.wayEvaluation 3) (wayed up .clear 35 0 true)).lm.ways[3].state = .warning ∧
    (after (.wayEvaluation 3) (wayed up .clear 34 0 true)).lm.ways[3].state = .clear := by decide +kernel

/-- Destination 0, ramping up on express from way 3 for set 0, whose way is about to be isolated. -/
def servingWay3 : State :=
  let s := wayed up .degraded 195 0 true
  { s with
    dt := { s.dt with records := up.dt.records.set 0 (some { blankRecord with
      intentSrc := .express 3, intentAttn := 20#8, curSrc := .express 3, curAttn := 100#8, slot := some 0 }) }
    re := { s.re with
      slots := s.re.slots.set 0 (some { dest := 0, phase := .brightening, goal := 20#8, serves := some 0 }), list := [0] }
    csa := { s.csa with
      settling := [{ id := 0, label := 6#4, entries := 2, remaining := 1, interrupted := 0 }], nextSet := 1 } }

/-- R45, R58: isolation ends the ramp, and the set settles with one destination interrupted. -/
theorem test_isolation_interrupts :
    let t := after (.wayEvaluation 3) servingWay3
    t.csa.settling = [] ∧ t.ew.queue.map EventRecord.kind = [.wayState, .setSettled] ∧
      t.ew.queue.map EventRecord.detailB = [200#32, 1#32] := by decide +kernel

theorem test_exchangeStart :
    ((after .exchangeStart { up with xe := { up.xe with list := [{ origin := .fault 1, plan := 3 }] } }).xe.running.map
      fun x => x.request.plan) = some 3 := by decide +kernel

/-- R123: a TORN refusal's detail B is the plan number for CONTROLLER, and 0 for FAULT. -/
theorem test_exchangeStart_torn :
    let s := { up with xe := { up.xe with
      list := [{ origin := .fault 1, plan := 3 }, { origin := .controller, plan := 5 }]
      conditions := (up.xe.conditions.set 3 .torn).set 5 .torn } }
    (after .exchangeStart s).ew.queue.map EventRecord.detailA = [0x101#32, 0#32] ∧
      (after .exchangeStart s).ew.queue.map EventRecord.detailB = [0#32, 5#32] := by decide +kernel

/-- R160: header IN_PROGRESS, step 5, swapped 2, skipped 1. -/
theorem test_exchangeAccessGrant : memReadWord (after .exchangeAccessGrant (exchanging up 5 .header 0#32 0#32)).mem 0x1400 =
    0x00010251#32 := by decide +kernel

theorem test_exchangeSwap :
    let t := after .exchangeSwap (exchanging up 0 .swap 0x80000000#32 0x0000023C#32)
    (t.record 0).curSrc = .express 1 ∧ (t.record 0).curAttn = 60#8 := by decide +kernel

theorem test_adoptionStart : (after .adoptionStart (adopting up .drain)).pu.adoption.map Adoption.stage = some (.mask 0) := by
  decide +kernel

/-- R150: a word of SRC 7 is fixed with BAD_CONTENT, code 1. -/
theorem test_adoptionAccessGrant :
    (after .adoptionAccessGrant (adopting { up with mem := [(1, 7#8)] } (.path 0))).ew.queue.map EventRecord.reason =
      [1#8] := by decide +kernel

theorem test_eventRecordGrant :
    let t := after .eventRecordGrant (recorded up 4)
    t.ew.head = 1 ∧ t.ew.evtAsserted = true ∧ memReadWord t.mem 0x900 = 1#32 := by decide +kernel

theorem test_ringWordGrant :
    memReadWord (after .ringWordGrant { ringed with ew := { ringed.ew with ringWordDue := true } }).mem 0x900 = 0x00FF0001#32 := by
  decide +kernel

theorem test_statusZoneGrant :
    let s := { up with ew := { up.ew with rewrite := some { snapshot := up.statusSnapshot, next := 2 } } }
    memReadWord (after .statusZoneGrant s).mem 0x908 = 0x00100000#32 := by decide +kernel


/-! ### Witnesses: for each statement with hypotheses a state and operands that meet them together -/

/-- What a lone record for destination 0 and its slot must meet. -/
structure Lone (s : State) (r : DestRecord) (sl : Option RampSlot) : Prop where
  records : ∀ d, s.record d = if d = 0 then r else blankRecord
  ports : ∀ (p : Port) (d : Dest), (s.dt.ports[p].claimant = some d ↔ d = 0 ∧ r.intentSrc = .port p) ∧
    (s.dt.ports[p].holder = some d ↔ d = 0 ∧ r.curSrc = .port p)
  slots : ∀ n : SlotNo, s.re.slots[n] = if n = 0 then sl else none
  list : s.re.list = if sl.isSome then [0] else []
  adoption : s.pu.adoption = none ∨ (sl = none ∧ s.csa.queue = [] ∧ r.wanted = false ∧
    (∀ p, r.intentSrc ≠ .port p ∧ r.curSrc ≠ .port p) ∧ s.xe.running = none ∧ (∀ m todo, s.cbp.head ≠ .masking m todo) ∧
    r.curSrc = r.intentSrc)
  openSet : (s.csa.openSet.map OpenEntry.dest).Nodup ∧ s.csa.openSet.length ≤ 4
  sets : (∀ q ∈ s.csa.queue, q.legal) ∧ s.csa.queue.length ≤ 4
  marks : ∀ d, (s.csa.queue.flatMap fun q => entryDests q.entries).count d = if d = 0 then r.queued else 0
  settling : (∀ e ∈ s.csa.settling, e.id < s.csa.nextSet ∧ 0 < e.remaining ∧ e.remaining = s.servingCount e.id) ∧
    (s.csa.settling.map SettlingSet.id).Nodup
  head : ∀ todo, s.cbp.head = .writing todo true → s.xe.running = none
  swapWord : ∀ x d src, s.xe.running = some x → x.stage = .swap → destOfNat (keyDest x.keyWord) = some d →
    pathSource d x.pathWord = some src → isUturn d src = false
  legal : legalSource 0 r.intentSrc ∧ legalSource 0 r.curSrc
  darkNone : r.curSrc = .none → r.curAttn = dark
  slot : r.slot = if sl.isSome then some 0 else none
  wanted : r.wanted = true → sl = none ∧ r.forced = false
  forced : r.forced = s.forcedFor r.intentSrc
  rest : r.forced = true → sl = none ∧ r.curSrc = r.intentSrc ∧ r.curAttn = dark
  goal : ∀ x, sl = some x → x.dest = 0 ∧ (x.phase = .dimming → r.curAttn.toNat < x.goal.toNat) ∧
    (x.phase = .brightening → x.goal.toNat < r.curAttn.toNat) ∧
    (∀ id, x.serves = some id → id ∈ s.csa.settling.map SettlingSet.id) ∧ (x.phase = .portWait → r.curSrc = .none ∧ r.intentSrc ≠ .none) ∧
    (r.curSrc = r.intentSrc → x.goal = effectiveTarget 0 r) ∧ (r.curSrc ≠ r.intentSrc → x.goal = dark)

theorem Lone.tableLaw {s : State} {r : DestRecord} {sl : Option RampSlot} (h : Lone s r sl) : s.tableLaw := by
  have hb : ∀ d, d ≠ 0 → s.record d = blankRecord := fun d hd => by rw [h.records, if_neg hd]
  have h0 : s.record 0 = r := by rw [h.records, if_pos rfl]
  have hbuilt : s.pu.adoption = none → ∀ d, s.isBuilt d = true := fun ha d => by simp [State.isBuilt, ha]
  refine ⟨h.openSet.1, h.openSet.2, h.sets.1, h.sets.2, ?_, h.settling.1, h.settling.2, ?_, ?_, h.swapWord, ?_, ?_, ?_, ?_, ?_,
    ?_, ?_, ?_, ?_, ?_, ?_, ?_, ?_, ?_, ?_⟩
  · intro d
    rw [h.marks]
    by_cases hd : d = 0
    · subst hd; rw [h0, if_pos rfl]
    · rw [hb d hd, if_neg hd]; rfl
  · intro hr
    obtain ha | ha := h.adoption
    · exact ⟨ha, fun todo ht => hr (h.head todo ht)⟩
    · exact absurd ha.2.2.2.2.1 hr
  · intro m todo hm
    obtain ha | ha := h.adoption
    · exact ha
    · exact absurd hm (ha.2.2.2.2.2.1 m todo)
  · intro d; by_cases hd : d = 0
    · subst hd; rw [h0]; exact h.legal.1
    · rw [hb d hd]; trivial
  · intro d; by_cases hd : d = 0
    · subst hd; rw [h0]; exact h.legal.2
    · rw [hb d hd]; trivial
  · intro d; by_cases hd : d = 0
    · subst hd; rw [h0]; exact h.darkNone
    · rw [hb d hd]; exact fun _ => rfl
  · intro _ p d
    rw [(h.ports p d).1]
    by_cases hd : d = 0
    · subst hd
      rw [h0]
      obtain ha | ha := h.adoption
      · simp [hbuilt ha]
      · simp [(ha.2.2.2.1 p).1]
    · rw [hb d hd]; simp [blankRecord, hd]
  · intro _ p d
    rw [(h.ports p d).2]
    by_cases hd : d = 0
    · subst hd
      rw [h0]
      obtain ha | ha := h.adoption
      · simp [hbuilt ha]
      · simp [(ha.2.2.2.1 p).2]
    · rw [hb d hd]; simp [blankRecord, hd]
  · intro d hd
    have : d ≠ 0 := by rintro rfl; exact absurd hd (by decide)
    rw [hb d this]; exact ⟨rfl, rfl, rfl⟩
  · intro n x hx
    rw [h.slots] at hx
    by_cases hn : n = 0
    · subst hn
      rw [if_pos rfl] at hx
      obtain ⟨hd, hm, hr, hv, hp, ht, hk⟩ := h.goal x hx
      refine ⟨by rw [hd]; decide, ?_, ?_, ?_, hv, ?_, ?_, ?_⟩
      · rw [hd, h0, h.slot, hx]; rfl
      · rw [hd, h0]; exact hm
      · rw [hd, h0]; exact hr
      · rw [hd, h0]; exact hp
      · rw [hd, h0]; exact ht
      · rw [hd, h0]; exact hk
    · rw [if_neg hn] at hx; cases hx
  · intro d n hs
    by_cases hd : d = 0
    · subst hd
      rw [h0, h.slot] at hs
      cases hsl : sl with
      | none => rw [hsl] at hs; cases hs
      | some x =>
        rw [hsl] at hs
        cases hs
        exact ⟨x, by rw [h.slots, if_pos rfl, hsl], (h.goal x hsl).1⟩
    · rw [hb d hd] at hs; cases hs
  · rw [h.list]
    cases hsl : sl with
    | none => exact ⟨List.nodup_nil, fun n => by rw [h.slots, hsl]; simp⟩
    | some x =>
      refine ⟨by simp, fun n => ?_⟩
      rw [h.slots, hsl]
      by_cases hn : n = 0 <;> simp [hn]
  · intro hn
    obtain ha | ha := h.adoption
    · exact absurd ha hn
    · exact ⟨ha.2.1, fun n => by rw [h.slots, ha.1]; simp⟩
  · intro hn d _
    obtain ha | ha := h.adoption
    · exact absurd ha hn
    · rw [h.records]
      split
      · exact ha.2.2.2.2.2.2
      · rfl
  · intro d hw
    by_cases hd : d = 0
    · subst hd
      rw [h0] at hw ⊢
      obtain ⟨h1, h2⟩ := h.wanted hw
      exact ⟨by rw [h.slot, h1]; rfl, h2⟩
    · rw [hb d hd] at hw; cases hw
  · intro d hd
    obtain ha | ha := h.adoption
    · rw [hbuilt ha] at hd; cases hd
    · by_cases h1 : d = 0
      · subst h1; rw [h0]; exact ha.2.2.1
      · rw [hb d h1]; rfl
  · intro d
    by_cases hd : d = 0
    · subst hd; rw [h0]; exact h.forced
    · rw [hb d hd]; rfl
  · intro d hf
    by_cases hd : d = 0
    · subst hd
      rw [h0] at hf ⊢
      obtain ⟨h1, h2⟩ := h.rest hf
      exact ⟨by rw [h.slot, h1]; rfl, fun _ => h2⟩
    · rw [hb d hd] at hf; cases hf

/-- With no port held or claimed, and none a source. -/
theorem portless {s : State} {r : DestRecord} (hp : ∀ p : Port, s.dt.ports[p] = { holder := none, claimant := none })
    (hn : ∀ p, r.intentSrc ≠ .port p ∧ r.curSrc ≠ .port p) (p : Port) (d : Dest) :
    (s.dt.ports[p].claimant = some d ↔ d = 0 ∧ r.intentSrc = .port p) ∧
      (s.dt.ports[p].holder = some d ↔ d = 0 ∧ r.curSrc = .port p) := by
  rw [hp]; simp [(hn p).1, (hn p).2]

/-- The records of a state that has one for destination 0 alone. -/
theorem record_of_set {s : State} {r : DestRecord} (hd : s.dt.records = up.dt.records.set 0 (some r)) (d : Dest) :
    s.record d = if d = 0 then r else blankRecord := by
  rw [State.record, hd]
  by_cases h0 : d = 0
  · subst h0; rfl
  · rw [if_neg h0]
    have : (0 : Nat) ≠ d.val := fun h => h0 (Fin.ext h.symm)
    simp [this, up, State.reset]

/-- The slots of a state that has slot 0 alone occupied, if any. -/
theorem slot_of_set {s : State} {sl : Option RampSlot} (hs : s.re.slots = up.re.slots.set 0 sl) (n : SlotNo) :
    s.re.slots[n] = if n = 0 then sl else none := by
  rw [hs]
  by_cases hn : n = 0
  · subst hn; rfl
  · rw [if_neg hn]
    have : (0 : Nat) ≠ n.val := fun h => hn (Fin.ext h.symm)
    simp [this, up, State.reset]

/-- A law of the table holds of a state with the same blocks, whose head is no restart's and no mask write's in an adoption. -/
theorem tableLaw_of_same {s t : State} (h : s.tableLaw) (hdt : t.dt = s.dt) (hre : t.re = s.re) (hcsa : t.csa = s.csa)
    (hpu : t.pu = s.pu) (hxe : t.xe = s.xe) (hr : ∀ todo, t.cbp.head ≠ .writing todo true)
    (hm : t.pu.adoption = none) : t.tableLaw := by
  obtain ⟨tp, tc, tcsa, tdt, tre, tm, tl, txe, tew, ttmp, tpu, tlos, tmem, tf⟩ := t
  simp only at hdt hre hcsa hpu hxe hm
  subst hdt hre hcsa hpu hxe
  exact { h with exclusive := fun _ => ⟨hm, hr⟩, masking := fun _ _ _ => hm
                 slots := fun n sl hs => { h.slots n sl hs with } }

/-- A state whose every record is blank. -/
theorem Lone.blank {s : State} (hr : ∀ d : Dest, s.record d = blankRecord)
    (hp : ∀ p : Port, s.dt.ports[p] = { holder := none, claimant := none }) (hs : ∀ n : SlotNo, s.re.slots[n] = none)
    (hl : s.re.list = []) (ha : s.pu.adoption = none) (ho : s.csa.openSet = []) (hq : s.csa.queue = [])
    (ht : s.csa.settling = []) (hh : ∀ todo, s.cbp.head = .writing todo true → s.xe.running = none)
    (hw : ∀ x d src, s.xe.running = some x → x.stage = .swap → destOfNat (keyDest x.keyWord) = some d →
      pathSource d x.pathWord = some src → isUturn d src = false) : Lone s blankRecord none := by
  refine ⟨?_, portless hp fun p => ⟨nofun, nofun⟩, ?_, hl, .inl ha, by simp [ho], by simp [hq], ?_, by simp [ht], hh, hw,
    ⟨trivial, trivial⟩, fun _ => rfl, rfl, ?_, rfl, ?_, ?_⟩
  · intro d; rw [hr]; simp
  · intro n; rw [hs]; simp
  · intro d; simp [hq, blankRecord]
  · intro h; cases h
  · intro h; cases h
  · intro x h; cases h

/-! ### The step and reset -/

theorem witness_StepRunsFrontCommand : ({ up with pending := [.tblGrant] } : State).pending = .tblGrant :: [] ∧ up.pending = [] :=
  ⟨rfl, rfl⟩

/-- A cut-off write of two bytes is under way. -/
theorem witness_CutOffWriteOldOrNew :
    let s := handling { up with mem := [(0x2000, 9#8)] } [.write 0x2000 [7#8, 8#8]] false
    Memory.wf s.mem ∧ s.accessNext = some (.write 0x2000 [7#8, 8#8]) := by decide +kernel

theorem witness_ResetReleaseStartsPreload : State.reset.pu.power = .resetAsserted ∧ up.pu.power ≠ .resetAsserted := by decide

theorem witness_PreloadEndOpensThePart :
    let s := after (.resetRelease 0#2 false true) State.reset
    s.pu.power = .preload ∧ (after (.preloadEnd (exampleImage 0x14#8 0x83#8)) s).pu.outcome = .romUsed ∧
      (after (.preloadEnd []) s).pu.outcome ≠ .romUsed := by decide +kernel

theorem witness_ImageJudgedAndClamped :
    (romByte (exampleImage 0x14#8 0x83#8) 0 = 0xC3#8 ∧ romByte (exampleImage 0x14#8 0x83#8) 1 = 17#8 ∧
      (List.range 20).foldl (fun acc n => acc + (romByte (exampleImage 0x14#8 0x83#8) n).toNat) 0 % 256 = 0) ∧
    (List.range 20).foldl (fun acc n => acc + (romByte (exampleImage 0x00#8 0x83#8) n).toNat) 0 % 256 ≠ 0 ∧
    ¬ (romByte [] 0 = 0xC3#8 ∧ romByte [] 1 = 17#8) ∧ PreloadOutcome.sum ≠ .romUsed := by decide +kernel

/-! ### The host bus -/

/-- Seven posted writes. -/
def seven : List PostedWrite :=
  List.replicate 7 { addr := 0x2000#24, size := .four, data := 0#32, zone := .plain, tag := 0 }

def withQueue (s : State) (q : List PostedWrite) : State := { s with cbp := { s.cbp with queue := q, postedCount := 8 } }

/-- Two COMPLETE slots: a window read, and a pass-through read that an overlapping write reaches. -/
def bothSlots (s : State) (st : ReadState) : State :=
  { s with cbp := { s.cbp with
      slots := #v[some { addr := 0x2000#24, size := .four, state := st, barrier := none },
                  some { addr := 0x10000#24, size := .two, state := .complete [0#8, 0#8], barrier := none }]
      latchOrder := [0, 1] } }

/-- The eighth place of the queue; a window write reaches slot 0 alone, a pass-through write at 0x10001 slot 1 alone. -/
theorem witness_HostWriteIsPosted :
    let s := withQueue (bothSlots up .latched) seven
    s.pu.power = .running ∧ s.cbp.held = none ∧ sizeOfEnables 0xF#4 = some .four ∧ sizeOfEnables 0x8#4 = some .one ∧
      accessFaults s.pu.params 0xFFFC#24 .four = false ∧ accessFaults s.pu.params 0x10001#24 .one = false ∧
      s.lockRefusesWrite 0xFFFC#24 .four = false ∧ s.lockRefusesWrite 0x10001#24 .one = false ∧
      s.cbp.queue.length = 7 ∧ s.cbp.slots[0].isSome = true ∧
      reaches s.pu.params 0x10001#24 .one { addr := 0x10000#24, size := .two, state := .latched, barrier := none } = true ∧
      reaches s.pu.params 0x10002#24 .one { addr := 0x10000#24, size := .two, state := .latched, barrier := none } = false := by
  decide +kernel

/-- Past the end of memory begins at 0xFFFFFD for four bytes; a crossing with its last byte in the window faults. -/
theorem witness_HostWriteTurnedAway :
    State.reset.pu.power ≠ .running ∧ up.pu.power = .running ∧ up.cbp.held = none ∧ enabledCount 0x0#4 = 0 ∧
      enabledCount 0xE#4 = 3 ∧ sizeOfEnables 0xF#4 = some .four ∧ accessFaults up.pu.params 0xFFFFFD#24 .four = true ∧
      accessFaults up.pu.params 0xFFFFFC#24 .four = false ∧ accessFaults up.pu.params 0xFFFE#24 .four = true ∧
      accessFaults up.pu.params 0x1FFFE#24 .four = false ∧
      (adopting up .drain).lockRefusesWrite 0x800#24 .four = true ∧
      ({ up with cbp := { up.cbp with lock := .held } } : State).lockRefusesWrite 0x800#24 .four = false ∧
      ({ up with cbp := { up.cbp with lock := .held } } : State).lockRefusesWrite 0x800#24 .two = true ∧
      8 ≤ (withQueue up (seven ++ seven)).cbp.queue.length := by decide +kernel

theorem witness_HostReadCases :
    let none3 := bothSlots up (.complete [1#8, 2#8, 3#8, 4#8])
    let one := bothSlots up .latched
    sizeOfEnables 0xF#4 = some .four ∧ accessFaults up.pu.params 0x2000#24 .four = false ∧
      (adopting up .drain).lockRefusesRead 0x2000#24 = true ∧ up.lockRefusesRead 0x2000#24 = false ∧
      none3.matchingSlot 0x2000#24 .four = some 0 ∧
      (none3.cbp.slots[0].map ReadSlot.state) = some (.complete [1#8, 2#8, 3#8, 4#8]) ∧
      (one.cbp.slots[0].map ReadSlot.state) = some .latched ∧ one.matchingSlot 0x2000#24 .two = none ∧
      up.matchingSlot 0x2000#24 .four = none ∧ up.cbp.queue = [] ∧ up.dt.updates = [] ∧ up.xe.running = none ∧
      (posted up 0x2000 .four 0#32).cbp.queue ≠ [] ∧ (posted up 0x2000 .four 0#32).freeReadSlotNo = some 0 ∧
      one.freeReadSlotNo = none := by decide +kernel

theorem witness_DelayedReadIssuesOrIsDiscarded :
    let r : ReadSlot := { addr := 0x2000#24, size := .four, state := .latched, barrier := some 0 }
    (latched up .latched).cbp.slots[(1 : ReadSlotNo)] = some r ∧ (latched up .latched).mayIssue r = true ∧
      (latched (posted up 0x2000 .four 0#32) .latched).cbp.slots[(1 : ReadSlotNo)] = some r ∧
      (latched (posted up 0x2000 .four 0#32) .latched).mayIssue r = false ∧
      (latched up (.complete [0#8, 0#8, 0#8, 0#8])).cbp.slots[(1 : ReadSlotNo)] =
        some { r with state := .complete [0#8, 0#8, 0#8, 0#8] } := by decide +kernel

/-- A write held with WAIT. -/
def holding (s : State) : State := { s with cbp := { s.cbp with held := some (.write 0x2000#24 .four 5#32) } }

theorem witness_HeadLeavesTheQueue : up.cbp.held = none ∧ (holding up).cbp.held = some (.write 0x2000#24 .four 5#32) ∧
    (holding up).lockRefusesWrite 0x2000#24 .four = false ∧ (holding up).cbp.slots[(1 : ReadSlotNo)] = none ∧
    (holding (adopting up .drain)).lockRefusesWrite 0x2000#24 .four = true := by decide +kernel

/-! ### The queue's head -/

/-- An open set of four destinations. -/
def opened (s : State) : State :=
  { s with csa := { s.csa with openSet :=
      [{ dest := 10, word := 0xFF#32 }, { dest := 11, word := 0xFF#32 }, { dest := 12, word := 0xFF#32 },
       { dest := 13, word := 0xFF#32 }] } }

def head (offset : Nat) (size : Size) (data : Word) (zone : Zone) : PostedWrite :=
  { addr := BitVec.ofNat 24 offset, size := size, data := data, zone := zone, tag := 0 }

/-- The last drop destination joins an open set of four, replaces nothing and overflows; destination 13 replaces its entry. -/
theorem witness_PathWriteJoinsOpenSet :
    let h := head 0x6BC .four 0xFF#32 .dropPath
    let k := head 0x34 .four 0xFF#32 .linePath
    (posted up 0x6BC .four 0xFF#32).headToTake = some h ∧ destOfOffset (offsetOf h.addr) = some 431 ∧
      (posted up 0x6BC .four 0xFF#32).closeWaits 431 h = false ∧ (posted up 0x6BC .four 0xFF#32).closes 431 h = false ∧
      up.csa.openSet.length < 4 ∧
      (posted (opened up) 0x6BC .four 0xFF#32).headToTake = some h ∧ openWord (opened up).csa.openSet 431 = none ∧
      4 ≤ (opened up).csa.openSet.length ∧
      (posted (opened up) 0x34 .four 0xFF#32).headToTake = some k ∧ destOfOffset (offsetOf k.addr) = some 13 ∧
      (openWord (opened up).csa.openSet 13).isSome = true := by decide +kernel

/-- Three queued sets, and four. -/
def queueOf (s : State) (n : Nat) : State := { s with csa := { s.csa with queue := List.replicate n lineSet } }

theorem witness_CloseEntersQueue :
    let s := posted (queueOf up 3) 0 .four 0x8600023C#32
    let h := head 0 .four 0x8600023C#32 .linePath
    s.headToTake = some h ∧ destOfOffset (offsetOf h.addr) = some 0 ∧ s.closes 0 h = true ∧
      pathTrial (s.pathMerged 0 h) = false ∧ s.csa.queue.length = 3 ∧ s.csa.openSet.length < 4 ∧
      staticChecks [] (takeOpen s.csa.openSet 0 (storedWord (s.pathMerged 0 h))) = none := by decide +kernel

/-- A list with a tagged and an untagged entry, marked again. -/
def tagged : State :=
  { up with dt := { up.dt with updates := [{ dest := 5, tag := some 1 }, { dest := 3, tag := none }] } }

theorem witness_CloseEntersQueue_marks : ([3, 0, 5] : List Dest).Nodup ∧ (tagged.dt.updates.map UpdateEntry.dest).Nodup := by
  decide

/-- R16, R18: listed entries keep their place; a tagged marking replaces the tag and an untagged one keeps it; new ones join
the end. -/
theorem test_markAll :
    (tagged.markAll (some 7) [0, 3, 5]).dt.updates =
      [{ dest := 5, tag := some 7 }, { dest := 3, tag := some 7 }, { dest := 0, tag := some 7 }] ∧
    (tagged.markAll none [0, 5, 9]).dt.updates =
      [{ dest := 5, tag := some 1 }, { dest := 3, tag := none }, { dest := 0, tag := none }, { dest := 9, tag := none }] := by
  decide +kernel

/-- A u-turn, a full set queue, a trial that passes, and a trial that meets another claimant of port 0. -/
theorem witness_CloseRejectedTriedOrWaiting :
    let bad := posted up 0 .four 0x80000114#32
    let wait := posted (queueOf up 4) 0 .four 0x8600023C#32
    let tried := posted up 0 .four 0xC600023C#32
    let held := posted { up with dt := { up.dt with ports := up.dt.ports.set 0 { holder := none, claimant := some 7 } } } 0
      .four 0xC600053C#32
    let entries := fun (s : State) (h : PostedWrite) => takeOpen s.csa.openSet 0 (storedWord (s.pathMerged 0 h))
    (bad.headToTake = some (head 0 .four 0x80000114#32 .linePath) ∧ bad.closes 0 (head 0 .four 0x80000114#32 .linePath) = true ∧
      (staticChecks [] (entries bad (head 0 .four 0x80000114#32 .linePath))).isSome = true) ∧
    (wait.headToTake = some (head 0 .four 0x8600023C#32 .linePath) ∧ 4 ≤ wait.csa.queue.length ∧
      pathTrial (wait.pathMerged 0 (head 0 .four 0x8600023C#32 .linePath)) = false) ∧
    (tried.headToTake = some (head 0 .four 0xC600023C#32 .linePath) ∧
      pathTrial (tried.pathMerged 0 (head 0 .four 0xC600023C#32 .linePath)) = true ∧
      tried.dynamicCheck ((entries tried (head 0 .four 0xC600023C#32 .linePath)).map decodeEntry) = none) ∧
    held.headToTake = some (head 0 .four 0xC600053C#32 .linePath) ∧
      (held.dynamicCheck ((entries held (head 0 .four 0xC600053C#32 .linePath)).map decodeEntry)).isSome = true := by
  decide +kernel

/-- A record for destination 0. -/
def lone (s : State) (r : DestRecord) : State := { s with dt := { s.dt with records := s.dt.records.set 0 (some r) } }

theorem witness_PathWordRoundTrip :
    (legalSource 383 .none ∧ legalSource 383 (.express 0) ∧ legalSource 383 (.port 47) ∧ legalSource 384 (.drop 3 95)) ∧
    ((ramping 40#8 true .dimming dark).record 0).slot = some 0 ∧
    ((lone up { blankRecord with forced := true }).record 0).forced = true ∧
    ((lone up { blankRecord with queued := 1 }).record 0).queued = 1 ∧
    ((lone up { blankRecord with blocked := true }).record 0).blocked = true ∧ (up.record 0) = blankRecord ∧
    isLine 384 = false ∧ (up.record 384) = blankRecord := by
  refine ⟨⟨trivial, ⟨by decide, by decide⟩, (by decide : isLine 383 = true), (by decide : isLine 384 = false)⟩, ?_⟩
  decide +kernel

/-- The last byte of the last word of each view. -/
theorem witness_MaskViewsChangeTheWord :
    (posted up 0x72F .one 0x80#32).headToTake = some (head 0x72F .one 0x80#32 (.mask .direct)) ∧
    (posted up 0x76F .one 0x80#32).headToTake = some (head 0x76F .one 0x80#32 (.mask .setOnes)) ∧
    (posted up 0x7AF .one 0x80#32).headToTake = some (head 0x7AF .one 0x80#32 (.mask .clearOnes)) ∧
    (posted up 0x7EF .one 0x80#32).headToTake = some (head 0x7EF .one 0x80#32 (.mask .toggleOnes)) ∧
    maskIndex .direct 0x72F = some 11 ∧ maskIndex .setOnes 0x76F = some 11 ∧ maskIndex .clearOnes 0x7AF = some 11 ∧
    maskIndex .toggleOnes 0x7EF = some 11 ∧ crosses 0x7EF#24 .one = false := by decide +kernel

theorem witness_WriteThroughAsPosted :
    (posted up 0xFFFFFF .one 1#32).headToTake = some (head 0xFFFFFF .one 1#32 .passThrough) ∧
    (posted up 0x13FC .four 1#32).headToTake = some (head 0x13FC .four 1#32 .planStore) ∧
    (posted up 0x8FFC .four 1#32).headToTake = some (head 0x8FFC .four 1#32 .ring) ∧
    (posted up 0x6C0 .four 1#32).headToTake = some (head 0x6C0 .four 1#32 .plain) ∧
    crosses 0xFFFFFC#24 .four = false ∧ crosses 0x10003#24 .two = true := by decide +kernel

theorem witness_HeaderStatusAndNarrowWrites :
    (posted up 0x141C .four 0#32).headToTake = some (head 0x141C .four 0#32 .planHeader) ∧
    headerPlan 0x141C = some 7 ∧
    (posted up 0x141C .two 0#32).headToTake = some (head 0x141C .two 0#32 .planHeader) ∧
    (posted up 0x930 .four 0#32).headToTake = some (head 0x930 .four 0#32 .status) ∧
    (posted up 0x816 .two 0#32).headToTake = some (head 0x816 .two 0#32 .command) := by decide +kernel

theorem witness_UnlockAbortRestartCommands :
    (posted up 0x800 .four 0#32).commandToTake 0 = some (head 0x800 .four 0#32 .command) ∧
    (posted up 0x804 .four 0#32).commandToTake 1 = some (head 0x804 .four 0#32 .command) ∧
    (posted (opened up) 0x804 .four 0#32).commandToTake 1 = some (head 0x804 .four 0#32 .command) ∧
    up.csa.openSet = [] ∧ (opened up).csa.openSet ≠ [] ∧
    (posted up 0x814 .four 0#32).commandToTake 5 = some (head 0x814 .four 0#32 .command) := by decide +kernel

def listed (s : State) (r : ExchangeRequest) : State := { s with xe := { s.xe with list := [r] } }

theorem witness_ControllerRequests :
    (posted up 0x808 .four 8#32).commandToTake 2 = some (head 0x808 .four 8#32 .command) ∧
    (posted up 0x808 .four 7#32).commandToTake 2 = some (head 0x808 .four 7#32 .command) ∧
    up.xe.conditions[(7 : Plan)] = .idle ∧ up.xe.list = [] ∧
    ({ up with xe := { up.xe with conditions := up.xe.conditions.set 7 .torn } } : State).xe.conditions[(7 : Plan)] = .torn ∧
    (posted (listed up { origin := .fault 0, plan := 7 }) 0x808 .four 7#32).commandToTake 2 =
      some (head 0x808 .four 7#32 .command) := by decide +kernel

theorem witness_RingTailCommand :
    ringed.ringLaw ∧ (posted ringed 0x810 .four 255#32).commandToTake 4 = some (head 0x810 .four 255#32 .command) ∧
    (posted ringed 0x810 .four 1#32).commandToTake 4 = some (head 0x810 .four 1#32 .command) ∧
    (posted ringed 0x810 .four 2#32).commandToTake 4 = some (head 0x810 .four 2#32 .command) ∧
    (posted ringed 0x810 .four 256#32).commandToTake 4 = some (head 0x810 .four 256#32 .command) := by
  refine ⟨⟨by decide, by decide, by decide, by decide, by decide, by decide, by decide⟩, ?_⟩
  decide +kernel

/-- The hypotheses of `Lone.blank` for a state built by updates from `up`. -/
theorem blank_up {s : State} (hd : s.dt.records = up.dt.records) (hp : s.dt.ports = up.dt.ports)
    (hs : s.re.slots = up.re.slots) (hl : s.re.list = []) (ha : s.pu.adoption = none) (ho : s.csa.openSet = [])
    (hq : s.csa.queue = []) (ht : s.csa.settling = []) (hh : ∀ todo, s.cbp.head = .writing todo true → s.xe.running = none)
    (hw : ∀ x d src, s.xe.running = some x → x.stage = .swap → destOfNat (keyDest x.keyWord) = some d →
      pathSource d x.pathWord = some src → isUturn d src = false) : s.tableLaw := by
  refine (Lone.blank ?_ ?_ ?_ hl ha ho hq ht hh hw).tableLaw
  · intro d; rw [State.record, hd]; simp [up, State.reset]
  · intro p; rw [hp]; simp [up, State.reset]
  · intro n; rw [hs]; simp [up, State.reset]

theorem up_preloadLaw : up.preloadLaw := fun h => absurd rfl h

/-- The mask write of word 11 at its first and at its last request, and as it is taken with and without changed bits. -/
def maskingHead (todo : List (Fin 32)) : State :=
  let s := posted up 0x72C .four 0x80000001#32
  { s with masks := s.masks.set 11 (some 0x80000001#32), cbp := { s.cbp with head := .masking 11 todo } }

theorem maskingHead_table (todo : List (Fin 32)) : (maskingHead todo).tableLaw :=
  blank_up rfl rfl rfl rfl rfl rfl rfl rfl (by simp [maskingHead]) (by simp [maskingHead, posted, up, State.reset])

theorem wayed_law (state : WayState) (counter recovery : Nat) (latch : Bool)
    (h : WayRecord.inRange { latch := latch, state := state, counter := counter, recovery := recovery
                             planRequested := false }) : (wayed up state counter recovery latch).wayLaw := by
  intro w
  fin_cases w
  · exact ⟨⟨(by decide : 0 < 40), rfl⟩, rfl⟩
  · exact ⟨⟨(by decide : 0 < 40), rfl⟩, rfl⟩
  · exact ⟨⟨(by decide : 0 < 40), rfl⟩, rfl⟩
  · exact ⟨h, rfl⟩

theorem wayed_table (state : WayState) (counter recovery : Nat) (latch : Bool) :
    (wayed up state counter recovery latch).tableLaw :=
  blank_up rfl rfl rfl rfl rfl rfl rfl rfl (by simp [wayed, up, State.reset])
    (by simp [wayed, up, State.reset])

theorem witness_ReleaseCommand :
    let s := posted (wayed up .awaitRelease 200 150 false) 0x80C .four 3#32
    let t := posted (wayed up .isolated 200 149 false) 0x80C .four 3#32
    let u := posted up 0x80C .four 4#32
    (s.wayLaw ∧ s.tableLaw ∧ s.commandToTake 3 = some (head 0x80C .four 3#32 .command) ∧
      s.lm.ways[(3 : Way)].state = .awaitRelease) ∧
    (t.wayLaw ∧ t.tableLaw ∧ t.commandToTake 3 = some (head 0x80C .four 3#32 .command) ∧
      t.lm.ways[(3 : Way)].state ≠ .awaitRelease) ∧
    u.commandToTake 3 = some (head 0x80C .four 4#32 .command) := by
  refine ⟨⟨wayed_law .awaitRelease 200 150 false ⟨rfl, rfl⟩, ?_, by decide +kernel, by decide +kernel⟩,
    ⟨wayed_law .isolated 200 149 false ⟨rfl, by decide⟩, ?_, by decide +kernel, by decide +kernel⟩, by decide +kernel⟩ <;>
    exact blank_up rfl rfl rfl rfl rfl rfl rfl rfl (by simp [posted, wayed, up, State.reset])
      (by simp [posted, wayed, up, State.reset])

/-! ### Grants -/

theorem witness_CtlWriteGrantWrites :
    let s := handling up [.write 0x10003 [1#8], .write 0x10004 [2#8]] false
    let t := handling up [.write 0xFFFFFF [2#8]] false
    (Memory.wf s.mem ∧ s.nextGrant = some .ctl ∧ s.ctlSource = some .head) ∧
    (t.nextGrant = some .ctl ∧ t.ctlSource = some .head) := by decide +kernel

/-- A directly served crossing read. -/
def reading (s : State) (got : List Byte) : State :=
  { s with cbp := { s.cbp with held := some (.read 0x10003#24 .four got) } }

theorem witness_CtlReadGrantAnswers :
    let s := latched up (.issued [])
    (s.nextGrant = some .ctl ∧ s.ctlSource = some (.slot 1) ∧ (s.cbp.slots[(1 : ReadSlotNo)]).isSome = true) ∧
    ((reading up []).nextGrant = some .ctl ∧ (reading up []).ctlSource = some .direct ∧
      nextRead (readAddr up.pu.params 0x10003#24) 4 0 = (0x10003, 1)) ∧
    ((reading up [0#8]).ctlSource = some .direct ∧ nextRead (readAddr up.pu.params 0x10003#24) 4 1 = (0x10004, 3)) ∧
    ((handling up [.write 0x2000 [0#8]] false).ctlSource = some .head ∧ up.ctlSource = none ∧
      s.cbp.latchOrder = [] ++ 1 :: []) ∧
    (readAddr up.pu.params 0x740#24 = 0x700 ∧ readAddr up.pu.params 0x76F#24 = 0x72F ∧
      readAddr up.pu.params 0x7AF#24 = 0x72F ∧ readAddr up.pu.params 0x7EF#24 = 0x72F ∧
      readAddr up.pu.params 0x73F#24 = 0x73F ∧ readAddr up.pu.params 0x770#24 = 0x770 ∧
      readAddr up.pu.params 0x7F0#24 = 0x7F0 ∧ readAddr up.pu.params 0x700#24 = 0x700 ∧
      readAddr up.pu.params 0x10740#24 = 0x10740) := by
  decide +kernel

theorem witness_TblGrantWritesCurrentWord :
    let s := { listing up [431] with re := { up.re with deferred := true } }
    let t := adopting (listing up [5, 0, 1]) (.path 1)
    (Memory.wf s.mem ∧ s.nextGrant = some .tbl ∧ s.dt.updates = [] ++ { dest := 431, tag := none } :: [] ∧
      s.tblMayWrite 431 = true) ∧
    (listing up [0, 431]).nextGrant = some .tbl ∧
    (Memory.wf t.mem ∧ t.nextGrant = some .tbl ∧ t.dt.updates.map UpdateEntry.dest = [5] ++ 0 :: [1] ∧
      t.tblMayWrite 5 = false ∧ t.tblMayWrite 0 = true ∧ t.tblMayWrite 1 = false) ∧
    (adopting (listing up [5]) .drain).tblMayWrite 5 = true ∧
      ((adopting (listing up [5]) (.path 5)).access .tbl).isSome = false := by decide +kernel

theorem witness_EventRecordGrants :
    (Memory.wf (recorded up 0).mem ∧ (recorded up 0).nextGrant = some .evt ∧ (recorded up 0).evtSource = some .record ∧
      (recorded up 0).ew.queue ≠ []) ∧
    ((recorded up 3).nextGrant = some .evt ∧ (recorded up 3).evtSource = some .record) ∧
    ((recorded up 4).nextGrant = some .evt ∧ (recorded up 4).evtSource = some .record) := by decide +kernel

/-- The status rewrite at its word `n`. -/
def rewriting (s : State) (n : Fin 13) : State :=
  { s with ew := { s.ew with rewrite := some { snapshot := s.statusSnapshot, next := n } } }

theorem witness_RingAndStatusGrants :
    let s := { posted up 0x810 .four 0#32 with
      cbp := { (posted up 0x810 .four 0#32).cbp with head := .ringWord }, ew := { up.ew with ringWordDue := true } }
    (Memory.wf s.mem ∧ s.nextGrant = some .evt ∧ s.evtSource = some .ringWord ∧ s.cbp.queue ≠ []) ∧
    ((rewriting up 0).nextGrant = some .evt ∧ (rewriting up 0).evtSource = some .status) ∧
    ((rewriting up 11).nextGrant = some .evt ∧ (rewriting up 11).evtSource = some .status) ∧
    ((rewriting up 12).nextGrant = some .evt ∧ (rewriting up 12).evtSource = some .status) ∧
    ((recorded (rewriting up 3) 1).evtSource = some .record ∧ (recorded (rewriting up 3) 0).evtSource = some .status ∧
      ({ recorded (rewriting up 3) 0 with ew := { (recorded (rewriting up 3) 0).ew with recordFirst := true } } : State).evtSource
        = some .record ∧ up.evtSource = none) := by decide +kernel

/-- TBL alone presents accesses, and no pointer moves: TBL is the only low requester. -/
def steady : State :=
  { listing up [0] with
    pu := { up.pu with params := { up.pu.params with groups := { ctl := true, tbl := false, xch := true, evt := true } } }
    tmp := { upper := .requester .ctl, lower := .tbl } }

/-- TBL alone presents accesses, every requester low. -/
def plainRing (lower : Requester) : State :=
  { listing up [0] with
    pu := { up.pu with params := { up.pu.params with groups := { ctl := false, tbl := false, xch := false, evt := false } } }
    tmp := { upper := .low, lower := lower } }

theorem witness_RequesterServedWithinSixGrants :
    (∀ i : Nat, ((fun _ => steady) i : State).pu.params.groups = { ctl := true, tbl := false, xch := true, evt := true } ∧
      (steady.access .tbl).isSome = true) ∧
    (∀ (i : Nat) (q : Requester), ((fun _ => steady) i : State).nextGrant = some q → steady.tmp = (steady.movePointers q).tmp) ∧
    (∀ q q', (plainRing .xch).pu.params.groups.isHigh q = (plainRing .xch).pu.params.groups.isHigh q') ∧
    (plainRing .xch).nextGrant = some .tbl ∧ ((plainRing .ctl).movePointers .tbl).tmp = (plainRing .xch).tmp ∧
    ((plainRing .xch).movePointers .tbl).tmp = (plainRing .xch).tmp ∧
    (let s := { crowded with tmp := { upper := .low, lower := .evt } }
     ([UpperPosition.requester .tbl, .requester .xch, .low] = [.requester .tbl, .requester .xch] ++ s.tmp.upper :: [] ∧
       [Requester.ctl, .evt] = [.ctl] ++ s.tmp.lower :: [] ∧ s.nextGrant = some .evt) ∧
      (crowded.access .tbl).isSome = true ∧ { crowded with tmp := { upper := .requester .tbl, lower := .ctl } }.nextGrant = some .tbl ∧
      up.nextGrant = none) := by
  refine ⟨fun _ => ⟨rfl, rfl⟩, fun _ q h => ?_, ?_, by decide +kernel, by decide +kernel, by decide +kernel, by decide +kernel⟩
  · have : steady.nextGrant = some .tbl := by decide +kernel
    have h' : steady.nextGrant = some q := h
    rw [this] at h'
    cases h'
    decide +kernel
  · intro q q'; cases q <;> cases q' <;> rfl

/-! ### The exchange and adoption -/

theorem witness_ExchangeStarts :
    let s := listed up { origin := .fault 3, plan := 7 }
    ¬ ((exchanging up 0 .header 0#32 0#32).xe.running = none) ∧
    (s.xe.running = none ∧ s.pu.adoption = none ∧ s.cbp.head = .waiting ∧ s.xe.conditions[(7 : Plan)] = .idle) ∧
    up.xe.list = [] ∧
    ({ s with xe := { s.xe with list := { origin := .controller, plan := 0 } :: s.xe.list
                                conditions := s.xe.conditions.set 0 .torn } } : State).xe.conditions[(0 : Plan)] = .torn ∧
    (let torn := { s with xe := { s.xe with
       list := { origin := .controller, plan := 0 } :: s.xe.list
       conditions := (s.xe.conditions.set 0 .torn).set 7 .torn } }
     torn.xe.running = none ∧ ∀ r ∈ torn.xe.list, torn.xe.conditions[r.plan] = .torn) ∧
    (let torn := listed { up with xe := { up.xe with conditions := up.xe.conditions.set 0 .torn } }
       { origin := .controller, plan := 0 }
     torn.xe.list = [{ origin := .controller, plan := 0 }] ∧ torn.xe.conditions[(0 : Plan)] = .torn) ∧
    ((latched s (.issued [1#8])).cbp.slots[(1 : ReadSlotNo)].map ReadSlot.state) = some (.issued [1#8]) ∧
    (reading s []).cbp.held = some (.read 0x10003#24 .four []) ∧ (reading s []).freeReadSlotNo = some 0 ∧
    (reading s []).cbp.slots[(1 : ReadSlotNo)] = none ∧ (reading (bothSlots s .latched) []).freeReadSlotNo = none := by
  decide +kernel

theorem witness_ExchangeSequence :
    ((exchanging up 15 .header 0#32 0#32).nextGrant = some .xch ∧ Memory.wf up.mem ∧ up.pu.adoption = none) ∧
    ((exchanging up 15 .key 0#32 0#32).nextGrant = some .xch ∧ (0x800001AF#32).getLsbD 31 = true ∧
      field 0x800001AF#32 0 9 = 431 ∧ field 0x800001B0#32 0 9 = 432) ∧
    ((exchanging up 15 .path 0x800001AF#32 0#32).nextGrant = some .xch ∧ pathSource 431 0x500#32 = none ∧
      pathSource 431 0#32 = some .none ∧ isUturn 0 (.express 0) = true) ∧
    (exchanging up 15 (.kept 0xFF#32) 0#32 0#32).nextGrant = some .xch ∧
    (exchanging up 15 .final 0#32 0#32).nextGrant = some .xch ∧
    ((exchanging up 14 .key 0#32 0#32).xe.running.map fun x => x.advance.step) = some 15 ∧
    ((exchanging up 15 .key 0#32 0#32).xe.running.map fun x => x.advance.stage) = some .final := by decide +kernel

/-- Destination 0 is to take add port 0 at 6.0 dB. -/
def swapping (s : State) : State := exchanging s 0 .swap 0x80000000#32 0x0000053C#32

theorem swapping_table : (swapping up).tableLaw := by
  refine blank_up rfl rfl rfl rfl rfl rfl rfl rfl
    (by simp [swapping, exchanging, up, State.reset]) ?_
  intro x d src h1 h2 h3 h4
  cases h1
  have : d = 0 := by
    have h5 : destOfNat (keyDest 0x80000000#32) = some 0 := by decide
    exact (Option.some.inj (h5.symm.trans h3)).symm
  subst this
  have h6 : pathSource 0 0x0000053C#32 = some (.port 0) := by decide
  cases h6.symm.trans h4
  decide

/-- Destination 1 is to take add port 0, which destination 0 holds or claims, with or without slot 0. -/
def contested (r : DestRecord) (port : PortRecord) (sl : Option RampSlot) : State :=
  let s := exchanging up 0 .swap 0x80000001#32 0x0000053C#32
  { s with
    dt := { up.dt with records := up.dt.records.set 0 (some r), ports := up.dt.ports.set 0 port }
    re := { up.re with slots := up.re.slots.set 0 sl, list := if sl.isSome then [0] else [] } }

theorem contested_ports {r : DestRecord} {port : PortRecord} {sl : Option RampSlot}
    (hc : port.claimant = if r.intentSrc = .port 0 then some 0 else none)
    (hh : port.holder = if r.curSrc = .port 0 then some 0 else none)
    (ho : ∀ p, p ≠ 0 → r.intentSrc ≠ .port p ∧ r.curSrc ≠ .port p) (p : Port) (d : Dest) :
    ((contested r port sl).dt.ports[p].claimant = some d ↔ d = 0 ∧ r.intentSrc = .port p) ∧
      ((contested r port sl).dt.ports[p].holder = some d ↔ d = 0 ∧ r.curSrc = .port p) := by
  by_cases hp : p = 0
  · subst hp
    have e : (contested r port sl).dt.ports[(0 : Port)] = port := rfl
    rw [e, hc, hh]
    constructor <;> split <;> simp_all [eq_comm]
  · have e : (contested r port sl).dt.ports[p] = { holder := none, claimant := none } := by
      have : (0 : Nat) ≠ p.val := fun h => hp (Fin.ext h.symm)
      simp [contested, this, up, State.reset]
    rw [e]
    simp [(ho p hp).1, (ho p hp).2]

theorem contested_swap {r : DestRecord} {port : PortRecord} {sl : Option RampSlot} (x : RunningExchange) (d : Dest)
    (src : Source) (h1 : (contested r port sl).xe.running = some x) (_ : x.stage = .swap)
    (h3 : destOfNat (keyDest x.keyWord) = some d) (h4 : pathSource d x.pathWord = some src) : isUturn d src = false := by
  cases h1
  have h5 : destOfNat (keyDest 0x80000001#32) = some 1 := by decide
  cases h5.symm.trans h3
  have h6 : pathSource 1 0x0000053C#32 = some (.port 0) := by decide
  cases h6.symm.trans h4
  decide

/-- Destination 0 holds and claims port 0, at rest. -/
def holding0 : DestRecord :=
  { blankRecord with intentSrc := .port 0, intentAttn := 40#8, curSrc := .port 0, curAttn := 40#8 }

/-- Destination 0 holds port 0 and is to go to express from way 1. -/
def leaving0 (slot : Option SlotNo) : DestRecord :=
  { blankRecord with intentSrc := .express 1, intentAttn := 40#8, curSrc := .port 0, curAttn := 40#8, slot := slot }

/-- The slot in which it dims away from the port. -/
def leavingSlot : RampSlot := { dest := 0, phase := .dimming, goal := dark, serves := none }

theorem holding0_table : (contested holding0 { holder := some 0, claimant := some 0 } none).tableLaw := by
  refine Lone.tableLaw (r := holding0) (sl := none) ⟨record_of_set rfl, contested_ports rfl rfl ?_, slot_of_set rfl, rfl, .inl rfl,
    by simp [contested, exchanging, up, State.reset], by simp [contested, exchanging, up, State.reset],
    by intro d; split <;> rfl, by simp [contested, exchanging, up, State.reset], by simp [contested, exchanging, up, State.reset],
    contested_swap, ⟨(by decide : isLine 0 = true), (by decide : isLine 0 = true)⟩, nofun, rfl, nofun, rfl, nofun, nofun⟩
  intro p hp
  constructor <;> simp [holding0, Ne.symm hp]

theorem leaving0_table (sl : Option RampSlot) (h : sl = none ∨ sl = some leavingSlot) :
    (contested (leaving0 (sl.map fun _ => 0)) { holder := some 0, claimant := none } sl).tableLaw := by
  refine Lone.tableLaw (r := leaving0 (sl.map fun _ => 0)) (sl := sl) ⟨record_of_set rfl, contested_ports rfl rfl ?_, slot_of_set rfl,
    rfl, .inl rfl, by simp [contested, exchanging, up, State.reset], by simp [contested, exchanging, up, State.reset],
    by intro d; split <;> rfl, by simp [contested, exchanging, up, State.reset], by simp [contested, exchanging, up, State.reset],
    contested_swap, ⟨⟨by decide, by decide⟩, (by decide : isLine 0 = true)⟩, nofun, ?_, nofun, rfl, nofun, ?_⟩
  · intro p hp
    constructor <;> simp [leaving0, Ne.symm hp]
  · obtain rfl | rfl := h <;> rfl
  · intro x hx
    obtain rfl | rfl := h
    · cases hx
    · cases hx
      exact ⟨rfl, fun _ => (by decide : 40 < 255), nofun, nofun, nofun, nofun, fun _ => rfl⟩

/-- The path words at the ends of the legal indices of a line and of a drop destination, and entries that fail each static
check behind an entry that passes. -/
theorem witness_CloseRejectedTriedOrWaiting_static :
    (isLine 383 = true ∧ field 0xFF00#32 8 3 = 7 ∧ (field 0xBD00#32 8 3 = 5 ∧ field 0xBD00#32 11 7 = 23) ∧
      (field 0xC500#32 8 3 = 5 ∧ field 0xC500#32 11 7 = 24) ∧ (field 0xBE00#32 8 3 = 6 ∧ field 0xBE00#32 11 7 = 23) ∧
      (field 0xC600#32 8 3 = 6 ∧ field 0xC600#32 11 7 = 24) ∧ field 0x3F800#32 8 3 = 0 ∧
      (field 0x3FC00#32 8 3 = 4 ∧ field 0x100#32 8 3 = 1)) ∧
    (isLine 384 = false ∧ (field 0x2FC00#32 8 3 = 4 ∧ field 0x2FC00#32 11 7 = 95) ∧
      (field 0x30400#32 8 3 = 4 ∧ field 0x30400#32 11 7 = 96) ∧ (field 0x100#32 8 3 = 1 ∧ field 0x100#32 11 7 = 0)) ∧
    (let first : OpenEntry := { dest := 0, word := 0x53C#32 }
     staticChecks [] [first] = none ∧ pathSource 1 0xC53C#32 = none ∧ pathSource 1 0x13C#32 = some (.express 0) ∧
       pathSource 1 0x53C#32 = some (.port 0) ∧ pathSource first.dest first.word = some (.port 0) ∧
       pathSource 1 0xD3C#32 = some (.port 1)) := by decide +kernel

/-- A set that asks for port 0, which destination 0 claims, and one that asks for port 1, which none does. -/
theorem witness_CloseRejectedTriedOrWaiting_dynamic :
    let s := contested holding0 { holder := some 0, claimant := some 0 } none
    let asks := fun p : Port => ({ dest := 1, src := .port p, attn := 40#8, word := 0#32 } : SetEntry)
    s.tableLaw ∧ s.pu.adoption = none ∧ [asks 0] = [] ++ asks 0 :: [] ∧ (asks 0).src = .port 0 ∧
      (s.record 0).intentSrc = .port 0 ∧ (0 : Dest) ∉ [asks 0].map SetEntry.dest ∧
      ∀ p c, ¬ ((asks 1).src = .port p ∧ (s.record c).intentSrc = .port p ∧ c ∉ [asks 1].map SetEntry.dest) := by
  refine ⟨holding0_table, rfl, rfl, rfl, rfl, by decide, ?_⟩
  rintro p c ⟨hp, hc, -⟩
  cases hp
  rw [record_of_set (r := holding0) rfl] at hc
  by_cases h : c = 0
  · rw [if_pos h] at hc; cases hc
  · rw [if_neg h] at hc; cases hc

/-- A free port; a port that another destination claims; a port that another holds without and with a slot. -/
theorem witness_SwapLeavesDestinationAtRest :
    ((swapping up).tableLaw ∧ (swapping up).xe.running.map RunningExchange.stage = some .swap ∧
      field 0x80000000#32 0 9 = (0 : Dest).val ∧ pathSource 0 0x0000053C#32 = some (.port 0) ∧
      (swapping up).dt.ports[(0 : Port)].claimant = none) ∧
    (let s := contested holding0 { holder := some 0, claimant := some 0 } none
     s.tableLaw ∧ s.xe.running.map RunningExchange.stage = some .swap ∧ field 0x80000001#32 0 9 = (1 : Dest).val ∧
      pathSource 1 0x0000053C#32 = some (.port 0) ∧ s.dt.ports[(0 : Port)].claimant = some 0) ∧
    ∀ sl, sl = none ∨ sl = some leavingSlot →
      let s := contested (leaving0 (sl.map fun _ => 0)) { holder := some 0, claimant := none } sl
      s.tableLaw ∧ s.dt.ports[(0 : Port)].claimant = none ∧ s.dt.ports[(0 : Port)].holder = some 0 ∧
        (s.record 0).slot = sl.map fun _ => 0 :=
  ⟨⟨swapping_table, by decide +kernel⟩, ⟨holding0_table, by decide +kernel⟩, fun sl h => ⟨leaving0_table sl h, rfl, rfl, rfl⟩⟩

theorem witness_AdoptionMasksAndHeaders :
    let torn : State := { up with mem := [(0x1400, 1#8), (0x141C, 3#8)] }
    (adopting up (.mask 11)).nextGrant = some .xch ∧ (adopting up (.header 6)).nextGrant = some .xch ∧
    field (up.loadWord 0x1418) 0 2 = 0 ∧ (adopting torn (.header 7)).nextGrant = some .xch ∧
    field (torn.loadWord 0x141C) 0 2 = 3 ∧ field (torn.loadWord 0x1400) 0 2 = 1 ∧ Memory.wf torn.mem ∧
    (adopting up (.tornHeader 6 2#32)).nextGrant = some .xch := by decide +kernel

theorem witness_AdoptionPathWords :
    let bad : State := { up with mem := [(1, 7#8)] }
    Memory.wf bad.mem ∧ (adopting bad (.path 0)).nextGrant = some .xch ∧
    (bad.fixFor 0 (bad.loadWord 0)).isSome = true ∧
    (adopting { up with mem := [(1724, 0xFF#8)] } (.path 431)).nextGrant = some .xch ∧
    ({ up with mem := [(1724, 0xFF#8)] } : State).fixFor 431
      (({ up with mem := [(1724, 0xFF#8)] } : State).loadWord (4 * 431)) = none ∧
    (adopting up (.fixedWord 431 0xFF#32)).nextGrant = some .xch ∧
    (up.fixFor 0 0x7#32 = some (.badContent, none) ∧ up.fixFor 0 0#32 = some (.badContent, none) ∧
      up.fixFor 0 0x1414#32 = none ∧ pathSource 0 0x0000053C#32 = some (.port 0) ∧ up.fixFor 0 0x0000053C#32 = none ∧
      (contested holding0 { holder := some 7, claimant := some 7 } none).fixFor 1 0x0000053C#32 = some (.portTwice, some 7)) := by
  decide +kernel

theorem witness_AdoptionStartsAndEnds :
    ((adopting up .drain).pu.adoption.map Adoption.stage = some .drain ∧ (adopting up .drain).dt.updates = [] ∧
      (adopting (listing up [0]) .drain).dt.updates ≠ []) ∧
    (Memory.wf up.mem ∧ (adopting up (.header 7)).nextGrant = some .xch ∧ field (up.loadWord 0x141C) 0 2 = 0) ∧
    (let torn : State := { up with mem := [(0x141C, 2#8)] }
     Memory.wf torn.mem ∧ (adopting torn (.header 7)).nextGrant = some .xch ∧ field (torn.loadWord 0x141C) 0 2 = 2) ∧
    (adopting up (.tornHeader 7 2#32)).nextGrant = some .xch ∧
    ({ adopting up (.header 7) with
      cbp := { (adopting up (.header 7)).cbp with head := .restarting } } : State).nextGrant = some .xch := by
  decide +kernel

/-! ### Ramps -/

theorem witness_RampTickRunsOrWaits :
    let s := { ramping 40#8 true .dimming dark with re := { (ramping 40#8 true .dimming dark).re with tickTimer := true } }
    s.re.tickTimer = true ∧ s.dt.updates = [] ∧ (listing s [0]).re.tickTimer = true ∧ (listing s [0]).dt.updates ≠ [] := by
  decide +kernel

theorem witness_PassStaysWithinBudget : 0 < (ramping 40#8 true .dimming dark).re.passesDue[(0 : Way)] := by decide +kernel

theorem ramping_table (cur : Attn) (hc : cur ≠ dark) : (ramping cur true .dimming dark).tableLaw := by
  refine Lone.tableLaw (r := (ramping cur true .dimming dark).record 0) (sl := some { dest := 0, phase := .dimming, goal := dark, serves := none })
    ⟨record_of_set rfl, portless (fun p => by simp [ramping, up, State.reset]) fun p => ⟨nofun, nofun⟩, slot_of_set rfl, rfl,
      .inl rfl, by simp [ramping, up, State.reset], by simp [ramping, up, State.reset],
      by intro d; split <;> rfl, by simp [ramping, up, State.reset],
      by simp [ramping, up, State.reset], by simp [ramping, up, State.reset], ?_, ?_, rfl, ?_, ?_, ?_, ?_⟩
  · exact ⟨⟨by decide, by decide⟩, ⟨by decide, by decide⟩⟩
  · exact nofun
  · exact nofun
  · rfl
  · exact nofun
  · intro x hx
    cases hx
    refine ⟨rfl, fun _ => ?_, nofun, nofun, nofun, fun _ => rfl, fun h => absurd rfl h⟩
    have h : cur.toNat ≠ 255 := fun h => hc (BitVec.eq_of_toNat_eq h)
    have h' : cur.toNat < 256 := cur.isLt
    show cur.toNat < 255
    omega

/-- The swap of a destination that holds a slot. -/
theorem witness_SwapLeavesDestinationAtRest_slot :
    let s := swapping (ramping 40#8 true .dimming dark)
    s.tableLaw ∧ s.xe.running.map RunningExchange.stage = some .swap ∧ (s.record 0).slot = some 0 ∧
      s.dt.ports[(0 : Port)].claimant = none := by
  refine ⟨?_, by decide +kernel⟩
  have h := ramping_table 40#8 (by decide)
  refine { h with
    exclusive := fun _ => ⟨rfl, nofun⟩, swapWord := fun x d src h1 h2 h3 h4 => ?_
    slots := fun n sl hs => { h.slots n sl hs with } }
  exact swapping_table.swapWord x d src h1 h2 h3 h4

/-- Destination 0 dims in slot 0 under its mask bit, and the request that clears its flag comes next. -/
def unblocking (cur : Attn) : State :=
  { ramping cur true .dimming dark with
    masks := up.masks.set 0 (some 0#32), cbp := { (posted up 0x700 .four 0#32).cbp with head := .masking 0 [0] } }

theorem unblocking_table (cur : Attn) (hc : cur ≠ dark) : (unblocking cur).tableLaw :=
  tableLaw_of_same (ramping_table cur hc) rfl rfl rfl rfl rfl (by simp [unblocking]) rfl

/-- Destination 0 in slot 0 with this record and slot, port 0 with this record, and a pass owed to way 0. -/
def slotted (r : DestRecord) (port : PortRecord) (sl : RampSlot) : State :=
  { up with
    dt := { up.dt with
      records := up.dt.records.set 0 (some { r with slot := some 0 }), ports := up.dt.ports.set 0 port }
    re := { up.re with slots := up.re.slots.set 0 (some sl), list := [0], passesDue := up.re.passesDue.set 0 1 } }

theorem slotted_ports {r : DestRecord} {port : PortRecord} {sl : RampSlot}
    (hc : port.claimant = if r.intentSrc = .port 0 then some 0 else none)
    (hh : port.holder = if r.curSrc = .port 0 then some 0 else none)
    (ho : ∀ p, p ≠ 0 → r.intentSrc ≠ .port p ∧ r.curSrc ≠ .port p) (p : Port) (d : Dest) :
    ((slotted r port sl).dt.ports[p].claimant = some d ↔ d = 0 ∧ r.intentSrc = .port p) ∧
      ((slotted r port sl).dt.ports[p].holder = some d ↔ d = 0 ∧ r.curSrc = .port p) := by
  by_cases hp : p = 0
  · subst hp
    have e : (slotted r port sl).dt.ports[(0 : Port)] = port := rfl
    rw [e, hc, hh]
    constructor <;> split <;> simp_all [eq_comm]
  · have e : (slotted r port sl).dt.ports[p] = { holder := none, claimant := none } := by
      have : (0 : Nat) ≠ p.val := fun h => hp (Fin.ext h.symm)
      simp [slotted, this, up, State.reset]
    rw [e]
    simp [(ho p hp).1, (ho p hp).2]

/-- Destination 0 waits in PORT_WAIT for port 0. -/
def portWaiting : State :=
  slotted { blankRecord with intentSrc := .port 0, intentAttn := 20#8 } { holder := none, claimant := some 0 }
    { dest := 0, phase := .portWait, goal := dark, serves := none }

theorem portWaiting_table : portWaiting.tableLaw := by
  refine Lone.tableLaw (r := portWaiting.record 0) (sl := some { dest := 0, phase := .portWait, goal := dark, serves := none })
    ⟨record_of_set rfl, slotted_ports rfl rfl ?_, slot_of_set rfl, rfl, .inl rfl,
      by simp [portWaiting, slotted, up, State.reset], by simp [portWaiting, slotted, up, State.reset],
      by intro d; split <;> rfl, by simp [portWaiting, slotted, up, State.reset], nofun, nofun,
      ⟨(by decide : isLine 0 = true), trivial⟩, fun _ => rfl, rfl, nofun, rfl, nofun, ?_⟩
  · intro p hp
    constructor
    · simp [Ne.symm hp]
    · exact nofun
  · intro x hx
    cases hx
    exact ⟨rfl, nofun, nofun, nofun, fun _ => ⟨rfl, nofun⟩, nofun, fun _ => rfl⟩

/-- Destination 0 dims away from express of way 2 toward express of way 1. -/
def dimmingAway (cur : Attn) : State :=
  slotted { blankRecord with intentSrc := .express 1, intentAttn := 20#8, curSrc := .express 2, curAttn := cur }
    { holder := none, claimant := none } { dest := 0, phase := .dimming, goal := dark, serves := none }

theorem dimmingAway_table (cur : Attn) (hc : cur.toNat < 255) : (dimmingAway cur).tableLaw := by
  refine Lone.tableLaw (r := (dimmingAway cur).record 0) (sl := some { dest := 0, phase := .dimming, goal := dark, serves := none })
    ⟨record_of_set rfl, slotted_ports rfl rfl fun p _ => ⟨nofun, nofun⟩, slot_of_set rfl, rfl, .inl rfl,
      by simp [dimmingAway, slotted, up, State.reset], by simp [dimmingAway, slotted, up, State.reset],
      by intro d; split <;> rfl, by simp [dimmingAway, slotted, up, State.reset], nofun, nofun,
      ⟨⟨by decide, by decide⟩, ⟨by decide, by decide⟩⟩, nofun, rfl, nofun, rfl, nofun, ?_⟩
  intro x hx
  cases hx
  exact ⟨rfl, fun _ => hc, nofun, nofun, nofun, nofun, fun _ => rfl⟩

/-- What destination 1 is as the holder of a port that it is to leave for express of way 1. -/
def leaving1 (p : Port) : DestRecord :=
  { blankRecord with intentSrc := .express 1, intentAttn := 40#8, curSrc := .port p, curAttn := 40#8 }

/-- The state with destination 1 the holder of port `p`. -/
def heldBy1 (s : State) (p : Port) : State :=
  (s.setRecord 1 (leaving1 p)).setPort p { s.dt.ports[p] with holder := some 1 }

theorem heldBy1_record (s : State) (p : Port) (d : Dest) :
    (heldBy1 s p).record d = if d = 1 then leaving1 p else s.record d := by
  rw [State.record, heldBy1]
  by_cases hd : d = 1
  · subst hd; simp [State.setRecord, State.setPort]
  · have : (1 : Nat) ≠ d.val := fun h => hd (Fin.ext h.symm)
    simp [State.setRecord, State.setPort, State.record, this, hd]

theorem heldBy1_port (s : State) (p q : Port) : (heldBy1 s p).dt.ports[q] =
    if q = p then { s.dt.ports[p] with holder := some 1 } else s.dt.ports[q] := by
  rw [heldBy1]
  by_cases h : q = p
  · subst h; simp [State.setRecord, State.setPort]
  · have : p.val ≠ q.val := fun e => h (Fin.ext e.symm)
    simp [State.setRecord, State.setPort, this, h]

/-- The table laws hold with destination 1, blank before, the holder of a port that had none. -/
theorem heldBy1_table {s : State} {p : Port} (h : s.tableLaw) (ha : s.pu.adoption = none) (h1 : s.record 1 = blankRecord)
    (hp : s.dt.ports[p].holder = none) (hi : s.dt.isolated[(1 : Way)] = false) : (heldBy1 s p).tableLaw := by
  have hb : ∀ d, (heldBy1 s p).isBuilt d = true := fun d => by simp [State.isBuilt, heldBy1, ha]
  have hbs : ∀ d, s.isBuilt d = true := fun d => by simp [State.isBuilt, ha]
  have hr := heldBy1_record s p
  have hne : ∀ d, d ≠ 1 → (heldBy1 s p).record d = s.record d := fun d hd => by rw [hr, if_neg hd]
  have he : (heldBy1 s p).record 1 = leaving1 p := by rw [hr, if_pos rfl]
  have hst : s.mapStands := fun a e => by rw [ha] at e; cases e
  refine { h with marks := ?_, intents := ?_, currents := ?_, darkNone := ?_, claimants := ?_, holders := ?_, drops := ?_
                  slots := ?_, slotNames := ?_, rebuilt := fun hn => absurd ha hn, wanted := ?_, unbuilt := ?_, forcedFlag := ?_, forcedRest := ?_ }
  · intro d
    by_cases hd : d = 1
    · subst hd
      have := h.marks 1
      rw [h1] at this
      rw [he]
      exact this
    · rw [hne d hd]; exact h.marks d
  · intro d
    by_cases hd : d = 1
    · subst hd; rw [he]; exact ⟨by decide, by decide⟩
    · rw [hne d hd]; exact h.intents d
  · intro d
    by_cases hd : d = 1
    · subst hd; rw [he]; exact (by decide : isLine 1 = true)
    · rw [hne d hd]; exact h.currents d
  · intro d
    by_cases hd : d = 1
    · subst hd; rw [he]; exact nofun
    · rw [hne d hd]; exact h.darkNone d
  · intro _ q d
    have hc : (heldBy1 s p).dt.ports[q].claimant = s.dt.ports[q].claimant := by
      rw [heldBy1_port]; split
      · rename_i e; subst e; rfl
      · rfl
    rw [hc, h.claimants hst, hb, hbs]
    by_cases hd : d = 1
    · subst hd; rw [he, h1]; simp [leaving1, blankRecord]
    · rw [hne d hd]
  · intro _ q d
    have := h.holders hst q d
    rw [hbs] at this
    rw [hb, heldBy1_port]
    by_cases hd : d = 1
    · subst hd
      rw [h1] at this
      rw [he]
      by_cases hq : q = p
      · subst hq; simp [leaving1]
      · rw [if_neg hq, this]; simp [leaving1, blankRecord, Ne.symm hq]
    · rw [hne d hd]
      by_cases hq : q = p
      · subst hq
        rw [hp] at this
        rw [if_pos rfl, ← this]
        simp [Ne.symm hd]
      · rw [if_neg hq, this]
  · intro d hd
    have : d ≠ 1 := by rintro rfl; exact absurd hd (by decide)
    rw [hne d this]; exact h.drops d hd
  · intro n sl hs
    have l := h.slots n sl hs
    have hd : sl.dest ≠ 1 := by
      intro e
      have := l.names
      rw [e, h1] at this
      cases this
    have e := hne sl.dest hd
    exact ⟨l.line, by rw [e]; exact l.names, by rw [e]; exact l.dims, by rw [e]; exact l.brightens, l.serves,
      by rw [e]; exact l.waiting, by rw [e]; exact l.toTarget, by rw [e]; exact l.toDark⟩
  · intro d n hs
    by_cases hd : d = 1
    · subst hd; rw [he] at hs; cases hs
    · rw [hne d hd] at hs; exact h.slotNames d n hs
  · intro d hw
    by_cases hd : d = 1
    · subst hd; rw [he] at hw; cases hw
    · rw [hne d hd] at hw ⊢; exact h.wanted d hw
  · intro d hd; rw [hb] at hd; cases hd
  · intro d
    by_cases hd : d = 1
    · subst hd; rw [he]; exact hi.symm
    · rw [hne d hd]; exact h.forcedFlag d
  · intro d hf
    by_cases hd : d = 1
    · subst hd; rw [he] at hf; cases hf
    · rw [hne d hd] at hf ⊢
      have := h.forcedRest d hf
      exact ⟨this.1, fun _ => this.2 (hbs d)⟩

theorem portWaiting_held : (heldBy1 portWaiting 0).tableLaw :=
  heldBy1_table portWaiting_table rfl (by decide +kernel) rfl rfl

/-- The state with the request for destination 0 next, from a mask word with this value. -/
def unmasking (s : State) (w : Word) : State :=
  { s with masks := s.masks.set 0 (some w), cbp := { (posted up 0x700 .four 0#32).cbp with head := .masking 0 [0] } }

theorem witness_MaskWriteSetsBlockedFlags :
    ((maskingHead [0, 31]).tableLaw ∧ (maskingHead [0, 31]).cbp.head = .masking 11 (0 :: [31]) ∧
      (maskingHead [0, 31]).cbp.queue ≠ []) ∧
    ((maskingHead [31]).tableLaw ∧ (maskingHead [31]).cbp.head = .masking 11 (31 :: [])) ∧
    ((maskingHead [31]).record (maskDest 11 31)).slot = none ∧
    ((unblocking 40#8).tableLaw ∧ (unblocking 40#8).cbp.head = .masking 0 (0 :: []) ∧ (unblocking 40#8).cbp.queue ≠ [] ∧
      ((unblocking 40#8).record (maskDest 0 0)).slot = some 0 ∧
      ((unblocking 40#8).record 0).curSrc = ((unblocking 40#8).record 0).intentSrc ∧
      ((unblocking 40#8).record 0).curAttn ≠
        effectiveTarget 0 { (unblocking 40#8).record 0 with blocked := ((unblocking 40#8).maskWord 0).getLsbD 0 }) ∧
    ((unblocking 20#8).tableLaw ∧ ((unblocking 20#8).record 0).curAttn =
        effectiveTarget 0 { (unblocking 20#8).record 0 with blocked := ((unblocking 20#8).maskWord 0).getLsbD 0 }) ∧
    (∀ w : Word,
      ((unmasking (dimmingAway 254#8) w).tableLaw ∧ (unmasking (heldBy1 portWaiting 0) w).tableLaw ∧
        (unmasking portWaiting w).tableLaw) ∧
      ((unmasking portWaiting w).cbp.head = .masking 0 (0 :: []) ∧ (unmasking portWaiting w).cbp.queue ≠ [] ∧
        (unmasking portWaiting w).maskWord 0 = w)) ∧
    (((dimmingAway 254#8).record 0).slot = some 0 ∧ ((dimmingAway 254#8).record 0).curSrc = .express 2 ∧
      ((dimmingAway 254#8).record 0).intentSrc = .express 1 ∧ ((dimmingAway 254#8).record 0).curAttn ≠ dark) ∧
    ((portWaiting.record 0).slot = some 0 ∧ (portWaiting.record 0).curSrc ≠ (portWaiting.record 0).intentSrc ∧
      (portWaiting.record 0).curAttn = dark ∧ (portWaiting.record 0).intentSrc = .port 0 ∧
      portWaiting.dt.ports[(0 : Port)].holder = none ∧ (heldBy1 portWaiting 0).dt.ports[(0 : Port)].holder = some 1 ∧
      effectiveTarget 0 { portWaiting.record 0 with blocked := true } = dark ∧
      effectiveTarget 0 { portWaiting.record 0 with blocked := false } = 20#8) ∧
    ((posted up 0x72C .four 0x80000001#32).headToTake = some (head 0x72C .four 0x80000001#32 (.mask .direct)) ∧
      maskIndex .direct 0x72C = some 11 ∧
      ∀ b : Fin 32, b ∈ ([0, 31] : List (Fin 32)) ↔ (0x80000001#32).getLsbD b.val ≠ (0#32).getLsbD b.val) ∧
    (posted up 0x72C .four 0#32).headToTake = some (head 0x72C .four 0#32 (.mask .direct)) ∧
    maskWrite .direct (up.maskWord 11) 0 [0#8, 0#8, 0#8, 0#8] = up.maskWord 11 := by
  refine ⟨⟨maskingHead_table _, by decide +kernel⟩, ⟨maskingHead_table _, by decide +kernel⟩, by decide +kernel,
    ⟨unblocking_table _ (by decide), by decide +kernel⟩, ⟨unblocking_table _ (by decide), by decide +kernel⟩, ?_,
    by decide +kernel⟩
  refine fun w => ⟨⟨tableLaw_of_same (dimmingAway_table 254#8 (by decide)) rfl rfl rfl rfl rfl nofun rfl,
    tableLaw_of_same portWaiting_held rfl rfl rfl rfl rfl nofun rfl,
    tableLaw_of_same portWaiting_table rfl rfl rfl rfl rfl nofun rfl⟩, rfl, nofun, rfl⟩

theorem witness_PassMovesItsFirstSlot :
    let s := ramping 254#8 true .dimming dark
    s.tableLaw ∧ 0 < s.re.passesDue[(0 : Way)] ∧ 96 ≤ s.pu.params.budgetFloor ∧ 1 ≤ s.pu.params.maxStep ∧
      s.slotsOfWay 0 = [] ++ 0 :: [] ∧ (s.re.slots[(0 : SlotNo)].map RampSlot.phase) = some .dimming ∧
      (s.record 0).curAttn ≠ dark := by
  refine ⟨ramping_table _ (by decide), by decide +kernel⟩

/-- Whether a step of `delta` units fits the maximum step and the budget `left` for destination 0's slot. -/
def fitsStep (s : State) (goal : Attn) (maxStep left delta : Nat) : Bool :=
  let a := (s.record 0).curAttn
  decide (1 ≤ delta ∧ delta ≤ min maxStep (distance a goal) ∧ cost a (stepToward a goal delta) ≤ left)

/-- A visit of a slot that moves 7 of 10 units, of one that cannot move, of one that reaches its goal on its intent source and of
one that reaches dark away from it; and of a slot in PORT_WAIT with its port held and free. -/
theorem witness_PassMovesItsFirstSlot_visits :
    (let s := ramping 40#8 true .dimming dark
     s.tableLaw ∧ s.re.slots[(0 : SlotNo)].isSome = true ∧ fitsStep s dark 10 256 7 = true ∧
       (∀ more, 7 < more → more ≤ 10 → fitsStep s dark 10 256 more = false) ∧
       ∀ delta ≤ 10, fitsStep s dark 10 0 delta = false) ∧
    (let s := ramping 254#8 true .dimming dark
     s.tableLaw ∧ fitsStep s dark 10 12 1 = true ∧ stepToward 254#8 dark 1 = dark ∧
       (s.record 0).curSrc = (s.record 0).intentSrc) ∧
    (let s := dimmingAway 254#8
     s.tableLaw ∧ fitsStep s dark 10 12 1 = true ∧ (s.record 0).curSrc ≠ (s.record 0).intentSrc) ∧
    (portWaiting.tableLaw ∧ (portWaiting.re.slots[(0 : SlotNo)].map RampSlot.phase) = some .portWait ∧
      (portWaiting.otherHolder 0 (portWaiting.record 0).intentSrc).isSome = false) ∧
    ((heldBy1 portWaiting 0).tableLaw ∧ ((heldBy1 portWaiting 0).re.slots[(0 : SlotNo)].map RampSlot.phase) = some .portWait ∧
      ((heldBy1 portWaiting 0).otherHolder 0 ((heldBy1 portWaiting 0).record 0).intentSrc).isSome = true) ∧
    0 < portWaiting.re.passesDue[(0 : Way)] := by
  refine ⟨⟨ramping_table _ (by decide), by decide +kernel, by decide +kernel, ?_, by decide +kernel⟩,
    ⟨ramping_table _ (by decide), by decide +kernel⟩, ⟨dimmingAway_table _ (by decide), by decide +kernel⟩,
    ⟨portWaiting_table, by decide +kernel⟩, ⟨portWaiting_held, by decide +kernel⟩, by decide +kernel⟩
  intro more h1 h2
  obtain rfl | rfl | rfl : more = 8 ∨ more = 9 ∨ more = 10 := by omega
  all_goals decide +kernel

/-- A state whose one record of note is destination 0's, without a slot and fed by express from way 1. -/
theorem single_table {s : State} {r : DestRecord} (hd : s.dt.records = up.dt.records.set 0 (some r))
    (hp : s.dt.ports = up.dt.ports) (hs : s.re.slots = up.re.slots) (hl : s.re.list = []) (ha : s.pu = up.pu)
    (ho : s.csa.openSet = []) (ht : s.csa.settling = []) (hx : s.xe = up.xe)
    (hi : s.dt.isolated = up.dt.isolated)
    (hq : (∀ q ∈ s.csa.queue, q.legal) ∧ s.csa.queue.length ≤ 4)
    (hm : ∀ d, (s.csa.queue.flatMap fun q => entryDests q.entries).count d = if d = 0 then r.queued else 0)
    (hsrc : r.intentSrc = .express 1 ∧ r.curSrc = .express 1) (hf : r.forced = false) (hn : r.slot = none) : s.tableLaw := by
  refine Lone.tableLaw (r := r) (sl := none)
    ⟨record_of_set hd, portless (fun p => by rw [hp]; simp [up, State.reset]) ?_, ?_, hl, .inl (by rw [ha]; rfl), by simp [ho],
      hq, hm, by simp [ht], by rw [hx]; exact fun _ _ => rfl, by rw [hx]; exact nofun, ?_, ?_, hn, ?_, ?_, ?_, ?_⟩
  · rw [hsrc.1, hsrc.2]; exact fun _ => ⟨nofun, nofun⟩
  · intro n; rw [hs]; simp [up, State.reset]
  · rw [hsrc.1, hsrc.2]; exact ⟨⟨by decide, by decide⟩, ⟨by decide, by decide⟩⟩
  · rw [hsrc.2]; exact nofun
  · exact fun _ => ⟨rfl, hf⟩
  · rw [hf, hsrc.1, State.forcedFor, hi]; rfl
  · rw [hf]; exact nofun
  · exact nofun

/-- A set that asks for add port 0. -/
def portSet : QueuedSet := { label := 6#4, entries := [{ dest := 0, src := .port 0, attn := 30#8, word := 0#32 }] }

theorem witness_HeadWaitsOrIsRefused :
    let s := queued (full up) lineSet
    let t := queued { up with dt := { up.dt with ports := up.dt.ports.set 0 { holder := none, claimant := some 7 } } } portSet
    (s.re.occasionDue = true ∧ s.pu.adoption = none ∧ s.dynamicCheck lineSet.entries = none ∧
      s.freeSlots.length < s.neededSlots lineSet.entries) ∧
    (t.re.occasionDue = true ∧ (t.dynamicCheck portSet.entries).isSome = true) ∧
    (let two := { t with csa := { t.csa with queue := [portSet, lineSet] } }
     two.re.occasionDue = true ∧ two.pu.adoption = none ∧ two.csa.queue = portSet :: [lineSet] ∧
       (two.dynamicCheck portSet.entries).isSome = true) ∧ ∀ d, (t.record d).wanted = false := by
  refine ⟨by decide +kernel, by decide +kernel, by decide +kernel, ?_⟩
  intro d
  simp [queued, State.record, up, State.reset, blankRecord]

/-- The record that stands dark on express from way 1 with one queued mark. -/
def markedRecord : DestRecord :=
  { blankRecord with intentSrc := .express 1, intentAttn := 255#8, curSrc := .express 1, queued := 1 }

/-- A set queue that holds the one set, and the marks that it gives. -/
theorem lineSet_sole : ((∀ q ∈ [lineSet], q.legal) ∧ [lineSet].length ≤ 4) ∧
    ∀ d, ([lineSet].flatMap fun q => entryDests q.entries).count d = if d = 0 then markedRecord.queued else 0 := by
  refine ⟨⟨fun q hq => ?_, by decide⟩, fun d => ?_⟩
  · rw [List.mem_singleton.1 hq]
    refine ⟨by decide, by decide, fun e he => ?_⟩
    rw [List.mem_singleton.1 he]
    exact ⟨by decide, by decide⟩
  · by_cases h : d = 0
    · subst h; decide
    · simp [lineSet, entryDests, h, Ne.symm h]

theorem witness_SetAppliedWhole :
    let s := queued (lone up markedRecord) lineSet
    s.tableLaw ∧ s.re.occasionDue = true ∧ s.pu.adoption = none ∧ s.csa.queue = [lineSet] ∧
      s.dynamicCheck lineSet.entries = none ∧ s.neededSlots lineSet.entries ≤ s.freeSlots.length :=
  ⟨single_table (r := markedRecord) rfl rfl rfl rfl rfl rfl rfl rfl rfl lineSet_sole.1 lineSet_sole.2 ⟨rfl, rfl⟩ rfl rfl,
    by decide +kernel⟩

/-- Two sets queued, each with a moving entry for destination 0; and one with destination 0 in slot 0 to be retargeted. -/
theorem witness_SetAppliedWhole_behind :
    (let s := { queued (lone up { markedRecord with queued := 2 }) lineSet with
       csa := { up.csa with queue := [lineSet, lineSet] } }
     s.tableLaw ∧ s.re.occasionDue = true ∧ s.pu.adoption = none ∧ s.csa.queue = lineSet :: [lineSet] ∧
       s.dynamicCheck lineSet.entries = none ∧ s.neededSlots lineSet.entries = 1 ∧ s.freeSlots.length = 16) ∧
    (let s := queued (dimmingAway 254#8) lineSet
     s.re.occasionDue = true ∧ s.dynamicCheck lineSet.entries = none ∧ s.neededSlots lineSet.entries = 0 ∧
       (s.record 0).slot = some 0) := by
  refine ⟨⟨single_table (r := { markedRecord with queued := 2 }) rfl rfl rfl rfl rfl rfl rfl rfl rfl
    ⟨fun q hq => lineSet_sole.1.1 q ?_, by decide⟩ ?_ ⟨rfl, rfl⟩ rfl rfl, by decide +kernel⟩, by decide +kernel⟩
  · have : q ∈ [lineSet, lineSet] := hq
    simpa using this
  · intro d
    by_cases h : d = 0
    · subst h; decide
    · show (([lineSet, lineSet] : List QueuedSet).flatMap fun q => entryDests q.entries).count d = _
      simp [lineSet, entryDests, h, Ne.symm h]

/-- The mailbox grant of CMD_RESTART comes next, on an empty table and on one with a set queued. -/
theorem witness_RestartCarriedOut :
    let todo : List Access := [.write 0x814 [0#8, 0#8, 0#8, 0#8]]
    let s := handling up todo true
    let t := handling (queued (lone up markedRecord) lineSet) todo true
    (s.tableLaw ∧ Memory.wf s.mem ∧ s.nextGrant = some .ctl ∧ s.ctlSource = some .head ∧ s.cbp.head = .writing todo true) ∧
    (t.tableLaw ∧ Memory.wf t.mem ∧ t.nextGrant = some .ctl ∧ t.ctlSource = some .head ∧ t.cbp.head = .writing todo true ∧
      (t.record 0).queued ≠ 0) := by
  refine ⟨⟨blank_up rfl rfl rfl rfl rfl rfl rfl rfl (fun _ _ => rfl) nofun, by decide +kernel⟩,
    ⟨single_table (r := markedRecord) rfl rfl rfl rfl rfl rfl rfl rfl rfl lineSet_sole.1 lineSet_sole.2 ⟨rfl, rfl⟩ rfl rfl,
      by decide +kernel⟩⟩

/-- Destination 0 without a slot, its wanted flag raised. -/
def wanting : State :=
  { lone up { blankRecord with intentSrc := .express 1, intentAttn := 20#8, curSrc := .express 1, wanted := true } with
    re := { up.re with occasionDue := true } }

theorem witness_WantedAdmittedInOrder :
    wanting.tableLaw ∧ wanting.re.occasionDue = true ∧ wanting.pu.adoption = none ∧ wanting.csa.queue = [] ∧
      (wanting.record 0).wanted = true := by
  refine ⟨single_table (r := wanting.record 0) rfl rfl rfl rfl rfl rfl rfl rfl rfl ⟨nofun, by decide⟩ ?_ ⟨rfl, rfl⟩ rfl rfl,
    by decide +kernel⟩
  intro d; split <;> rfl

/-! ### Light -/

theorem witness_CheckIntervalAndLosChange :
    ({ up with lm := { up.lm with checkTimer := true } } : State).lm.checkTimer = true ∧ up.lm.watching = false ∧
      ({ up with lm := { up.lm with watching := true } } : State).lm.watching = true := by decide

/-- Way 3 is about to enter DEGRADED with plan 7 as its plan. -/
def failing (list : List ExchangeRequest) (torn : Bool) : State :=
  let s := wayed up .warning 95 0 true
  { s with
    pu := { s.pu with params := { s.pu.params with plan := s.pu.params.plan.set 3 (some 7) } }
    xe := { s.xe with
      list := list, conditions := if torn then s.xe.conditions.set 7 .torn else s.xe.conditions } }

/-- R111: listed behind the fault requests, merged with a listed request, refused for a torn plan. -/
theorem test_faultRequest :
    let fault : ExchangeRequest := { origin := .fault 0, plan := 1 }
    let host : ExchangeRequest := { origin := .controller, plan := 2 }
    let listed := after (.wayEvaluation 3) (failing [fault, host] false)
    let merged := after (.wayEvaluation 3) (failing [{ origin := .controller, plan := 7 }] false)
    let refused := after (.wayEvaluation 3) (failing [] true)
    listed.xe.list = [fault, { origin := .fault 3, plan := 7 }, host] ∧
      merged.ew.queue.map EventRecord.kind = [.wayState, .exchangeMerged] ∧
      refused.ew.queue.map EventRecord.kind = [.wayState, .exchangeRefused] := by decide +kernel

theorem witness_ServingWayFollowsItsCounter :
    let s := wayed up .warning 95 0 true
    let t := wayed up .clear 0 0 false
    (s.wayLaw ∧ s.lm.checkTimer = true ∧ s.lm.evalAhead[(3 : Way)] = false ∧ s.lm.ways[(3 : Way)].state.holdsDark = false) ∧
    (t.wayLaw ∧ t.lm.ways[(3 : Way)].state.holdsDark = false) ∧
    ∀ (list : List ExchangeRequest) (torn : Bool), (failing list torn).wayLaw ∧
      (failing list torn).lm.ways[(3 : Way)].counter = 95 ∧ (failing list torn).lm.ways[(3 : Way)].latch = true ∧
      (failing list torn).pu.params.plan[(3 : Way)] = some 7 ∧ (failing list torn).xe.list = list :=
  ⟨⟨wayed_law .warning 95 0 true ⟨by decide, by decide, rfl⟩, rfl, rfl, rfl⟩, ⟨wayed_law .clear 0 0 false ⟨by decide, rfl⟩, rfl⟩,
    fun _ _ => ⟨wayed_law .warning 95 0 true ⟨by decide, by decide, rfl⟩, rfl, rfl, rfl, rfl⟩⟩

/-- A restart's adoption has come to path word `next`; way 3, which feeds destination 0, is about to be isolated. -/
def adoptingFed (next : Dest) : State :=
  wayed (adopting (lone up { blankRecord with intentSrc := .express 3, curSrc := .express 3, curAttn := 40#8 }) (.path next))
    .degraded 195 0 true

/-- The adoption has yet to build destination 0. -/
abbrev unbuiltFed : State := adoptingFed 0

theorem adoptingFed_table (next : Dest) : (adoptingFed next).tableLaw := by
  refine Lone.tableLaw (r := (adoptingFed next).record 0) (sl := none) ⟨record_of_set rfl,
    portless (fun p => by simp [adoptingFed, wayed, adopting, lone, up, State.reset]) fun p => ⟨nofun, nofun⟩,
    fun n => by simp [adoptingFed, wayed, adopting, lone, up, State.reset], rfl,
    .inr ⟨rfl, rfl, rfl, fun p => ⟨nofun, nofun⟩, rfl, nofun, rfl⟩, by simp [adoptingFed, wayed, adopting, lone, up, State.reset],
    by simp [adoptingFed, wayed, adopting, lone, up, State.reset], by intro d; split <;> rfl,
    by simp [adoptingFed, wayed, adopting, lone, up, State.reset], fun _ _ => rfl, nofun,
    ⟨⟨by decide, by decide⟩, ⟨by decide, by decide⟩⟩, nofun, rfl, nofun, rfl, nofun, nofun⟩

theorem witness_IsolationForcesDark :
    let s := wayed up .degraded 195 0 true
    (s.wayLaw ∧ s.tableLaw ∧ s.lm.checkTimer = true ∧ s.lm.evalAhead[(3 : Way)] = false ∧
      s.lm.ways[(3 : Way)].state = .degraded ∧ s.lm.ways[(3 : Way)].latch = true ∧ 195 ≤ s.lm.ways[(3 : Way)].counter) ∧
    (unbuiltFed.wayLaw ∧ unbuiltFed.tableLaw ∧ unbuiltFed.lm.ways[(3 : Way)].state = .degraded ∧
      (unbuiltFed.record 0).intentSrc.feed = some 3 ∧ unbuiltFed.isBuilt 0 = false) :=
  ⟨⟨wayed_law .degraded 195 0 true ⟨by decide, by decide, rfl⟩, wayed_table _ _ _ _, rfl, rfl, rfl, rfl, Nat.le_refl _⟩,
    wayed_law .degraded 195 0 true ⟨by decide, by decide, rfl⟩, adoptingFed_table 0, rfl, rfl, rfl⟩

theorem witness_IsolatedWayRecovers :
    let s := wayed up .isolated 200 149 false
    let t := wayed up .isolated 200 148 false
    let u := wayed up .isolated 200 0 true
    let manual := wayed { up with pu := { up.pu with params := { up.pu.params with manual := up.pu.params.manual.set 3 true } } }
      .isolated 200 149 false
    (s.wayLaw ∧ s.tableLaw ∧ s.lm.checkTimer = true ∧ s.lm.evalAhead[(3 : Way)] = false ∧ s.lm.ways[(3 : Way)].recovery = 149 ∧
      s.lm.ways[(3 : Way)].latch = false ∧ s.pu.params.manual[(3 : Way)] = false) ∧
    (t.wayLaw ∧ t.lm.ways[(3 : Way)].recovery < 149) ∧ (u.wayLaw ∧ u.lm.ways[(3 : Way)].latch = true) ∧
    manual.wayLaw ∧ manual.pu.params.manual[(3 : Way)] = true :=
  ⟨⟨wayed_law .isolated 200 149 false ⟨rfl, by decide⟩, wayed_table _ _ _ _, rfl, rfl, rfl, rfl, rfl⟩,
    ⟨wayed_law .isolated 200 148 false ⟨rfl, by decide⟩, by decide⟩, ⟨wayed_law .isolated 200 0 true ⟨rfl, by decide⟩, rfl⟩,
    wayed_law .isolated 200 149 false ⟨rfl, by decide⟩, rfl⟩

theorem witness_AwaitReleaseWaitsForTheHost :
    let s := wayed up .awaitRelease 200 150 false
    let t := wayed up .awaitRelease 200 150 true
    (s.wayLaw ∧ s.lm.checkTimer = true ∧ s.lm.evalAhead[(3 : Way)] = false ∧ s.lm.ways[(3 : Way)].latch = false) ∧
    (t.wayLaw ∧ t.lm.ways[(3 : Way)].latch = true) ∧
    (posted s 0x80C .four 3#32).commandToTake 3 = some (head 0x80C .four 3#32 .command) :=
  ⟨⟨wayed_law .awaitRelease 200 150 false ⟨rfl, rfl⟩, rfl, rfl, rfl⟩, ⟨wayed_law .awaitRelease 200 150 true ⟨rfl, rfl⟩, rfl⟩,
    by decide +kernel⟩

/-! ### The laws -/

/-- The running state with a tick at the front of its queue of commands. -/
def ticking : State := { up with pending := [.timebaseTick] }

theorem ticking_steps : ∃ t, step ticking = .next t := ⟨_, rfl⟩

theorem witness_NothingMovesBeforePreloadEnds : ({ State.reset with pending := [.hostRead 0#24 0xF#4] } : State).preloadLaw ∧
    ∃ t, step { State.reset with pending := [.hostRead 0#24 0xF#4] } = .next t := ⟨fun _ => rfl, _, rfl⟩

theorem witness_MemoryStaysCanonical : Memory.wf ticking.mem ∧ ∃ t, step ticking = .next t := ⟨by decide, ticking_steps⟩

/-- A full event queue. -/
def crammed : State :=
  { recorded up 0 with ew := { (recorded up 0).ew with
      queue := List.replicate 8
        { kind := .setSettled, reason := 0#8, subject := 7#16, detailA := 2#32, detailB := 0#32, stamp := 9#32 } } }

theorem witness_InterruptFollowsTheRing :
    let s := { ringed with pending := [.eventRecordGrant] }
    (s.preloadLaw ∧ s.ringLaw ∧ ∃ t, step s = .next t) ∧ s.ew.queue.length < 8 ∧ 8 ≤ crammed.ew.queue.length :=
  ⟨⟨fun h => absurd rfl h, ⟨by decide, by decide, by decide, by decide, by decide, by decide, by decide⟩, _, rfl⟩,
    by decide, by decide⟩

theorem ticking_load : ticking.loadLaw := by
  intro w
  have h : ∀ n, contribution (ticking.record (lineDest w n)) = 0 := by
    intro n; simp [ticking, State.record, up, State.reset, contribution, blankRecord]
  unfold State.carriedLoad
  simp only [h]
  simp [ticking, up, State.reset]

theorem witness_LoadsFollowTheCurrents : ticking.loadLaw ∧ ∃ t, step ticking = .next t := ⟨ticking_load, ticking_steps⟩

theorem witness_WaysKeepTheirRanges :
    let s := { wayed up .isolated 200 149 false with pending := [.wayEvaluation 3] }
    s.wayLaw ∧ ∃ t, step s = .next t := ⟨wayed_law .isolated 200 149 false ⟨rfl, by decide⟩, _, rfl⟩

theorem witness_ReadsStayBehindWrites :
    let s := { latched up (.issued []) with pending := [.ctlReadGrant] }
    s.readLaw ∧ ∃ t, step s = .next t := by
  refine ⟨⟨by simp [latched, up, State.reset], by simp [latched, up, State.reset], ?_, ?_, fun _ _ _ _ _ => rfl, by simp [latched, up, State.reset]⟩, _, rfl⟩
  · intro i r h b hb
    fin_cases i
    · cases h
    · cases h
      cases hb
      decide
  · intro i r h _ b hb
    exact ⟨by simp [latched, up, State.reset], by simp [latched, up, State.reset]⟩

theorem witness_ExchangeListStaysInBounds :
    let s := { listed up { origin := .controller, plan := 7 } with pending := [.exchangeStart] }
    s.preloadLaw ∧ s.exchangeLaw ∧ ∃ t, step s = .next t := by
  refine ⟨fun h => absurd rfl h, ⟨by decide, ?_, ?_, by decide⟩, _, rfl⟩
  · intro r hr w hw
    rw [List.mem_singleton.1 hr] at hw
    cases hw
  · intro b r a h _
    have := congrArg List.length h
    simp [listed] at this
    exact List.length_eq_zero_iff.1 (by omega)

theorem witness_TableLawsAreKept :
    let s := { ramping 40#8 true .dimming dark with pending := [.wayPass 0] }
    s.preloadLaw ∧ s.tableLaw ∧ (∃ t, step s = .next t) ∧ s.pu.adoption = none := by
  refine ⟨fun h => absurd rfl h, ?_, ⟨_, rfl⟩, rfl⟩
  have h := ramping_table 40#8 (by decide)
  exact ⟨h.openDests, h.openBound, h.sets, h.setBound, h.marks, h.settling, h.settlingIds, h.exclusive, h.masking, h.swapWord, h.intents, h.currents, h.darkNone, h.claimants, h.holders, h.drops,
    fun n sl hs => ⟨(h.slots n sl hs).line, (h.slots n sl hs).names, (h.slots n sl hs).dims, (h.slots n sl hs).brightens,
      (h.slots n sl hs).serves, (h.slots n sl hs).waiting, (h.slots n sl hs).toTarget, (h.slots n sl hs).toDark⟩, h.slotNames, h.list, h.adopting, h.rebuilt, h.wanted, h.unbuilt, h.forcedFlag, h.forcedRest⟩

/-- The laws hold as well in an adoption that has built a record with light on it. -/
theorem witness_TableLawsAreKept_adopting :
    (adoptingFed 1).preloadLaw ∧ (adoptingFed 1).tableLaw ∧ (adoptingFed 1).isBuilt 0 = true ∧
      ((adoptingFed 1).record 0).curSrc = .express 3 :=
  ⟨fun h => absurd rfl h, adoptingFed_table 1, rfl, rfl⟩

/-- Adoption done on an empty table: every destination but 0 is still to be written, with the tick at the queue's front. -/
def adopted : State :=
  { ticking with
    mem := [(0, 0xFF#8)], masks := Vector.replicate 12 (some 0#32)
    dt := { ticking.dt with
      records := Vector.replicate 432 (some blankRecord)
      updates := (List.finRange 431).map fun d => { dest := d.succ, tag := none } } }

theorem adopted_record (d : Dest) : adopted.record d = blankRecord := by simp [adopted, State.record]

theorem adopted_mask (m : Fin 12) : adopted.masks[m] = some 0#32 := by simp [adopted]

theorem adopted_table : adopted.tableLaw := by
  refine (Lone.blank adopted_record ?_ ?_ rfl rfl rfl rfl rfl ?_ ?_).tableLaw
  · intro p; simp [adopted, ticking, up, State.reset]
  · intro n; simp [adopted, ticking, up, State.reset]
  · exact fun _ _ => rfl
  · exact nofun

theorem adopted_words : ∀ m : Fin 12, adopted.loadWord (0x700 + 4 * m.val) = 0#32 := by decide +kernel

theorem adopted_masks : adopted.maskLaw where
  present := fun _ _ => ⟨fun m => by rw [adopted_mask]; rfl, fun d => by simp [adopted]⟩
  rebuilt := nofun
  flags := fun d _ _ => ⟨by rw [adopted_mask]; rfl, fun _ => by
    have h : adopted.maskWord (maskWordOf d) = 0#32 := by rw [State.maskWord, adopted_mask]; rfl
    simp [adopted_record, blankRecord, State.maskBit, h]⟩
  words := fun m w h _ => by
    rw [adopted_mask] at h
    cases h
    exact adopted_words m
  masking := nofun

/-- The image of an adopted table stands, whatever the CBP and the EW hold. -/
theorem adopted_image (d : Dest) (h : d ∉ adopted.dt.updates.map UpdateEntry.dest) :
    adopted.loadWord (pathOffset d) = adopted.currentWord d := by
  by_cases hd : d = 0
  · subst hd; decide +kernel
  · obtain ⟨i, rfl⟩ := Fin.exists_succ_eq.2 hd
    exact absurd (by simp [adopted]) h

theorem adopted_listed : (adopted.dt.updates.map UpdateEntry.dest).Nodup := by
  have : (adopted.dt.updates.map UpdateEntry.dest) = (List.finRange 431).map Fin.succ := by simp [adopted, Function.comp_def]
  rw [this]
  exact (List.nodup_finRange 431).map (Fin.succ_injective 431)

theorem witness_MemoryFollowsTheTable :
    adopted.preloadLaw ∧ Memory.wf adopted.mem ∧ adopted.tableLaw ∧ adopted.imageLaw ∧ ∃ t, step adopted = .next t :=
  ⟨fun h => absurd rfl h, by decide, adopted_table,
    ⟨fun d _ => adopted_image d, adopted_listed, nofun, nofun, nofun, fun h => absurd rfl h, nofun, nofun, adopted_masks⟩, _, rfl⟩

/-- The adopted table with an accepted CMD_RING_TAIL at the queue's head, its ring word still to be written, and the host's
write of plain memory at the front of the commands. -/
def adoptedRinging : State :=
  { adopted with
    pending := [.hostWrite 0x6C0#24 0xF#4 0#32]
    cbp := { (posted up 0x810 .four 0#32).cbp with head := .ringWord }
    ew := { up.ew with ringWordDue := true } }

theorem adoptedRinging_table : adoptedRinging.tableLaw := by
  refine (Lone.blank (s := adoptedRinging) (fun d => adopted_record d) ?_ ?_ rfl rfl rfl rfl rfl nofun nofun).tableLaw
  · intro p; simp [adoptedRinging, adopted, ticking, up, State.reset]
  · intro n; simp [adoptedRinging, adopted, ticking, up, State.reset]

theorem adoptedRinging_masks : adoptedRinging.maskLaw where
  present := adopted_masks.present
  rebuilt := nofun
  flags := fun d hd hl => ⟨(adopted_masks.flags d hd hl).1, fun _ => (adopted_masks.flags d hd hl).2 nofun⟩
  words := fun m w h _ => adopted_masks.words m w h nofun
  masking := nofun

/-- The laws hold as well where the head waits for the ring word: it stands in the queue, and a write that follows it there
does not take its place. -/
theorem witness_MemoryFollowsTheTable_ringWord :
    adoptedRinging.preloadLaw ∧ Memory.wf adoptedRinging.mem ∧ adoptedRinging.tableLaw ∧ adoptedRinging.imageLaw ∧
      adoptedRinging.cbp.head = .ringWord ∧ ∃ t, step adoptedRinging = .next t :=
  ⟨fun h => absurd rfl h, by decide, adoptedRinging_table,
    ⟨fun d _ => adopted_image d, adopted_listed, by intro h hq; cases List.mem_singleton.1 hq; exact ⟨by decide, by decide⟩,
      nofun, nofun, fun _ => by decide, by intro _ h rest hq; cases hq; decide, nofun, adoptedRinging_masks⟩, rfl, _, rfl⟩

theorem witness_FlaggedNeverBrightens :
    let s := ramping 40#8 true .dimming dark
    let t := after (.wayPass 0) s
    s.preloadLaw ∧ s.tableLaw ∧ exec (.wayPass 0) s = .next t ∧ (s.record 0).flagged ∧ (t.record 0).flagged ∧
      (s.record 0).curAttn.toNat < (t.record 0).curAttn.toNat := by
  refine ⟨fun h => absurd rfl h, ramping_table _ (by decide), rfl, .inl rfl, .inl ?_, ?_⟩ <;> decide +kernel

end Sys2Proof.Tests
end

/-! Path words: what the fields of a composed word are, how the fields of a word decode to a source, and which line of R13's
table gives the STATE code. -/

namespace Sys2Proof.Machine

/-! ### Fields of a word -/

theorem getLsbD_of_field_eq_zero {w : Word} {lo len i : Nat} (h : field w lo len = 0) (hlo : lo ≤ i)
    (hi : i < lo + len) : w.getLsbD i = false := by
  have hbit : (field w lo len).testBit (i - lo) = w.getLsbD i := by
    simp [field, Nat.testBit_mod_two_pow, Nat.testBit_div_two_pow, BitVec.getLsbD, show i - lo < len by omega,
      Nat.sub_add_cancel hlo]
  rw [← hbit, h, Nat.zero_testBit]

/-- LABEL, TRIAL, CLOSE and the unassigned bits of a path word are bits 31:24 and 19:18 (R154). -/
theorem pathMarkBit_position :
    ∀ i < 32, (0xFF0C0000#32).getLsbD i = true → 24 ≤ i ∧ i < 24 + 8 ∨ 18 ≤ i ∧ i < 18 + 2 := by decide

theorem pathMarks_eq_zero {w : Word} (hhigh : field w 24 8 = 0) (hmid : field w 18 2 = 0) :
    w &&& 0xFF0C0000#32 = 0#32 := by
  apply BitVec.eq_of_getLsbD_eq
  intro i hi
  rw [BitVec.getLsbD_and, BitVec.getLsbD_zero]
  cases hbit : (0xFF0C0000#32).getLsbD i with
  | false => exact Bool.and_false _
  | true =>
    obtain ⟨hlo, hup⟩ | ⟨hlo, hup⟩ := pathMarkBit_position i hi hbit
    · rw [getLsbD_of_field_eq_zero hhigh hlo hup, Bool.false_and]
    · rw [getLsbD_of_field_eq_zero hmid hlo hup, Bool.false_and]

/-! ### The fields of a composed word (R14) -/

theorem Source.srcCode_lt (src : Source) : src.srcCode < 8 := by
  cases src with
  | none => decide
  | express k => simp only [Source.srcCode]; omega
  | port p => simp only [Source.srcCode]; split <;> decide
  | drop k n => simp only [Source.srcCode]; omega

theorem Source.indexField_lt (src : Source) : src.indexField < 128 := by
  cases src with
  | none => decide
  | express k => exact Nat.zero_lt_succ _
  | port p => simp only [Source.indexField]; split <;> omega
  | drop k n => simp only [Source.indexField]; omega

section Composed
variable {code : Nat} (src : Source) (attn : Attn)

/-- With a STATE code of four bits no field runs into the next. -/
theorem composePath_toNat (hcode : code < 16) : (composePath src attn code).toNat =
    attn.toNat + src.srcCode * 2 ^ 8 + src.indexField * 2 ^ 11 + code * 2 ^ 20 := by
  have hattn : attn.toNat < 256 := attn.isLt
  have hsrc := src.srcCode_lt
  have hindex := src.indexField_lt
  rw [composePath, BitVec.toNat_ofNat]
  omega

/-- Bits 19:18 and 31:24 lie between and above the fields that are set. -/
theorem field_composePath (hcode : code < 16) :
    let w := composePath src attn code
    field w 0 8 = attn.toNat ∧ field w 8 3 = src.srcCode ∧ field w 11 7 = src.indexField ∧ field w 18 2 = 0 ∧
      field w 20 4 = code ∧ field w 24 8 = 0 := by
  have hattn : attn.toNat < 256 := attn.isLt
  have hsrc := src.srcCode_lt
  have hindex := src.indexField_lt
  simp only [field, composePath_toNat src attn hcode]
  omega

end Composed

/-! ### The source that the fields give (R25) -/

theorem lineSource_none {w : Word} (h : field w 8 3 = 0) : lineSource w = some .none := by simp only [lineSource, h]

theorem lineSource_express {w : Word} {k : Way} (h : field w 8 3 = 1 + k.val) : lineSource w = some (.express k) := by
  fin_cases k <;> simp only [lineSource, h] <;> rfl

/-- SRC 5 names the ports of AB0 and SRC 6 those of AB1, from port 24 on (R2). -/
theorem lineSource_port {w : Word} {p : Port} (hsrc : field w 8 3 = (Source.port p).srcCode)
    (hindex : field w 11 7 = (Source.port p).indexField) : lineSource w = some (.port p) := by
  by_cases hbank : p.val < 24
  · simp only [Source.srcCode, Source.indexField, if_pos hbank] at hsrc hindex
    simp [lineSource, hsrc, hindex, hbank]
  · simp only [Source.srcCode, Source.indexField, if_neg hbank] at hsrc hindex
    have hbound : field w 11 7 < 24 := by omega
    have hport : 24 + field w 11 7 = p.val := by omega
    simp [lineSource, hsrc, hbound, hport]

theorem dropWay_srcCode (k : Way) : dropWay (1 + k.val) = some k := by fin_cases k <;> rfl

theorem dropSource_none {w : Word} (h : field w 8 3 = 0) : dropSource w = some .none := by rw [dropSource, if_pos h]

theorem dropSource_drop {w : Word} {k : Way} {n : GridSlot} (hsrc : field w 8 3 = 1 + k.val)
    (hindex : field w 11 7 = n.val) : dropSource w = some (.drop k n) := by
  have hne : field w 8 3 ≠ 0 := by omega
  rw [dropSource, if_neg hne, hsrc, dropWay_srcCode]
  simp [hindex]

theorem pathSource_of_line {d : Dest} (h : isLine d = true) (w : Word) : pathSource d w = lineSource w := by
  rw [pathSource, if_pos h]

theorem pathSource_of_drop {d : Dest} (h : isLine d = false) (w : Word) : pathSource d w = dropSource w := by
  rw [pathSource, h]; rfl

/-- A word whose SRC and INDEX are those of a legal source decodes to it. -/
theorem pathSource_of_fields {d : Dest} {src : Source} {w : Word} (hlegal : legalSource d src)
    (hsrc : field w 8 3 = src.srcCode) (hindex : field w 11 7 = src.indexField) : pathSource d w = some src := by
  cases src with
  | none =>
    cases hline : isLine d with
    | true => rw [pathSource_of_line hline, lineSource_none hsrc]
    | false => rw [pathSource_of_drop hline, dropSource_none hsrc]
  | express k => rw [pathSource_of_line hlegal.1, lineSource_express hsrc]
  | port p => rw [pathSource_of_line hlegal, lineSource_port hsrc hindex]
  | drop k n => rw [pathSource_of_drop hlegal, dropSource_drop hsrc hindex]

theorem isUturn_of_legalSource {d : Dest} {src : Source} (hlegal : legalSource d src) : isUturn d src = false := by
  cases src with
  | express k =>
    obtain ⟨_, hway⟩ := hlegal
    simp [isUturn, hway]
  | none | port p | drop k n => simp [isUturn]

/-- What a word composed from a legal source decodes to (R14, R25, R154). -/
theorem composePath_decodes {d : Dest} {src : Source} {code : Nat} (attn : Attn) (hlegal : legalSource d src)
    (hcode : code < 16) :
    pathSource d (composePath src attn code) = some src ∧ pathAttn (composePath src attn code) = attn ∧
      field (composePath src attn code) 20 4 = code ∧ composePath src attn code &&& 0xFF0C0000#32 = 0#32 ∧
      field (composePath src attn code) 11 7 = src.indexField := by
  obtain ⟨hattn, hsrc, hindex, hmid, hstate, hhigh⟩ := field_composePath src attn hcode
  refine ⟨pathSource_of_fields hlegal hsrc hindex, ?_, hstate, pathMarks_eq_zero hhigh hmid, hindex⟩
  rw [pathAttn, hattn, BitVec.ofNat_toNat, BitVec.setWidth_eq]

/-! ### The STATE code (R13) -/

section StateCode
variable {s : State} {d : Dest}

/-- Line 1: a slot present gives its phase. -/
theorem State.stateCode_of_slot {n : SlotNo} {sl : RampSlot} (hslot : (s.record d).slot = some n)
    (hsl : s.re.slots[n] = some sl) : s.stateCode d = sl.phase.code := by
  rw [State.stateCode, State.slotPhase, hslot]
  simp only [hsl, Option.map_some]

/-- Lines 2 to 5, where no slot is present. -/
theorem State.stateCode_of_noSlot (hslot : (s.record d).slot = none) : s.stateCode d =
    if (s.record d).forced then 5
    else if 0 < (s.record d).queued then 1
    else if (s.record d).blocked = true ∧ (s.record d).curAttn = dark then 6
    else 0 := by
  rw [State.stateCode, State.slotPhase, hslot]

/-- A destination without slot and blocked flag, as every drop destination is, is FORCED_DARK, QUEUED or SETTLED. -/
theorem State.stateCode_of_unblocked (hslot : (s.record d).slot = none) (hblocked : (s.record d).blocked = false) :
    s.stateCode d = 5 ∨ s.stateCode d = 1 ∨ s.stateCode d = 0 := by
  rw [State.stateCode_of_noSlot hslot]
  by_cases hforced : (s.record d).forced = true
  · simp [hforced]
  · by_cases hqueued : 0 < (s.record d).queued
    · simp [hforced, hqueued]
    · simp [hforced, hqueued, hblocked]

theorem Phase.code_lt (ph : Phase) : ph.code < 16 := by cases ph <;> decide

theorem State.stateCode_lt (s : State) (d : Dest) : s.stateCode d < 16 := by
  unfold State.stateCode
  split
  · exact Phase.code_lt _
  · split_ifs <;> decide

end StateCode

/-- Settles O16: a composed word's fields stand apart, the fields of a legal source decode to it, and the STATE code goes
down R13's table line by line. -/
theorem pathWordRoundTrip : Obligations.PathWordRoundTrip := by
  unfold Obligations.PathWordRoundTrip
  refine ⟨fun d src attn code hlegal hcode => ?_, ⟨rfl, fun _ => rfl⟩, fun s d => ?_⟩
  · obtain ⟨hsource, hattn, hstate, hmarks, hindex⟩ := composePath_decodes attn hlegal hcode
    exact ⟨hsource, hattn, hstate, hmarks, hindex, isUturn_of_legalSource hlegal⟩
  · refine ⟨fun n sl hslot hsl => ?_, fun hslot hforced => ?_, fun hslot hforced hqueued => ?_,
      fun hslot hforced hqueued hblocked hdark => ?_, fun hslot hforced hqueued hlit => ?_,
      fun _ hslot hblocked => State.stateCode_of_unblocked hslot hblocked,
      fun hlegal => composePath_decodes _ hlegal (s.stateCode_lt d),
      fun hlegal => composePath_decodes _ hlegal (by decide)⟩
    · rw [State.stateCode_of_slot hslot hsl]
      cases sl.phase <;> rfl
    · rw [State.stateCode_of_noSlot hslot, if_pos hforced]
    · simp [State.stateCode_of_noSlot hslot, hforced, hqueued]
    · simp [State.stateCode_of_noSlot hslot, hforced, hqueued, hblocked, hdark]
    · simp only [State.stateCode_of_noSlot hslot, hforced, hqueued, if_neg hlit]
      rfl

end Sys2Proof.Machine

/-! Relative optical power: the 256 entries of the weight table against the law of R62, and cost as a distance between weights. -/

namespace Sys2Proof.Machine

/-! ### The table, entry by entry (R62) -/

/-- The entry w at k is floor(4096 x 10^(-k/100) + 1/2), which 2 w - 1 ≤ 8192 x 10^(-k/100) < 2 w + 1 says; the hundredth
powers of the three sides are integers once they are multiplied by 10^k, so each entry is checked without rounding. -/
theorem weightTable_nearest : ∀ k < 255, (2 * weightTable.getD k 0 - 1) ^ 100 * 10 ^ k ≤ 8192 ^ 100 ∧
    8192 ^ 100 < (2 * weightTable.getD k 0 + 1) ^ 100 * 10 ^ k := by
  decide +kernel

theorem weightTable_chain : weightTable.IsChain (fun w w' => w' ≤ w ∧ w - w' ≤ 93) := by
  decide +kernel

theorem weightTable_length : weightTable.length = 256 := by decide +kernel

/-! ### Weights of attenuations -/

theorem toNat_lt_of_ne_dark {a : Attn} (h : a ≠ dark) : a.toNat < 255 := by bv_omega

theorem toNat_succ_of_ne_dark {a : Attn} (h : a ≠ dark) : (a + 1#8).toNat = a.toNat + 1 := by bv_omega

theorem weight_eq_getElem {a : Attn} {k : Nat} (hk : k < weightTable.length) (ha : a.toNat = k) :
    weight a = weightTable[k] := by
  rw [weight, ha, List.getD_eq_getElem _ _ hk]

/-- The next attenuation's weight is the next entry of the table, that of 255 included. -/
theorem weight_succ {a : Attn} (h : a ≠ dark) : weight (a + 1#8) ≤ weight a ∧ weight a - weight (a + 1#8) ≤ 93 := by
  have hsucc : a.toNat + 1 < weightTable.length := weightTable_length ▸ Nat.succ_lt_succ (toNat_lt_of_ne_dark h)
  rw [weight_eq_getElem (Nat.lt_of_succ_lt hsucc) rfl, weight_eq_getElem hsucc (toNat_succ_of_ne_dark h)]
  exact weightTable_chain.getElem a.toNat hsucc

/-! ### Cost -/

theorem cost_comm (a b : Attn) : cost a b = cost b a := Nat.add_comm _ _

/-- One of the two truncated differences is 0 and the other is the distance. -/
theorem cost_eq_abs (a b : Attn) : (cost a b : Int) = |(weight b : Int) - (weight a : Int)| := by
  unfold cost
  rcases Nat.le_total (weight a) (weight b) with h | h
  · rw [Nat.sub_eq_zero_of_le h, Nat.add_zero, Nat.cast_sub h, abs_of_nonneg (by omega)]
  · rw [Nat.sub_eq_zero_of_le h, Nat.zero_add, Nat.cast_sub h, abs_of_nonpos (by omega), neg_sub]

/-- Settles O44: the table's entries meet the law one by one, its neighbours are a chain that falls by at most 93, and cost
is the distance between two weights. -/
theorem weightsAreNearest : Obligations.WeightsAreNearest := by
  unfold Obligations.WeightsAreNearest
  exact ⟨fun a h => weightTable_nearest a.toNat (toNat_lt_of_ne_dark h), rfl, rfl, fun _ h => weight_succ h, rfl,
    fun a b => ⟨cost_comm a b, cost_eq_abs a b⟩⟩

end Sys2Proof.Machine

/-! Mask words: which bit of a word its bytes give, what bytes put in at a position leave and change, and what each view makes
of a mask word bit by bit. -/

namespace Sys2Proof.Machine

/-! ### The bits of a word made of bytes (section 6.3) -/

theorem wordBytes_length (w : Word) : (wordBytes w).length = 4 := rfl

theorem wordBytes_getD (w : Word) {i : Nat} (hi : i < 4) : (wordBytes w).getD i 0#8 = byteAt w i := by
  interval_cases i <;> rfl

/-- Byte n / 8 carries bit n, at its own bit n % 8; past the last byte every bit is 0. -/
theorem testBit_foldr_bytes (bytes : List Byte) (n : Nat) :
    (bytes.foldr (fun (b : Byte) acc => b.toNat + 256 * acc) 0).testBit n = (bytes.getD (n / 8) 0#8).getLsbD (n % 8) := by
  induction bytes generalizing n with
  | nil => simp
  | cons b rest ih =>
    have hsum (acc : Nat) : b.toNat + 256 * acc = 2 ^ 8 * acc + b.toNat := Nat.add_comm _ _
    rw [List.foldr_cons, hsum, Nat.testBit_two_pow_mul_add _ b.isLt]
    split
    · next hlow => rw [Nat.div_eq_of_lt hlow, Nat.mod_eq_of_lt hlow]; rfl
    · next hhigh =>
      have hdiv : n / 8 = (n - 8) / 8 + 1 := by omega
      have hmod : n % 8 = (n - 8) % 8 := by omega
      rw [ih, hdiv, hmod, List.getD_cons_succ]

theorem getLsbD_wordOfBytes (bytes : List Byte) {b : Nat} (hb : b < 32) :
    (wordOfBytes bytes).getLsbD b = (bytes.getD (b / 8) 0#8).getLsbD (b % 8) := by
  rw [wordOfBytes, BitVec.getLsbD_ofNat, testBit_foldr_bytes, decide_eq_true hb, Bool.true_and]

/-! ### Bytes put in at a position (R24, R85) -/

section Merge
variable {α : Type} (l new : List α) (pos : Nat) (default : α)

/-- The list written stands where it was put in. -/
theorem getD_put_inside {i : Nat} (hpos : pos ≤ l.length) (hlo : pos ≤ i) (hup : i < pos + new.length) :
    (l.take pos ++ new ++ l.drop (pos + new.length)).getD i default = new.getD (i - pos) default := by
  have htake : (l.take pos).length = pos := List.length_take_of_le hpos
  rw [List.append_assoc, List.getD_append_right _ _ _ _ (by omega), htake, List.getD_append _ _ _ _ (by omega)]

/-- Before it and behind it stands what stood there. -/
theorem getD_put_outside {i : Nat} (hpos : pos ≤ l.length) (hout : ¬ (pos ≤ i ∧ i < pos + new.length)) :
    (l.take pos ++ new ++ l.drop (pos + new.length)).getD i default = l.getD i default := by
  have htake : (l.take pos).length = pos := List.length_take_of_le hpos
  rcases Nat.lt_or_ge i pos with hlo | hlo
  · rw [List.append_assoc, List.getD_append _ _ _ _ (by omega), List.getD_eq_getElem?_getD, List.getElem?_take_of_lt hlo,
      List.getD_eq_getElem?_getD]
  · have hfront : (l.take pos ++ new).length = pos + new.length := by rw [List.length_append, htake]
    have hback : pos + new.length + (i - (pos + new.length)) = i := by omega
    rw [List.getD_append_right _ _ _ _ (by omega), hfront, List.getD_eq_getElem?_getD, List.getElem?_drop, hback,
      List.getD_eq_getElem?_getD]

end Merge

section Bits
variable (base : Word) {pos b : Nat} (bytes : List Byte)

theorem getLsbD_mergeBytes_inside (hb : b < 32) (hlo : pos ≤ b / 8) (hup : b / 8 < pos + bytes.length) :
    (mergeBytes base pos bytes).getLsbD b = (bytes.getD (b / 8 - pos) 0#8).getLsbD (b % 8) := by
  have hpos : pos ≤ (wordBytes base).length := by rw [wordBytes_length]; omega
  rw [mergeBytes, getLsbD_wordOfBytes _ hb, getD_put_inside _ _ _ _ hpos hlo hup]

theorem getLsbD_mergeBytes_outside (hb : b < 32) (hpos : pos ≤ 4) (hout : ¬ (pos ≤ b / 8 ∧ b / 8 < pos + bytes.length)) :
    (mergeBytes base pos bytes).getLsbD b = base.getLsbD b := by
  rw [mergeBytes, getLsbD_wordOfBytes _ hb, getD_put_outside _ _ _ _ hpos hout, ← getLsbD_wordOfBytes _ hb,
    wordOfBytes_wordBytes]

end Bits

/-! ### The bits that a posted write writes (R124) -/

/-- Bit `b` of the write's word lies in one of the bytes written. -/
def PostedWrite.writesBit (h : PostedWrite) (b : Nat) : Prop := h.position ≤ b / 8 ∧ b / 8 < h.position + h.size.bytes

/-- The write writes a 1 at bit `b` of its word. -/
def PostedWrite.writesOne (h : PostedWrite) (b : Nat) : Prop :=
  h.writesBit b ∧ (byteAt h.data (b / 8 - h.position)).getLsbD (b % 8) = true

theorem Size.bytes_le (size : Size) : size.bytes ≤ 4 := by cases size <;> decide

theorem PostedWrite.position_le (h : PostedWrite) : h.position ≤ 4 := (Nat.mod_lt _ (by decide)).le

theorem PostedWrite.bytes_length (h : PostedWrite) : h.bytes.length = h.size.bytes :=
  List.length_take_of_le h.size.bytes_le

theorem PostedWrite.bytes_getD (h : PostedWrite) {i : Nat} (hi : i < h.size.bytes) : h.bytes.getD i 0#8 = byteAt h.data i := by
  rw [PostedWrite.bytes, postedBytes, List.getD_eq_getElem?_getD, List.getElem?_take_of_lt hi, ← List.getD_eq_getElem?_getD,
    wordBytes_getD _ (hi.trans_le h.size.bytes_le)]

section Written
variable {h : PostedWrite} {b : Nat}

theorem PostedWrite.getLsbD_merge_of_writesBit (base : Word) (hb : b < 32) (hin : h.writesBit b) :
    (mergeBytes base h.position h.bytes).getLsbD b = (byteAt h.data (b / 8 - h.position)).getLsbD (b % 8) := by
  obtain ⟨hlo, hup⟩ := hin
  rw [getLsbD_mergeBytes_inside base h.bytes hb hlo (h.bytes_length ▸ hup), h.bytes_getD (by omega)]

theorem PostedWrite.getLsbD_merge_of_not_writesBit (base : Word) (hb : b < 32) (hout : ¬ h.writesBit b) :
    (mergeBytes base h.position h.bytes).getLsbD b = base.getLsbD b :=
  getLsbD_mergeBytes_outside base h.bytes hb h.position_le (h.bytes_length ▸ hout)

/-- The value in place is 1 exactly at the bits at which the write writes a 1 (R86, R129). -/
theorem PostedWrite.getLsbD_valueInPlace_iff (hb : b < 32) : h.valueInPlace.getLsbD b = true ↔ h.writesOne b := by
  rw [PostedWrite.valueInPlace, bytesInPlace, PostedWrite.writesOne]
  by_cases hin : h.writesBit b
  · rw [h.getLsbD_merge_of_writesBit _ hb hin, and_iff_right hin]
  · rw [h.getLsbD_merge_of_not_writesBit _ hb hin, BitVec.getLsbD_zero]
    exact iff_of_false Bool.false_ne_true fun hone => hin hone.1

/-! ### The views, bit by bit (R85, R86) -/

variable (old : Word)

theorem maskWrite_direct_inside (hb : b < 32) (hin : h.writesBit b) :
    (maskWrite .direct old h.position h.bytes).getLsbD b = true ↔ h.writesOne b := by
  rw [maskWrite, h.getLsbD_merge_of_writesBit old hb hin, PostedWrite.writesOne, and_iff_right hin]

theorem maskWrite_direct_outside (hb : b < 32) (hout : ¬ h.writesBit b) :
    (maskWrite .direct old h.position h.bytes).getLsbD b = old.getLsbD b :=
  h.getLsbD_merge_of_not_writesBit old hb hout

theorem maskWrite_setOnes_iff (hb : b < 32) :
    (maskWrite .setOnes old h.position h.bytes).getLsbD b = true ↔ old.getLsbD b = true ∨ h.writesOne b := by
  rw [← h.getLsbD_valueInPlace_iff hb, ← Bool.or_eq_true, ← BitVec.getLsbD_or]
  rfl

theorem maskWrite_clearOnes_iff (hb : b < 32) :
    (maskWrite .clearOnes old h.position h.bytes).getLsbD b = true ↔ old.getLsbD b = true ∧ ¬ h.writesOne b := by
  have hbit : (maskWrite .clearOnes old h.position h.bytes).getLsbD b = (old.getLsbD b && !h.valueInPlace.getLsbD b) := by
    rw [maskWrite, BitVec.getLsbD_and, BitVec.getLsbD_not, decide_eq_true hb, Bool.true_and]
    rfl
  rw [hbit, ← h.getLsbD_valueInPlace_iff hb, Bool.and_eq_true, Bool.not_eq_true', Bool.not_eq_true]

theorem maskWrite_toggleOnes_of_one (hb : b < 32) (hone : h.writesOne b) :
    (maskWrite .toggleOnes old h.position h.bytes).getLsbD b = !old.getLsbD b := by
  have hbit : h.valueInPlace.getLsbD b = true := (h.getLsbD_valueInPlace_iff hb).2 hone
  rw [maskWrite, BitVec.getLsbD_xor, ← PostedWrite.valueInPlace, hbit, Bool.xor_true]

theorem maskWrite_toggleOnes_of_not_one (hb : b < 32) (hone : ¬ h.writesOne b) :
    (maskWrite .toggleOnes old h.position h.bytes).getLsbD b = old.getLsbD b := by
  have hbit : h.valueInPlace.getLsbD b = false := Bool.eq_false_iff.2 (mt (h.getLsbD_valueInPlace_iff hb).1 hone)
  rw [maskWrite, BitVec.getLsbD_xor, ← PostedWrite.valueInPlace, hbit, Bool.xor_false]

end Written

/-! ### The MU's words after the step (R87) -/

/-- A blocked-flag request leaves every mask word as it is (R6, R87). -/
@[simp] theorem State.blockNext_masks (s : State) (tag : Nat) (m : Fin 12) (todo : List (Fin 32)) :
    (s.blockNext tag m todo).masks = s.masks := by
  cases todo with
  | nil => rfl
  | cons b rest =>
    obtain ⟨u, -, hkeep, hnext⟩ := s.blockNext_spec tag m b rest
    rw [hnext]
    exact hkeep.masks

/-- A waiting head in a mask view is taken by the MU (R127). -/
theorem maskViewWriteStep_taken {s : State} {h : PostedWrite} {view : MaskView} (hh : s.headToTake = some h)
    (hz : h.zone = .mask view) :
    maskViewWriteStep s = s.takeMaskWrite h view := by
  obtain ⟨hwaiting, -, -⟩ := State.headToTake_spec hh
  simp only [maskViewWriteStep, hwaiting, hh, hz]

theorem State.takeMaskWrite_masks {s : State} {h : PostedWrite} {view : MaskView} {m : Fin 12}
    (hm : maskIndex view (offsetOf h.addr) = some m) :
    (s.takeMaskWrite h view).masks = s.masks.set m (some (maskWrite view (s.maskWord m) h.position h.bytes)) := by
  simp only [State.takeMaskWrite, hm, State.blockNext_masks, State.setMask_masks]

/-- Settles O17: the step leaves one mask word replaced, and each view acts on it bit by bit. -/
theorem maskViewsChangeTheWord : Obligations.MaskViewsChangeTheWord := by
  unfold Obligations.MaskViewsChangeTheWord
  intro s h view m hh hz hm _
  have hmasks : (maskViewWriteStep s).masks = s.masks.set m (some (maskWrite view (s.maskWord m) h.position h.bytes)) := by
    rw [maskViewWriteStep_taken hh hz, State.takeMaskWrite_masks hm]
  have hat : (maskViewWriteStep s).masks[m] = some (maskWrite view (s.maskWord m) h.position h.bytes) := by
    rw [hmasks]
    exact Vector.getElem_set_self m.isLt
  have hword : (maskViewWriteStep s).maskWord m = maskWrite view (s.maskWord m) h.position h.bytes := by
    rw [State.maskWord, hat, Option.getD_some]
  refine ⟨maskViewWriteStep s, rfl, fun n hn => ?_, by rw [hat]; rfl, fun b hb => ?_⟩
  · rw [hmasks]
    exact Vector.getElem_set_ne m.isLt n.isLt fun he => hn (Fin.ext he.symm)
  · dsimp only
    rw [hword]
    exact ⟨fun hv => hv ▸ maskWrite_direct_inside _ hb, fun hv => hv ▸ maskWrite_direct_outside _ hb,
      fun hv => hv ▸ maskWrite_setOnes_iff _ hb, fun hv => hv ▸ maskWrite_clearOnes_iff _ hb,
      fun hv => hv ▸ ⟨maskWrite_toggleOnes_of_one _ hb, maskWrite_toggleOnes_of_not_one _ hb⟩⟩

end Sys2Proof.Machine

/-! The commands as one function on states: every command answers a next state, and a law that every command keeps is kept by
every step. -/

namespace Sys2Proof.Machine

/-- The next state that a command gives. -/
def commandStep : Instr → State → State
  | .resetAssert u => resetAssertStep u
  | .resetRelease winsel lockout romen => resetReleaseStep winsel lockout romen
  | .preloadEnd image => preloadEndStep image
  | .timebaseTick => timebaseTickStep
  | .hostWrite addr enables data => hostWriteStep addr enables data
  | .hostRead addr enables => hostReadStep addr enables
  | .delayedReadIssue slot => delayedReadIssueStep slot
  | .discardTimerExpiry slot => discardTimerExpiryStep slot
  | .pathWrite => pathWriteStep
  | .maskViewWrite => maskViewWriteStep
  | .writeThrough => writeThroughStep
  | .planHeaderWrite => planHeaderWriteStep
  | .statusZoneWrite => statusZoneWriteStep
  | .narrowCommandWrite => narrowCommandWriteStep
  | .cmdUnlock => cmdUnlockStep
  | .cmdAbortSet => cmdAbortSetStep
  | .cmdExchange => cmdExchangeStep
  | .cmdRelease => cmdReleaseStep
  | .cmdRingTail => cmdRingTailStep
  | .cmdRestart => cmdRestartStep
  | .ctlWriteGrant => ctlWriteGrantStep
  | .ctlReadGrant => ctlReadGrantStep
  | .tblGrant => tblGrantStep
  | .rampTickExpiry => rampTickExpiryStep
  | .wayPass w => wayPassStep w
  | .arbiterOccasion => arbiterOccasionStep
  | .checkIntervalExpiry => checkIntervalExpiryStep
  | .losChange w level => losChangeStep w level
  | .wayEvaluation w => wayEvaluationStep w
  | .exchangeStart => exchangeStartStep
  | .exchangeAccessGrant => exchangeAccessGrantStep
  | .exchangeSwap => exchangeSwapStep
  | .adoptionStart => adoptionStartStep
  | .adoptionAccessGrant => adoptionAccessGrantStep
  | .eventRecordGrant => eventRecordGrantStep
  | .ringWordGrant => ringWordGrantStep
  | .statusZoneGrant => statusZoneGrantStep

theorem exec_eq_commandStep (c : Instr) (s : State) : exec c s = .next (commandStep c s) := by cases c <;> rfl

/-- Settles O1: by the two branches of `step`. -/
theorem stepRunsFrontCommand : Obligations.StepRunsFrontCommand := by
  unfold Obligations.StepRunsFrontCommand
  refine ⟨fun c rest s h => ?_, fun s h => ?_⟩
  · rw [step, h]
  · rw [step, h]

/-- What a step can do: idle, or run the front command on the state with the queue's rest. -/
theorem step_cases {s t : State} (h : step s = .next t) :
    t = s ∨ ∃ c rest, s.pending = c :: rest ∧ t = commandStep c { s with pending := rest } := by
  obtain ⟨hrun, hidle⟩ := stepRunsFrontCommand
  cases hp : s.pending with
  | nil =>
    rw [hidle s hp] at h
    exact .inl (Host.Outcome.next.inj h).symm
  | cons c rest =>
    rw [hrun c rest s hp, exec_eq_commandStep] at h
    exact .inr ⟨c, rest, rfl, (Host.Outcome.next.inj h).symm⟩

/-- A law that does not speak of the queue of commands and that every command keeps is kept by every step. -/
theorem step_keeps {P : State → Prop} (hpending : ∀ s rest, P s → P { s with pending := rest })
    (hcommand : ∀ c s, P s → P (commandStep c s)) {s t : State} (hs : P s) (h : step s = .next t) : P t := by
  obtain rfl | ⟨c, rest, -, rfl⟩ := step_cases h
  · exact hs
  · exact hcommand c _ (hpending s rest hs)

end Sys2Proof.Machine

/-! What every operation of a request on the table keeps, said once: all but the records, the port map, the slots with their
list and the loads, the listed sets, and the records raised; and the load law. -/

namespace Sys2Proof.Machine

/-! ### Records raised (R138) -/

theorem State.onlyRaises.refl (s : State) : s.onlyRaises s := ⟨rfl, List.prefix_rfl, Nat.le_refl _⟩

theorem State.onlyRaises.trans {s t u : State} (h : s.onlyRaises t) (k : t.onlyRaises u) : s.onlyRaises u :=
  ⟨by rw [k.writer, h.writer], h.queue.trans k.queue, h.dropped.trans k.dropped⟩

/-- Records have been raised at most, and the event queue and the dropped count keep their bounds. -/
structure State.raises (s t : State) : Prop extends s.onlyRaises t where
  queueBound : s.ew.queue.length ≤ 8 → t.ew.queue.length ≤ 8
  droppedBound : s.ew.dropped ≤ 65535 → t.ew.dropped ≤ 65535

theorem State.raises_of_ew {s t : State} (h : t.ew = s.ew) : s.raises t :=
  ⟨⟨by rw [h], by rw [h], by rw [h]⟩, by rw [h]; exact id, by rw [h]; exact id⟩

theorem State.raises.refl (s : State) : s.raises s := State.raises_of_ew rfl

theorem State.raises.trans {s t u : State} (h : s.raises t) (k : t.raises u) : s.raises u :=
  ⟨h.toonlyRaises.trans k.toonlyRaises, k.queueBound ∘ h.queueBound, k.droppedBound ∘ h.droppedBound⟩

theorem State.emit_raises (s : State) (kind : RecordKind) (reason : Nat) (subject : BitVec 16) (a b : Word) :
    s.raises (s.emit kind reason subject a b) := by
  refine ⟨s.emit_onlyRaises kind reason subject a b, fun hq => ?_, fun hd => ?_⟩
  · obtain ⟨hroom, he⟩ | ⟨_, he⟩ := s.emit_spec kind reason subject a b <;> rw [he]
    · rw [List.length_append]
      exact hroom
    · exact hq
  · obtain ⟨_, he⟩ | ⟨_, he⟩ := s.emit_spec kind reason subject a b <;> rw [he]
    · exact hd
    · exact countDropped_le hd

/-- Raising a record reads nothing but the event writer. -/
theorem State.emit_ew_congr {s t : State} (h : t.ew = s.ew) (kind : RecordKind) (reason : Nat) (subject : BitVec 16)
    (a b : Word) : (t.emit kind reason subject a b).ew = (s.emit kind reason subject a b).ew := by
  simp only [State.emit, h]
  split <;> rfl

theorem State.emit_eq (s : State) (kind : RecordKind) (reason : Nat) (subject : BitVec 16) (a b : Word) :
    s.emit kind reason subject a b = { s with ew := (s.emit kind reason subject a b).ew } := by
  unfold State.emit
  split <;> rfl

/-! ### The way loads (R63) -/

theorem State.carriedLoad_eq_sum (s : State) (w : Way) :
    s.carriedLoad w = ∑ n : GridSlot, contribution (s.record (lineDest w n)) := by
  rw [State.carriedLoad, Fin.sum_univ_def]

/-- Records with the same currents carry the same loads. -/
theorem State.loadLaw_of_currents {s t : State} (hloads : t.re.loads = s.re.loads)
    (hcur : ∀ d, (t.record d).curSrc = (s.record d).curSrc ∧ (t.record d).curAttn = (s.record d).curAttn)
    (hs : s.loadLaw) : t.loadLaw := by
  intro w
  have hcarried : t.carriedLoad w = s.carriedLoad w := by
    simp only [State.carriedLoad, contribution, hcur]
  rw [hcarried, hloads, hs w]

theorem State.loadLaw_of_records {s t : State} (hloads : t.re.loads = s.re.loads) (hrec : t.dt.records = s.dt.records) :
    s.loadLaw → t.loadLaw :=
  State.loadLaw_of_currents hloads fun d => by rw [State.record_congr hrec d]; exact ⟨rfl, rfl⟩

/-- The grid slot of a line destination (R1). -/
def gridSlotOf (d : Dest) : GridSlot := ⟨d.val % 96, Nat.mod_lt _ (by decide)⟩

theorem lineDest_eq_iff {d : Dest} (hline : isLine d = true) (w : Way) (n : GridSlot) :
    lineDest w n = d ↔ w = wayOf d ∧ n = gridSlotOf d := by
  have hd : d.val < 384 := of_decide_eq_true hline
  simp only [lineDest, wayOf, gridSlotOf, Fin.ext_iff]
  omega

theorem isLine_lineDest (w : Way) (n : GridSlot) : isLine (lineDest w n) = true := by
  exact decide_eq_true (by simp only [lineDest]; omega)

/-- With one line destination's record replaced its way's sum changes by the two contributions. -/
theorem State.carriedLoad_replace {s t : State} {d : Dest} (hline : isLine d = true)
    (hother : ∀ e, e ≠ d → t.record e = s.record e) :
    t.carriedLoad (wayOf d) + contribution (s.record d) = s.carriedLoad (wayOf d) + contribution (t.record d) := by
  have hd : lineDest (wayOf d) (gridSlotOf d) = d := (lineDest_eq_iff hline _ _).2 ⟨rfl, rfl⟩
  have hrest : ∑ n ∈ Finset.univ.erase (gridSlotOf d), contribution (t.record (lineDest (wayOf d) n)) =
      ∑ n ∈ Finset.univ.erase (gridSlotOf d), contribution (s.record (lineDest (wayOf d) n)) :=
    Finset.sum_congr rfl fun n hn => by
      have hne : n ≠ gridSlotOf d := (Finset.mem_erase.1 hn).1
      rw [hother _ fun h => hne ((lineDest_eq_iff hline _ _).1 h).2]
  have hs := Finset.add_sum_erase Finset.univ (fun n => contribution (s.record (lineDest (wayOf d) n)))
    (Finset.mem_univ (gridSlotOf d))
  have ht := Finset.add_sum_erase Finset.univ (fun n => contribution (t.record (lineDest (wayOf d) n)))
    (Finset.mem_univ (gridSlotOf d))
  simp only [hd] at hs ht
  rw [State.carriedLoad_eq_sum, State.carriedLoad_eq_sum]
  omega

theorem State.carriedLoad_elsewhere {s t : State} {d : Dest} {w : Way} (hw : isLine d = true → w ≠ wayOf d)
    (hother : ∀ e, e ≠ d → t.record e = s.record e) : t.carriedLoad w = s.carriedLoad w := by
  rw [State.carriedLoad, State.carriedLoad]
  congr 1
  refine List.map_congr_left fun n _ => ?_
  rw [hother]
  intro h
  have hline : isLine d = true := h ▸ isLine_lineDest w n
  exact hw hline ((lineDest_eq_iff hline w n).1 h).1

/-- A load report after a record is replaced keeps the load law. -/
theorem State.reportLoad_loadLaw {s : State} {d : Dest} {r : DestRecord} (h : s.loadLaw) :
    ((s.setRecord d r).reportLoad d (s.record d) r).loadLaw := by
  have hrec : ∀ e, ((s.setRecord d r).reportLoad d (s.record d) r).record e = (s.setRecord d r).record e :=
    State.record_congr (by rw [State.reportLoad_dt])
  have hself := (hrec d).trans (State.record_setRecord_same s d r)
  have hother : ∀ e, e ≠ d → ((s.setRecord d r).reportLoad d (s.record d) r).record e = s.record e :=
    fun e he => (hrec e).trans (State.record_setRecord_other s r he)
  intro w
  by_cases hw : isLine d = true ∧ w = wayOf d
  · obtain ⟨hline, rfl⟩ := hw
    have hsum := State.carriedLoad_replace hline hother
    have hload : ((s.setRecord d r).reportLoad d (s.record d) r).re.loads[wayOf d] =
        s.carriedLoad (wayOf d) - contribution (s.record d) + contribution r := by
      rw [← h]
      simp [State.reportLoad, hline]
    have hle : contribution (s.record d) ≤ s.carriedLoad (wayOf d) := by
      rw [State.carriedLoad_eq_sum]
      refine le_trans (le_of_eq ?_) (Finset.single_le_sum (fun _ _ => Nat.zero_le _) (Finset.mem_univ (gridSlotOf d)))
      rw [(lineDest_eq_iff hline _ _).2 ⟨rfl, rfl⟩]
    rw [hself] at hsum
    omega
  · rw [State.carriedLoad_elsewhere (fun hline => fun he => hw ⟨hline, he⟩) hother, ← h]
    unfold State.reportLoad
    split
    · next hline =>
      have hne : (wayOf d).val ≠ w.val := fun he => hw ⟨hline, (Fin.ext he).symm⟩
      simp [hne]
    · simp

/-! ### The frame of a request on the table -/

/-- What every operation of a request keeps: of the table it changes the records and the port map, of the ramp engine the
slots, their list and the loads; beside the change sets it raises records at most; no record goes missing; and the load law
stands. -/
structure State.requests (s t : State) : Prop where
  outside : s.keepsOutsideTable t
  dt : t.dt = { s.dt with records := t.dt.records, ports := t.dt.ports }
  re : t.re = { s.re with slots := t.re.slots, list := t.re.list, loads := t.re.loads }
  raised : s.raises t
  load : s.loadLaw → t.loadLaw
  present : ∀ d : Dest, s.dt.records[d].isSome = true → t.dt.records[d].isSome = true

/-- Such an operation that takes sets off the settling-set list, or counts their slots, but leaves every other field of the
change sets alone. -/
structure State.reworks (s t : State) : Prop extends s.requests t where
  sets : t.csa = { s.csa with settling := t.csa.settling }
  ids : (t.csa.settling.map SettlingSet.id).Sublist (s.csa.settling.map SettlingSet.id)

theorem State.requests.refl (s : State) : s.requests s := ⟨.refl s, rfl, rfl, .refl s, id, fun _ => id⟩

theorem State.requests.trans {s t u : State} (h : s.requests t) (k : t.requests u) : s.requests u :=
  ⟨h.outside.trans k.outside, by rw [k.dt, h.dt], by rw [k.re, h.re], h.raised.trans k.raised, k.load ∘ h.load,
    fun d => k.present d ∘ h.present d⟩

theorem State.requests_of_csa (s : State) (csa : SetAssembler) : s.requests { s with csa := csa } :=
  ⟨⟨rfl, rfl, rfl, rfl, rfl, rfl, rfl, rfl, rfl, rfl⟩, rfl, rfl, State.raises_of_ew rfl, id, fun _ => id⟩

theorem State.reworks.refl (s : State) : s.reworks s := ⟨.refl s, rfl, .refl _⟩

theorem State.reworks.trans {s t u : State} (h : s.reworks t) (k : t.reworks u) : s.reworks u :=
  ⟨h.torequests.trans k.torequests, by rw [k.sets, h.sets], k.ids.trans h.ids⟩

theorem State.setRecord_present (s : State) (d : Dest) (r : DestRecord) (e : Dest) (h : s.dt.records[e].isSome = true) :
    (s.setRecord d r).dt.records[e].isSome = true := by
  by_cases he : d.val = e.val
  · simp [State.setRecord, he]
  · simpa [State.setRecord, he] using h

theorem updateSet_ids {id : Nat} {f : SettlingSet → SettlingSet} (hf : ∀ e, (f e).id = e.id) (l : List SettlingSet) :
    (updateSet id f l).map SettlingSet.id = l.map SettlingSet.id := by
  rw [updateSet, List.map_map]
  refine List.map_congr_left fun e _ => ?_
  rw [Function.comp_apply]
  split
  · exact hf e
  · rfl

/-! ### Each operation on a state

Each lemma takes a request one operation further: `s` is the state in which the request began. -/

section Operations
variable {s : State}

section OnState
variable {t : State}

theorem State.requests.emit (h : s.requests t) (kind : RecordKind) (reason : Nat) (subject : BitVec 16) (a b : Word) :
    s.requests (t.emit kind reason subject a b) :=
  h.trans ⟨t.emit_keepsOutsideTable kind reason subject a b, by rw [State.emit_dt], by rw [State.emit_re],
    t.emit_raises kind reason subject a b,
    State.loadLaw_of_records (by rw [State.emit_re]) (by rw [State.emit_dt]),
    fun _ => by rw [State.emit_dt]; exact id⟩

theorem State.reworks.emit (h : s.reworks t) (kind : RecordKind) (reason : Nat) (subject : BitVec 16) (a b : Word) :
    s.reworks (t.emit kind reason subject a b) :=
  h.trans ⟨(State.requests.refl t).emit kind reason subject a b, by rw [State.emit_csa], by rw [State.emit_csa]⟩

/-- A record replaced by one with the same current. -/
theorem State.reworks.setRecord (h : s.reworks t) {d : Dest} {r : DestRecord} (hsrc : r.curSrc = (t.record d).curSrc)
    (hattn : r.curAttn = (t.record d).curAttn) : s.reworks (t.setRecord d r) := by
  refine h.trans ⟨⟨t.setRecord_keepsOutsideTable d r, rfl, rfl, State.raises_of_ew rfl,
    State.loadLaw_of_currents rfl fun e => ?_, t.setRecord_present d r⟩, rfl, .refl _⟩
  by_cases he : e = d
  · subst he
    rw [State.record_setRecord_same]
    exact ⟨hsrc, hattn⟩
  · rw [State.record_setRecord_other t r he]
    exact ⟨rfl, rfl⟩

/-- Ramp slots and the ramp list replaced. -/
theorem State.reworks.setSlots (h : s.reworks t) (slots : Vector (Option RampSlot) 16) (list : List SlotNo) :
    s.reworks { t with re := { t.re with slots := slots, list := list } } :=
  h.trans ⟨⟨⟨rfl, rfl, rfl, rfl, rfl, rfl, rfl, rfl, rfl, rfl⟩, rfl, rfl, State.raises_of_ew rfl, id, fun _ => id⟩, rfl,
    .refl _⟩

theorem State.reworks.setSlot (h : s.reworks t) (n : SlotNo) (sl : Option RampSlot) : s.reworks (t.setSlot n sl) :=
  h.setSlots _ t.re.list

/-- The port map replaced. -/
theorem State.reworks.setPorts (h : s.reworks t) (ports : Vector PortRecord 48) :
    s.reworks { t with dt := { t.dt with ports := ports } } :=
  h.trans ⟨⟨⟨rfl, rfl, rfl, rfl, rfl, rfl, rfl, rfl, rfl, rfl⟩, rfl, rfl, State.raises_of_ew rfl, id, fun _ => id⟩, rfl,
    .refl _⟩

theorem State.reworks.clearHolder (h : s.reworks t) (src : Source) : s.reworks (t.clearHolder src) := by
  cases src with
  | port p => exact h.setPorts _
  | none | express k | drop k n => exact h

theorem State.reworks.takeHolder (h : s.reworks t) (d : Dest) (src : Source) : s.reworks (t.takeHolder d src) := by
  cases src with
  | port p => exact h.setPorts _
  | none | express k | drop k n => exact h

theorem State.reworks.clearClaimant (h : s.reworks t) (d : Dest) (src : Source) : s.reworks (t.clearClaimant d src) := by
  cases src with
  | port p =>
    unfold State.clearClaimant
    dsimp only
    split
    · exact h.setPorts _
    · exact h
  | none | express k | drop k n => exact h

theorem State.reworks.takeClaimant (h : s.reworks t) (d : Dest) (src : Source) : s.reworks (t.takeClaimant d src) := by
  cases src with
  | port p => exact h.setPorts _
  | none | express k | drop k n => exact h

/-- A record replaced together with its load report. -/
theorem State.reworks.reportLoad (h : s.reworks t) (d : Dest) (r : DestRecord) :
    s.reworks ((t.setRecord d r).reportLoad d (t.record d) r) := by
  have hre : ∀ (u : State) (old : DestRecord), u.reportLoad d old r = { u with re := (u.reportLoad d old r).re } ∧
      (u.reportLoad d old r).re = { u.re with loads := (u.reportLoad d old r).re.loads } := fun u old => by
    unfold State.reportLoad
    split <;> exact ⟨rfl, rfl⟩
  obtain ⟨hst, hload⟩ := hre (t.setRecord d r) (t.record d)
  refine h.trans ⟨⟨(t.setRecord_keepsOutsideTable d r).trans (State.reportLoad_keepsOutsideTable _ _ _ _), ?_, ?_, ?_,
    State.reportLoad_loadLaw, fun e he => ?_⟩, ?_, ?_⟩
  · rw [State.reportLoad_dt]; rfl
  · rw [hload]; rfl
  · exact State.raises_of_ew (by rw [hst]; rfl)
  · rw [State.reportLoad_dt]; exact t.setRecord_present d r e he
  · rw [hst]; rfl
  · rw [hst]; exact .refl _

/-- The settling-set list replaced by one whose sets were all listed. -/
theorem State.reworks.setSettling (h : s.reworks t) {l : List SettlingSet}
    (hl : (l.map SettlingSet.id).Sublist (t.csa.settling.map SettlingSet.id)) :
    s.reworks { t with csa := { t.csa with settling := l } } :=
  h.trans ⟨t.requests_of_csa _, rfl, hl⟩

theorem State.reworks.releaseSet (h : s.reworks t) (serves : Option Nat) (interrupted : Bool) :
    s.reworks (t.releaseSet serves interrupted) := by
  unfold State.releaseSet
  split
  · exact h
  · split
    · exact h
    · split
      · exact (h.setSettling (List.filter_sublist.map _)).emit _ _ _ _ _
      · have hids := updateSet_ids (id := ‹Nat›) (f := fun x : SettlingSet =>
          { x with remaining := x.remaining - 1, interrupted := x.interrupted + interrupted.toNat }) (fun _ => rfl)
          t.csa.settling
        exact h.setSettling (hids.symm ▸ List.Sublist.refl _)

end OnState

/-! ### Each operation of a request -/

variable {w : Work}

theorem State.reworks.setRecordIn (h : s.reworks w.st) {d : Dest} {r : DestRecord} (hsrc : r.curSrc = (w.st.record d).curSrc)
    (hattn : r.curAttn = (w.st.record d).curAttn) : s.reworks (w.setRecord d r).st := h.setRecord hsrc hattn

theorem State.reworks.writeCurrent (h : s.reworks w.st) (d : Dest) (src : Source) (attn : Attn) :
    s.reworks (w.writeCurrent d src attn).st :=
  ((h.reportLoad d { w.st.record d with curSrc := src, curAttn := attn }).clearHolder _).takeHolder _ _

theorem State.reworks.writeIntent (h : s.reworks w.st) (d : Dest) (src : Source) (attn : Attn) :
    s.reworks (w.writeIntent d src attn).st :=
  ((h.setRecord (r := { w.st.record d with intentSrc := src, intentAttn := attn }) rfl rfl).clearClaimant _ _).takeClaimant _ _

theorem State.reworks.freeSlot (h : s.reworks w.st) (n : SlotNo) : s.reworks (w.freeSlot n).st := by
  unfold Work.freeSlot
  split
  · exact h
  · refine State.reworks.setRecord ?_ rfl rfl
    exact h.setSlots _ _

theorem State.reworks.interruptSlot (h : s.reworks w.st) (n : SlotNo) : s.reworks (w.interruptSlot n).st := by
  unfold Work.interruptSlot
  split
  · exact h
  · refine State.reworks.freeSlot ?_ n
    exact h.releaseSet _ _

theorem State.reworks.settleSlot (h : s.reworks w.st) (n : SlotNo) : s.reworks (w.settleSlot n).st := by
  unfold Work.settleSlot
  split
  · exact h
  · refine State.reworks.freeSlot ?_ n
    exact h.releaseSet _ _

theorem State.reworks.setPhase (h : s.reworks w.st) (n : SlotNo) (phase : Phase) (goal : Attn) :
    s.reworks (w.setPhase n phase goal).st := by
  unfold Work.setPhase
  split
  · exact h
  · dsimp only
    split <;> exact h.setSlot _ _

theorem State.reworks.evaluateGoal (h : s.reworks w.st) (n : SlotNo) (d : Dest) : s.reworks (w.evaluateGoal n d).st := by
  unfold Work.evaluateGoal
  dsimp only
  split
  · exact h.settleSlot n
  · split <;> exact h.setPhase _ _ _

theorem State.reworks.enterPortWait (h : s.reworks w.st) (n : SlotNo) (d : Dest) (phase : Phase) :
    s.reworks (w.enterPortWait n d phase).st := by
  unfold Work.enterPortWait
  split
  · exact h.setPhase _ _ _
  · exact (h.writeCurrent _ _ _).setPhase _ _ _

theorem State.reworks.evaluate (h : s.reworks w.st) (n : SlotNo) : s.reworks (w.evaluate n).st := by
  unfold Work.evaluate
  split
  · exact h
  · dsimp only
    split
    · exact h.evaluateGoal _ _
    · split
      · exact h.setPhase _ _ _
      · split
        · exact h.enterPortWait _ _ _
        · exact (h.writeCurrent _ _ _).evaluateGoal _ _

theorem State.reworks.occupySlot (h : s.reworks w.st) (n : SlotNo) (d : Dest) (serves : Option Nat) :
    s.reworks (w.occupySlot n d serves).st := by
  unfold Work.occupySlot
  dsimp only
  refine State.reworks.evaluate ?_ n
  refine State.reworks.setRecord ?_ rfl rfl
  exact h.setSlots _ _

theorem State.reworks.retargetSlot (h : s.reworks w.st) (n : SlotNo) (serves : Nat) :
    s.reworks (w.retargetSlot n serves).st := by
  unfold Work.retargetSlot
  split
  · exact h
  · dsimp only
    refine State.reworks.evaluate ?_ n
    exact (h.releaseSet _ _).setSlots _ _

theorem State.reworks.reevaluateWanted (h : s.reworks w.st) (d : Dest) : s.reworks (w.reevaluateWanted d).st :=
  h.setRecord (r := { w.st.record d with wanted := !atRest d (w.st.record d) }) rfl rfl

theorem State.reworks.reevaluateDrop (h : s.reworks w.st) (d : Dest) : s.reworks (w.reevaluateDrop d).st := by
  unfold Work.reevaluateDrop
  dsimp only
  split
  · exact h
  · exact h.writeCurrent _ _ _

theorem State.reworks.changeBlocked (h : s.reworks w.st) (d : Dest) (b : Bool) : s.reworks (w.changeBlocked d b).st := by
  unfold Work.changeBlocked
  dsimp only
  have hflag : s.reworks ((w.setRecord d { w.st.record d with blocked := b }).mark d).st := h.setRecordIn rfl rfl
  split
  · exact hflag.evaluate _
  · exact hflag.reevaluateWanted d

theorem State.reworks.cancelSlot (h : s.reworks w.st) (d : Dest) : s.reworks (w.cancelSlot d).st := by
  unfold Work.cancelSlot
  split
  · exact h.interruptSlot _
  · exact h

theorem State.reworks.forceDest (h : s.reworks w.st) (d : Dest) : s.reworks (w.forceDest d).st := by
  unfold Work.forceDest
  refine State.reworks.writeCurrent ?_ d _ _
  refine State.reworks.setRecordIn ?_ rfl rfl
  refine State.reworks.cancelSlot ?_ d
  exact h.setRecordIn rfl rfl

theorem State.reworks.unforceDest (h : s.reworks w.st) (d : Dest) : s.reworks (w.unforceDest d).st := by
  unfold Work.unforceDest
  dsimp only
  have hflag : s.reworks ((w.setRecord d { w.st.record d with forced := false }).mark d).st := h.setRecordIn rfl rfl
  split
  · split
    · exact hflag
    · exact hflag.reevaluateWanted d
  · exact hflag.reevaluateDrop d

theorem State.reworks.flagForced (h : s.reworks w.st) (d : Dest) (b : Bool) : s.reworks (w.flagForced d b).st :=
  State.reworks.setRecordIn (r := { w.st.record d with forced := b }) h rfl rfl

theorem State.reworks.changeQueued (h : s.reworks w.st) (d : Dest) (f : Nat → Nat) : s.reworks (w.changeQueued d f).st :=
  State.reworks.setRecordIn (r := { w.st.record d with queued := f (w.st.record d).queued }) h rfl rfl

theorem State.reworks.clearWanted (h : s.reworks w.st) (d : Dest) : s.reworks (w.clearWanted d).st :=
  State.reworks.setRecordIn (r := { w.st.record d with wanted := false }) h rfl rfl

theorem State.reworks.displace (h : s.reworks w.st) (d : Dest) : s.reworks (w.displace d).st := by
  unfold Work.displace
  dsimp only
  split
  · exact (h.writeCurrent _ _ _).evaluate _
  · exact (h.writeCurrent _ _ _).reevaluateWanted d

theorem State.reworks.displaceHolder (h : s.reworks w.st) (d : Dest) (src : Source) :
    s.reworks (w.displaceHolder d src).st := by
  unfold Work.displaceHolder
  split
  · exact h.displace _
  · exact h

theorem State.reworks.swap (h : s.reworks w.st) (d : Dest) (src : Source) (attn : Attn) :
    s.reworks (w.swap d src attn).st := by
  unfold Work.swap
  refine State.reworks.writeCurrent ?_ d _ _
  refine State.reworks.displaceHolder ?_ d src
  refine State.reworks.setRecordIn ?_ rfl rfl
  exact (h.writeIntent d src attn).cancelSlot d

theorem State.reworks.rampStep (h : s.reworks w.st) (n : SlotNo) (sl : RampSlot) (a : Attn) :
    s.reworks (w.rampStep n sl a).st := by
  unfold Work.rampStep
  dsimp only
  split
  · exact (h.writeCurrent _ _ _).evaluate _
  · exact h.writeCurrent _ _ _

theorem State.reworks.applyIntent (h : s.reworks w.st) (e : SetEntry) : s.reworks (w.applyIntent e).st := by
  unfold Work.applyIntent
  refine State.reworks.setRecordIn ?_ rfl rfl
  exact (h.writeIntent _ _ _).changeQueued _ _

theorem State.reworks.settleLine (h : s.reworks w.st) (id : Nat) (d : Dest) : s.reworks (w.settleLine id d).st := by
  unfold Work.settleLine
  split
  · exact ((h.cancelSlot d).clearWanted d).writeCurrent _ _ _
  · split
    · exact h.retargetSlot _ _
    · split
      · exact h.clearWanted d
      · split
        · exact h.occupySlot _ _ _
        · exact h

theorem State.reworks.settleEntry (h : s.reworks w.st) (id : Nat) (e : SetEntry) : s.reworks (Work.settleEntry id w e).st := by
  unfold Work.settleEntry
  split
  · exact h.settleLine _ _
  · exact h.reevaluateDrop _

theorem State.reworks.admitWanted (h : s.reworks w.st) (d : Dest) : s.reworks (w.admitWanted d).st := by
  unfold Work.admitWanted
  split
  · split
    · exact h.occupySlot _ _ _
    · exact h
  · exact h

/-- An operation taken for each element of a list. -/
theorem State.reworks.foldl {α : Type} {f : Work → α → Work} (hf : ∀ (w : Work) (a : α), s.reworks w.st → s.reworks (f w a).st)
    (l : List α) (h : s.reworks w.st) : s.reworks (l.foldl f w).st := by
  induction l generalizing w with
  | nil => exact h
  | cons a l ih => exact ih (hf w a h)

theorem State.reworks.unqueue (h : s.reworks w.st) (es : List SetEntry) : s.reworks (w.unqueue es).st :=
  h.foldl (fun _ d hw => hw.changeQueued d _) _

end Operations

/-! ### Operations that change the change sets -/

section SetOperations
variable {s : State} {w : Work}

theorem State.requests.reworked {t u : State} (h : s.requests t) (k : t.reworks u) : s.requests u := h.trans k.torequests

/-- An operation taken for each element of a list. -/
theorem State.requests.foldl {α : Type} {f : Work → α → Work} (hf : ∀ (v : Work) (a : α), v.st.reworks (f v a).st)
    (l : List α) (h : s.requests w.st) : s.requests (l.foldl f w).st :=
  h.reworked (State.reworks.foldl (fun v a hv => hv.trans (hf v a)) l (.refl _))

theorem State.requests.setCsa {t : State} (h : s.requests t) (csa : SetAssembler) : s.requests { t with csa := csa } :=
  h.trans (t.requests_of_csa csa)

theorem State.requests.account (h : s.requests w.st) (id : Nat) (q : QueuedSet) : s.requests (w.account id q).st := by
  unfold Work.account
  split
  · exact h.emit _ _ _ _ _
  · exact h.setCsa _

theorem State.requests.applySet (h : s.requests w.st) (q : QueuedSet) : s.requests (w.applySet q).st := by
  unfold Work.applySet
  dsimp only
  refine State.requests.account ?_ _ q
  have hpop : s.requests w.popSet.giveSetId.st := (h.setCsa _).setCsa _
  have hintents := hpop.foldl (f := Work.applyIntent) (fun v e => (State.reworks.refl v.st).applyIntent e) q.entries
  exact hintents.foldl (fun v e => (State.reworks.refl v.st).settleEntry _ e) q.entries

theorem State.requests.rejectSet (h : s.requests w.st) (q : QueuedSet) (e : SetEntry) (p : Port) (c : Dest) :
    s.requests (w.rejectSet q e p c).st := by
  unfold Work.rejectSet
  refine State.requests.reworked ?_ (State.reworks.unqueue (.refl _) q.entries)
  exact (h.setCsa _).emit _ _ _ _ _

theorem State.requests.arbitrate (fuel : Nat) (h : s.requests w.st) : s.requests (Work.arbitrate fuel w).st := by
  induction fuel generalizing w with
  | zero => exact h
  | succ fuel ih =>
    unfold Work.arbitrate
    split
    · exact h.foldl (fun v d => (State.reworks.refl v.st).admitWanted d) _
    · split
      · exact ih (h.rejectSet _ _ _ _)
      · split
        · exact ih (h.applySet _)
        · exact h

theorem State.reworks.emitQueuedAbort {t : State} (h : s.reworks t) (q : QueuedSet) : s.reworks (t.emitQueuedAbort q) := by
  unfold State.emitQueuedAbort
  split
  · exact h
  · exact h.emit _ _ _ _ _

theorem State.reworks.abortQueue (h : s.reworks w.st) (qs : List QueuedSet) : s.reworks (w.abortQueue qs).st := by
  unfold Work.abortQueue
  refine h.foldl (fun v q hv => ?_) qs
  refine State.reworks.unqueue ?_ q.entries
  exact hv.emitQueuedAbort q

theorem State.requests.emitAbandoned {t : State} (h : s.requests t) (l : List SettlingSet) :
    s.requests (l.foldl State.emitAbandoned t) := by
  induction l generalizing t with
  | nil => exact h
  | cons e l ih => exact ih (h.emit _ _ _ _ _)

theorem State.requests.restart (h : s.requests w.st) : s.requests w.restart.st := by
  unfold Work.restart
  refine State.requests.foldl (fun v d => ?_) _ ?_
  · split
    · exact (State.reworks.refl v.st).clearWanted d
    · exact .refl _
  · refine State.requests.foldl (fun v n => (State.reworks.refl v.st).freeSlot n) _ ?_
    refine State.requests.setCsa ?_ _
    refine State.requests.emitAbandoned ?_ _
    exact h.reworked (State.reworks.abortQueue (.refl _) _)

end SetOperations

end Sys2Proof.Machine

/-! What each command can do, said once: the blocks that it leaves alone, the request on the table that it makes, and the
grant that it is. -/

namespace Sys2Proof.Machine

/-! ### A whole request, its marks on the table-update list (R16, R75) -/

/-- What a whole request under a host tag keeps beside the change sets. -/
structure State.requested (s t : State) (tag : Option Nat) : Prop where
  outside : s.keepsOutsideTable t
  dt : t.dt = { s.dt with records := t.dt.records, ports := t.dt.ports, updates := t.dt.updates }
  re : t.re = { s.re with slots := t.re.slots, list := t.re.list, loads := t.re.loads, occasionDue := t.re.occasionDue }
  raised : s.raises t
  load : s.loadLaw → t.loadLaw
  present : ∀ d : Dest, s.dt.records[d].isSome = true → t.dt.records[d].isSome = true
  updates : ∃ ds : List Dest, t.dt.updates = ds.foldl (markUpdate tag) s.dt.updates

theorem State.requested.refl (s : State) (tag : Option Nat) : s.requested s tag :=
  ⟨.refl s, rfl, rfl, .refl s, id, fun _ => id, [], rfl⟩

theorem State.requested.trans {s t u : State} {tag : Option Nat} (h : s.requested t tag) (k : t.requested u tag) :
    s.requested u tag := by
  obtain ⟨ds, hds⟩ := h.updates
  obtain ⟨es, hes⟩ := k.updates
  exact ⟨h.outside.trans k.outside, by rw [k.dt, h.dt], by rw [k.re, h.re], h.raised.trans k.raised, k.load ∘ h.load,
    fun d => k.present d ∘ h.present d, ds ++ es, by rw [hes, hds, List.foldl_append]⟩

theorem State.requests.requested {s t : State} (h : s.requests t) (tag : Option Nat) : s.requested t tag :=
  ⟨h.outside, by rw [h.dt], by rw [h.re], h.raised, h.load, h.present, [], by rw [h.dt]; rfl⟩

/-- A request ends. -/
theorem State.requests.finish {s : State} {w : Work} (h : s.requests w.st) (tag : Option Nat) :
    s.requested (w.finish tag) tag := by
  refine (h.requested tag).trans ⟨w.finish_keepsOutsideTable tag, rfl, rfl, State.raises_of_ew rfl,
    State.loadLaw_of_records rfl rfl, fun _ => id, w.marks, rfl⟩

/-- An occasion of the arbiter noted or taken back. -/
theorem State.requested.setOccasion {s t : State} {tag : Option Nat} (h : s.requested t tag) (b : Bool) :
    s.requested { t with re := { t.re with occasionDue := b } } tag :=
  h.trans ⟨⟨rfl, rfl, rfl, rfl, rfl, rfl, rfl, rfl, rfl, rfl⟩, rfl, rfl, State.raises_of_ew rfl, id, fun _ => id, [], rfl⟩

/-- A host tag on the list after a marking is the marking's or was there before. -/
theorem markUpdate_tags {tag : Option Nat} {l : List UpdateEntry} {d : Dest} {e : UpdateEntry} {x : Nat}
    (he : e ∈ markUpdate tag l d) (hx : e.tag = some x) : tag = some x ∨ ∃ u ∈ l, u.tag = some x := by
  induction l with
  | nil =>
    obtain rfl := List.mem_singleton.1 he
    exact .inl hx
  | cons u rest ih =>
    unfold markUpdate at he
    split at he
    · obtain rfl | he := List.mem_cons.1 he
      · cases tag with
        | some y => exact .inl hx
        | none => exact .inr ⟨u, List.mem_cons_self, hx⟩
      · exact .inr ⟨e, List.mem_cons_of_mem _ he, hx⟩
    · obtain rfl | he := List.mem_cons.1 he
      · exact .inr ⟨e, List.mem_cons_self, hx⟩
      · exact (ih he).imp id fun ⟨v, hv, hvx⟩ => ⟨v, List.mem_cons_of_mem _ hv, hvx⟩

theorem foldl_markUpdate_tags {tag : Option Nat} (ds : List Dest) {l : List UpdateEntry} {e : UpdateEntry} {x : Nat}
    (he : e ∈ ds.foldl (markUpdate tag) l) (hx : e.tag = some x) : tag = some x ∨ ∃ u ∈ l, u.tag = some x := by
  induction ds generalizing l with
  | nil => exact .inr ⟨e, he, hx⟩
  | cons d ds ih =>
    obtain h | ⟨u, hu, hux⟩ := ih he
    · exact .inl h
    · exact markUpdate_tags hu hux

theorem State.requested.tags {s t : State} {tag : Option Nat} (h : s.requested t tag) {e : UpdateEntry} {x : Nat}
    (he : e ∈ t.dt.updates) (hx : e.tag = some x) : tag = some x ∨ ∃ u ∈ s.dt.updates, u.tag = some x := by
  obtain ⟨ds, hds⟩ := h.updates
  rw [hds] at he
  exact foldl_markUpdate_tags ds he hx

/-! ### The requests of the blocks -/

/-- Before it the way's isolated indication is set (R8). -/
theorem State.isolate_requested (s : State) (k : Way) : (s.setIsolated k true).requested (s.isolate k) none := by
  unfold State.isolate
  refine State.requests.finish (State.requests.foldl (fun w d => ?_) _ ?_) none
  swap
  · exact State.requests.refl (s.setIsolated k true)
  split
  · exact (State.reworks.refl w.st).forceDest d
  · exact (State.reworks.refl w.st).flagForced d true

/-- Before it the way's isolated indication is cleared (R9). -/
theorem State.release_requested (s : State) (k : Way) (tag : Option Nat) :
    (s.setIsolated k false).requested (s.release k tag) tag := by
  unfold State.release
  refine State.requests.finish (State.requests.foldl (fun w d => ?_) _ ?_) tag
  swap
  · exact State.requests.refl (s.setIsolated k false)
  split
  · exact (State.reworks.refl w.st).unforceDest d
  · exact (State.reworks.refl w.st).flagForced d false

theorem State.blockRequest_requested (s : State) (tag : Nat) (d : Dest) (b : Bool) :
    s.requested (s.blockRequest tag d b) (some tag) :=
  State.requests.finish ((State.reworks.refl s).changeBlocked (w := s.begin) d b).torequests _

theorem State.enterQueue_requested (s : State) (label : BitVec 4) (es : List SetEntry) (tag : Nat) :
    s.requested (s.enterQueue label es tag) (some tag) := by
  unfold State.enterQueue
  dsimp only
  refine State.requested.setOccasion (State.requests.finish ?_ _) _
  refine State.requests.foldl (fun w d => (State.reworks.refl w.st).changeQueued d _) _ ?_
  exact (State.requests.refl s).setCsa _

theorem State.closeSet_requested (s : State) (es : List OpenEntry) (label : BitVec 4) (trial : Bool) (tag : Nat) :
    s.requested (s.closeSet es label trial tag) (some tag) := by
  unfold State.closeSet
  split
  · exact ((State.requests.refl s).emit _ _ _ _ _).requested _
  · split
    · unfold State.trial
      split <;> exact ((State.requests.refl s).emit _ _ _ _ _).requested _
    · exact s.enterQueue_requested _ _ _

theorem State.takePathWord_requested (s : State) (d : Dest) (merged : Word) (close : Bool) (tag : Nat) :
    s.requested (s.takePathWord d merged close tag) (some tag) := by
  have hempty : s.requests s.emptyOpen := (State.requests.refl s).setCsa _
  unfold State.takePathWord
  split
  · exact (hempty.emit _ _ _ _ _).requested _
  · split
    · exact (hempty.requested _).trans (State.closeSet_requested _ _ _ _ _)
    · exact ((State.requests.refl s).setCsa _).requested _

theorem State.visit_requested (maxStep : Nat) (acc : State × Nat) (n : SlotNo) :
    acc.1.requested (State.visit maxStep acc n).1 none := by
  unfold State.visit
  dsimp only
  split
  · exact .refl _ _
  · split
    · exact State.requests.finish ((State.reworks.refl acc.1).evaluate (w := acc.1.begin) n).torequests none
    · split
      · exact State.requests.finish ((State.reworks.refl acc.1).rampStep (w := acc.1.begin) n _ _).torequests none
      · exact .refl _ _

theorem State.passWay_requested (s : State) (w : Way) : s.requested (s.passWay w) none := by
  unfold State.passWay
  dsimp only
  generalize s.slotsOfWay w = slots
  suffices h : ∀ (acc : State × Nat), s.requested acc.1 none →
      s.requested (slots.foldl (State.visit s.pu.params.maxStep) acc).1 none from h _ (.refl _ _)
  induction slots with
  | nil => exact fun _ h => h
  | cons n slots ih => exact fun acc h => ih _ (h.trans (State.visit_requested _ _ _))

theorem State.occasion_requested (s : State) : s.requested s.occasion none := by
  unfold State.occasion
  refine State.requested.setOccasion (State.requests.finish ?_ none) false
  exact (State.requests.refl s).arbitrate (w := s.begin) _

theorem State.swap_requested (s : State) (d : Dest) (src : Source) (attn : Attn) :
    s.requested ((s.begin.swap d src attn).finish none) none :=
  State.requests.finish ((State.reworks.refl s).swap (w := s.begin) d src attn).torequests none

theorem State.restart_requested (s : State) : s.requested (s.begin.restart.finish none) none :=
  State.requests.finish ((State.requests.refl s).restart (w := s.begin)) none

theorem State.abortOpen_requests (s : State) : s.requests s.abortOpen := by
  unfold State.abortOpen
  split
  · exact .refl s
  · exact ((State.requests.refl s).setCsa _).emit _ _ _ _ _

/-! ### Grants (R136) -/

/-- The state in which a requester's own part of its grant follows: the access made and the pointers moved. -/
def State.granted (s : State) (r : Requester) : State :=
  { s with mem := (s.makeAccess (s.access r)).mem, tmp := (s.movePointers r).tmp }

theorem State.grant_cases (s : State) (r : Requester) (k : State → State) :
    s.grant r k = s ∨ s.nextGrant = some r ∧ s.grant r k = k (s.granted r) := by
  by_cases h : s.nextGrant = some r
  · exact .inr ⟨h, State.grant_made h⟩
  · exact .inl (State.grant_refused h)

/-! ### The commands of the host bus -/

theorem hostWriteStep_eq (addr : Addr) (enables : BitVec 4) (data : Word) (s : State) :
    hostWriteStep addr enables data s = { s with cbp := (hostWriteStep addr enables data s).cbp } := by
  unfold hostWriteStep
  (repeat' split) <;> rfl

theorem hostReadStep_eq (addr : Addr) (enables : BitVec 4) (s : State) :
    hostReadStep addr enables s = { s with cbp := (hostReadStep addr enables s).cbp } := by
  unfold hostReadStep State.judgeRead State.newRead
  (repeat' split) <;> rfl

theorem delayedReadIssueStep_eq (i : ReadSlotNo) (s : State) :
    delayedReadIssueStep i s = { s with cbp := (delayedReadIssueStep i s).cbp } := by
  unfold delayedReadIssueStep
  (repeat' split) <;> rfl

theorem discardTimerExpiryStep_cases (i : ReadSlotNo) (s : State) : discardTimerExpiryStep i s = s ∨
    ∃ r data, s.cbp.slots[i] = some r ∧ r.state = .complete data ∧
      discardTimerExpiryStep i s = (s.freeReadSlot i).emit .readDiscarded 0 (BitVec.ofNat 16 i.val)
        (BitVec.ofNat 32 r.addr.toNat) (BitVec.ofNat 32 r.size.bytes) := by
  unfold discardTimerExpiryStep
  split
  · next r hr =>
    split
    · next data hdata => exact .inr ⟨r, data, hr, hdata, rfl⟩
    · exact .inl rfl
    · exact .inl rfl
  · exact .inl rfl

/-! ### The head handed to its owner (R127) -/

/-- PATH_WRITE does nothing, or makes a request under the head's tag and ends its handling. -/
theorem pathWriteStep_cases (s : State) : pathWriteStep s = s ∨ ∃ h d,
    s.headToTake = some h ∧ s.closeWaits d h = false ∧
    pathWriteStep s = (s.takePathWord d (s.pathMerged d h) (s.closes d h) h.tag).retireHead := by
  unfold pathWriteStep
  split
  · next h hh =>
    split
    · split
      · next d _ =>
        split
        · exact .inl rfl
        · next hwait => exact .inr ⟨h, d, hh, Bool.eq_false_iff.2 hwait, rfl⟩
      · exact .inl rfl
    · exact .inl rfl
  · exact .inl rfl

theorem State.blockNext_requested (s : State) (tag : Nat) (m : Fin 12) (todo : List (Fin 32)) :
    ∃ u stage, s.requested u (some tag) ∧ s.blockNext tag m todo = { u with cbp := { s.cbp with head := stage } } := by
  cases todo with
  | nil => exact ⟨s, _, .refl _ _, rfl⟩
  | cons b rest =>
    obtain ⟨u, rfl, -, he⟩ := s.blockNext_spec tag m b rest
    exact ⟨_, _, s.blockRequest_requested tag _ _, he⟩

/-- MASK_VIEW_WRITE does nothing, or puts a mask word in and makes at most one request under the head's tag. -/
theorem maskViewWriteStep_cases (s : State) : maskViewWriteStep s = s ∨
    (∃ m todo h rest, s.cbp.head = .masking m todo ∧ s.cbp.queue = h :: rest ∧
      maskViewWriteStep s = s.blockNext h.tag m todo) ∨
    ∃ h view m, s.headToTake = some h ∧ h.zone = .mask view ∧ maskIndex view (offsetOf h.addr) = some m ∧
      maskViewWriteStep s = (s.setMask m (maskWrite view (s.maskWord m) h.position h.bytes)).blockNext h.tag m
        (changedBits (s.maskWord m) (maskWrite view (s.maskWord m) h.position h.bytes)) := by
  unfold maskViewWriteStep
  split
  · next m todo h rest hhead hqueue => exact .inr (.inl ⟨m, todo, h, rest, hhead, hqueue, rfl⟩)
  · split
    · next h hh =>
      split
      · next view hview =>
        unfold State.takeMaskWrite
        split
        · next m hm => exact .inr (.inr ⟨h, view, m, hh, hview, hm, rfl⟩)
        · exact .inl rfl
      all_goals exact .inl rfl
    · exact .inl rfl

theorem writeThroughStep_cases (s : State) : writeThroughStep s = s ∨ ∃ h, s.headToTake = some h ∧
    writesThrough h.zone = true ∧ writeThroughStep s = s.headWrites h.through false := by
  unfold writeThroughStep
  split
  · next h hh =>
    split
    · next hz => exact .inr ⟨h, hh, hz, rfl⟩
    · exact .inl rfl
  · exact .inl rfl

theorem planHeaderWriteStep_cases (s : State) : planHeaderWriteStep s = s ∨ ∃ h p, s.headToTake = some h ∧
    h.zone = .planHeader ∧ headerPlan (offsetOf h.addr) = some p ∧
    (planHeaderWriteStep s =
        (s.setCondition p .idle).headWrites [s.wordWrite (planHeaderOffset p) 0#32] false ∨
      planHeaderWriteStep s = (s.ignoreWrite h 2 p.val).retireHead) := by
  unfold planHeaderWriteStep
  split
  · next h hh =>
    split
    · next hz =>
      split
      · next p hp =>
        refine .inr ⟨h, p, hh, hz, hp, ?_⟩
        split
        · exact .inl rfl
        · exact .inr rfl
      · exact .inl rfl
    · exact .inl rfl
  · exact .inl rfl

theorem statusZoneWriteStep_cases (s : State) : statusZoneWriteStep s = s ∨ ∃ h, s.headToTake = some h ∧
    h.zone = .status ∧ statusZoneWriteStep s = (s.ignoreWrite h 1 h.wordOffset).retireHead := by
  unfold statusZoneWriteStep
  split
  · next h hh =>
    split
    · next hz => exact .inr ⟨h, hh, hz, rfl⟩
    · exact .inl rfl
  · exact .inl rfl

theorem narrowCommandWriteStep_cases (s : State) : narrowCommandWriteStep s = s ∨ ∃ h, s.headToTake = some h ∧
    h.zone = .command ∧ narrowCommandWriteStep s = (s.ignoreWrite h 3 h.wordOffset).headWrites h.through false := by
  unfold narrowCommandWriteStep
  split
  · next h hh =>
    split
    · next hz => exact .inr ⟨h, hh, hz.1, rfl⟩
    · exact .inl rfl
  · exact .inl rfl

/-! ### The command words (R128) -/

theorem cmdUnlockStep_cases (s : State) : cmdUnlockStep s = s ∨ ∃ h, s.commandToTake 0 = some h ∧
    cmdUnlockStep s = ({ s with cbp := { s.cbp with lock := unlocked s.cbp.lock } } : State).mailbox h false := by
  unfold cmdUnlockStep
  split
  · next h hh => exact .inr ⟨h, hh, rfl⟩
  · exact .inl rfl

theorem cmdAbortSetStep_cases (s : State) : cmdAbortSetStep s = s ∨ ∃ h, s.commandToTake 1 = some h ∧
    cmdAbortSetStep s = s.abortOpen.mailbox h false := by
  unfold cmdAbortSetStep
  split
  · next h hh => exact .inr ⟨h, hh, rfl⟩
  · exact .inl rfl

theorem cmdExchangeStep_cases (s : State) : cmdExchangeStep s = s ∨ ∃ h, s.commandToTake 2 = some h ∧
    cmdExchangeStep s = (s.controllerRequest h.data.toNat).mailbox h false := by
  unfold cmdExchangeStep
  split
  · next h hh => exact .inr ⟨h, hh, rfl⟩
  · exact .inl rfl

theorem cmdReleaseStep_cases (s : State) : cmdReleaseStep s = s ∨ ∃ h, s.commandToTake 3 = some h ∧
    cmdReleaseStep s = (s.manualRelease h.data.toNat h.tag).mailbox h false := by
  unfold cmdReleaseStep
  split
  · next h hh => exact .inr ⟨h, hh, rfl⟩
  · exact .inl rfl

/-- CMD_RELEASE's own part: a record alone, or the way in AWAIT_RELEASE cleared and released (R103). -/
theorem State.manualRelease_cases (s : State) (v tag : Nat) :
    (∃ code, s.manualRelease v tag = s.ignoreRelease v code) ∨
    ∃ w : Way, v = w.val ∧ s.lm.ways[w].state = .awaitRelease ∧ s.manualRelease v tag =
      ((s.setWay w s.lm.ways[w].cleared).emitWayState w .awaitRelease s.lm.ways[w].cleared).release w (some tag) := by
  unfold State.manualRelease
  split
  · next hv =>
    dsimp only
    split
    · next hstate => exact .inr ⟨⟨v, hv⟩, rfl, hstate, rfl⟩
    · exact .inl ⟨_, rfl⟩
  · exact .inl ⟨_, rfl⟩

theorem cmdRingTailStep_cases (s : State) : cmdRingTailStep s = s ∨ ∃ h, s.commandToTake 4 = some h ∧
    ((s.tailAccepted h.data.toNat = true ∧ h.data.toNat = s.ew.tail ∧ cmdRingTailStep s = s.mailbox h false) ∨
      (s.tailAccepted h.data.toNat = true ∧ h.data.toNat ≠ s.ew.tail ∧
        cmdRingTailStep s = { s.moveTail h.data.toNat with cbp := { s.cbp with head := .ringWord } }) ∨
      (s.tailAccepted h.data.toNat = false ∧
        cmdRingTailStep s = (s.emit .tailRefused 0 (limitSubject h.data.toNat) (BitVec.ofNat 32 h.data.toNat)
          (ringWordOf s.ew.head s.ew.tail)).mailbox h false)) := by
  unfold cmdRingTailStep
  split
  · next h hh =>
    refine .inr ⟨h, hh, ?_⟩
    dsimp only
    split
    · next hacc =>
      split
      · next hv => exact .inl ⟨hacc, hv, rfl⟩
      · next hv => exact .inr (.inl ⟨hacc, hv, rfl⟩)
    · next hacc => exact .inr (.inr ⟨Bool.eq_false_iff.2 hacc, rfl⟩)
  · exact .inl rfl

theorem cmdRestartStep_cases (s : State) : cmdRestartStep s = s ∨ ∃ h, s.commandToTake 5 = some h ∧
    cmdRestartStep s = s.mailbox h true := by
  unfold cmdRestartStep
  split
  · next h hh => exact .inr ⟨h, hh, rfl⟩
  · exact .inl rfl

/-! ### The grants of each requester -/

/-- What follows the head's granted write: nothing, the head's next write, the end of its handling, or the restart. -/
theorem State.headGranted_cases (s : State) : s.headGranted = s ∨
    (∃ acc next rest restart, s.cbp.head = .writing (acc :: next :: rest) restart ∧
      s.headGranted = s.headWrites (next :: rest) restart) ∨
    (∃ acc, s.cbp.head = .writing [acc] false ∧ s.headGranted = s.retireHead) ∨
    ∃ acc, s.cbp.head = .writing [acc] true ∧ s.headGranted = s.carryOutRestart := by
  unfold State.headGranted
  split
  · next acc restart hhead =>
    cases restart with
    | true => exact .inr (.inr (.inr ⟨acc, hhead, rfl⟩))
    | false => exact .inr (.inr (.inl ⟨acc, hhead, rfl⟩))
  · next acc next rest restart hhead => exact .inr (.inl ⟨acc, next, rest, restart, hhead, rfl⟩)
  all_goals exact .inl rfl

theorem ctlWriteGrantStep_cases (s : State) : ctlWriteGrantStep s = s ∨
    s.ctlSource = some .head ∧ s.nextGrant = some .ctl ∧ ctlWriteGrantStep s = (s.granted .ctl).headGranted := by
  unfold ctlWriteGrantStep
  split
  · next hsource => exact (s.grant_cases _ _).imp id fun ⟨hnext, he⟩ => ⟨hsource, hnext, he⟩
  · exact .inl rfl

theorem ctlReadGrantStep_cases (s : State) : ctlReadGrantStep s = s ∨ s.nextGrant = some .ctl ∧
    ((∃ i, s.ctlSource = some (.slot i) ∧
        ctlReadGrantStep s = (s.granted .ctl).slotGranted i (s.readBytes s.ctlAccess)) ∨
      s.ctlSource = some .direct ∧ ctlReadGrantStep s = (s.granted .ctl).directGranted (s.readBytes s.ctlAccess)) := by
  unfold ctlReadGrantStep
  split
  · next i hsource => exact (s.grant_cases _ _).imp id fun ⟨hnext, he⟩ => ⟨hnext, .inl ⟨i, hsource, he⟩⟩
  · next hsource => exact (s.grant_cases _ _).imp id fun ⟨hnext, he⟩ => ⟨hnext, .inr ⟨hsource, he⟩⟩
  all_goals exact .inl rfl

theorem State.slotGranted_eq (s : State) (i : ReadSlotNo) (bytes : List Byte) :
    s.slotGranted i bytes = { s with cbp := (s.slotGranted i bytes).cbp } := by
  unfold State.slotGranted
  (repeat' split) <;> rfl

theorem State.directGranted_eq (s : State) (bytes : List Byte) :
    s.directGranted bytes = { s with cbp := (s.directGranted bytes).cbp } := by
  unfold State.directGranted
  (repeat' split) <;> rfl

theorem tblGrantStep_cases (s : State) : tblGrantStep s = s ∨
    s.nextGrant = some .tbl ∧ tblGrantStep s = (s.granted .tbl).updateWritten := s.grant_cases _ _

theorem exchangeAccessGrantStep_cases (s : State) : exchangeAccessGrantStep s = s ∨
    ∃ x, s.pu.adoption = none ∧ s.xe.running = some x ∧ s.nextGrant = some .xch ∧
      exchangeAccessGrantStep s = (s.granted .xch).exchangeStep x (wordOfBytes (s.readBytes s.xchAccess)) := by
  unfold exchangeAccessGrantStep
  split
  · next x hadoption hrunning =>
    exact (s.grant_cases _ _).imp id fun ⟨hnext, he⟩ => ⟨x, hadoption, hrunning, hnext, he⟩
  · exact .inl rfl

theorem adoptionAccessGrantStep_cases (s : State) : adoptionAccessGrantStep s = s ∨
    ∃ a, s.pu.adoption = some a ∧ s.nextGrant = some .xch ∧
      adoptionAccessGrantStep s = (s.granted .xch).adoptionStep a (wordOfBytes (s.readBytes s.xchAccess)) := by
  unfold adoptionAccessGrantStep
  split
  · next a hadoption => exact (s.grant_cases _ _).imp id fun ⟨hnext, he⟩ => ⟨a, hadoption, hnext, he⟩
  · exact .inl rfl

theorem eventRecordGrantStep_cases (s : State) : eventRecordGrantStep s = s ∨
    s.evtSource = some .record ∧ s.nextGrant = some .evt ∧
      eventRecordGrantStep s = (s.granted .evt).recordGranted := by
  unfold eventRecordGrantStep
  split
  · next hsource => exact (s.grant_cases _ _).imp id fun ⟨hnext, he⟩ => ⟨hsource, hnext, he⟩
  · exact .inl rfl

theorem State.recordGranted_eq (s : State) : s.recordGranted = { s with ew := s.recordGranted.ew } := by
  unfold State.recordGranted
  split <;> rfl

theorem ringWordGrantStep_cases (s : State) : ringWordGrantStep s = s ∨
    s.evtSource = some .ringWord ∧ s.nextGrant = some .evt ∧
      ringWordGrantStep s = (s.granted .evt).ringWordGranted := by
  unfold ringWordGrantStep
  split
  · next hsource => exact (s.grant_cases _ _).imp id fun ⟨hnext, he⟩ => ⟨hsource, hnext, he⟩
  · exact .inl rfl

/-- The ring word's pending write is over, and only the condition of the head that waited for it may change. -/
theorem State.ringWordGranted_cases (s : State) :
    ((∀ h rest, s.cbp.head = .ringWord → s.cbp.queue ≠ h :: rest) ∧
      s.ringWordGranted = { s with ew := { s.ew with ringWordDue := false } }) ∨
    ∃ h rest, s.cbp.head = .ringWord ∧ s.cbp.queue = h :: rest ∧ s.ringWordGranted =
      { s with ew := { s.ew with ringWordDue := false }, cbp := { s.cbp with head := .writing h.through false } } := by
  unfold State.ringWordGranted
  dsimp only
  split
  · next h rest hhead hqueue => exact .inr ⟨h, rest, hhead, hqueue, rfl⟩
  · next hno => exact .inl ⟨fun h rest hhead hqueue => hno h rest hhead hqueue, rfl⟩

theorem statusZoneGrantStep_cases (s : State) : statusZoneGrantStep s = s ∨
    s.evtSource = some .status ∧ s.nextGrant = some .evt ∧
      statusZoneGrantStep s = (s.granted .evt).statusGranted := by
  unfold statusZoneGrantStep
  split
  · next hsource => exact (s.grant_cases _ _).imp id fun ⟨hnext, he⟩ => ⟨hsource, hnext, he⟩
  · exact .inl rfl

theorem State.statusGranted_eq (s : State) : s.statusGranted = { s with ew := { s.ew with
    rewrite := s.statusGranted.ew.rewrite } } := by
  unfold State.statusGranted
  (repeat' split) <;> rfl

/-! ### Ramps, light and the exchange -/

theorem rampTickExpiryStep_eq (s : State) : rampTickExpiryStep s = { s with re := { s.re with
    deferred := (rampTickExpiryStep s).re.deferred, passesDue := (rampTickExpiryStep s).re.passesDue } } := by
  unfold rampTickExpiryStep
  (repeat' split) <;> rfl

theorem wayPassStep_cases (w : Way) (s : State) : wayPassStep w s = s ∨
    s.re.passesDue[w] ≠ 0 ∧ wayPassStep w s = (s.takePass w).passWay w := by
  unfold wayPassStep
  split
  · exact .inl rfl
  · next h => exact .inr ⟨h, rfl⟩

theorem arbiterOccasionStep_cases (s : State) : arbiterOccasionStep s = s ∨
    s.re.occasionDue = true ∧ s.pu.adoption = none ∧ arbiterOccasionStep s = s.occasion := by
  unfold arbiterOccasionStep
  split
  · next h => exact .inr ⟨h.1, h.2, rfl⟩
  · exact .inl rfl

theorem checkIntervalExpiryStep_eq (s : State) : checkIntervalExpiryStep s = { s with
    lm := { s.lm with
      evalsDue := (checkIntervalExpiryStep s).lm.evalsDue, evalAhead := (checkIntervalExpiryStep s).lm.evalAhead }
    ew := { s.ew with
      rewrite := (checkIntervalExpiryStep s).ew.rewrite, recordFirst := (checkIntervalExpiryStep s).ew.recordFirst } } := by
  unfold checkIntervalExpiryStep
  split <;> rfl

/-- One evaluation of a way fewer is owed, or the next expiry's is taken ahead (R95; log 9). -/
def State.takeEvaluation (s : State) (w : Way) : State :=
  { s with lm := { s.lm with
      evalsDue := s.lm.evalsDue.set w (s.lm.evalsDue[w] - 1)
      evalAhead := if 0 < s.lm.evalsDue[w] then s.lm.evalAhead else s.lm.evalAhead.set w true } }

theorem wayEvaluationStep_of_due {s : State} {w : Way} (htimer : s.lm.checkTimer = true)
    (hdue : 0 < s.lm.evalsDue[w] ∨ s.lm.evalAhead[w] = false) :
    wayEvaluationStep w s = (s.takeEvaluation w).evaluateWay w := by
  unfold wayEvaluationStep State.takeEvaluation
  rw [if_neg (by rw [htimer]; decide)]
  split
  · rfl
  · next hnone =>
    have hahead : s.lm.evalAhead[w] = false := hdue.resolve_left hnone
    have hzero : s.lm.evalsDue[w] = 0 := Nat.eq_zero_of_not_pos hnone
    have hset : s.lm.evalsDue.set w (s.lm.evalsDue[w] - 1) = s.lm.evalsDue := by
      rw [hzero]
      conv_rhs => rw [← Vector.set_getElem_self w.isLt (xs := s.lm.evalsDue)]
      congr 1
      exact hzero.symm
    rw [if_neg (by rw [hahead]; decide), hset]

theorem wayEvaluationStep_cases (w : Way) (s : State) : wayEvaluationStep w s = s ∨
    s.lm.checkTimer = true ∧ wayEvaluationStep w s = (s.takeEvaluation w).evaluateWay w := by
  by_cases htimer : s.lm.checkTimer = true
  · by_cases hdue : 0 < s.lm.evalsDue[w] ∨ s.lm.evalAhead[w] = false
    · exact .inr ⟨htimer, wayEvaluationStep_of_due htimer hdue⟩
    · refine .inl ?_
      obtain ⟨hnone, hahead⟩ := not_or.1 hdue
      unfold wayEvaluationStep
      rw [if_neg (by rw [htimer]; decide), if_neg hnone, if_pos (Bool.not_eq_false _ ▸ hahead)]
  · refine .inl ?_
    unfold wayEvaluationStep
    rw [if_pos (Bool.not_eq_true _ ▸ htimer)]

theorem exchangeSwapStep_cases (s : State) : exchangeSwapStep s = s ∨ ∃ x d src, s.xe.running = some x ∧
    x.stage = .swap ∧ destOfNat (keyDest x.keyWord) = some d ∧ pathSource d x.pathWord = some src ∧
    exchangeSwapStep s = s.swapEntry x d src (pathAttn x.pathWord) := by
  unfold exchangeSwapStep
  split
  · next x hx =>
    split
    · next hstage =>
      split
      · next d hd =>
        split
        · next src hsrc => exact .inr ⟨x, d, src, hx, hstage, hd, hsrc, rfl⟩
        · exact .inl rfl
      · exact .inl rfl
    · exact .inl rfl
  · exact .inl rfl

theorem adoptionStartStep_cases (s : State) : adoptionStartStep s = s ∨ ∃ a, s.pu.adoption = some a ∧
    a.stage = .drain ∧ s.dt.updates = [] ∧ adoptionStartStep s = { s with
      dt := { s.dt with ports := Vector.replicate 48 { holder := none, claimant := none } }
      pu := { s.pu with adoption := some { a with stage := .mask 0 } } } := by
  unfold adoptionStartStep
  split
  · next a ha =>
    split
    · next h => exact .inr ⟨a, ha, h.1, h.2, rfl⟩
    · exact .inl rfl
  · exact .inl rfl

end Sys2Proof.Machine

/-! What every command but those of reset and preload keeps: the queue of commands, the settings, memory but for a grant's
access, the load law, the ring law and the exchange law; and, beside the light monitor's own commands, the ways. -/

namespace Sys2Proof.Machine

/-! ### The ring law (R138 to R141) -/

section RingLaw
variable {s t : State}

/-- The ring law reads the ring, EVT_N and the two bounds alone. -/
theorem State.ringLaw.carry (h : s.ringLaw) (hparams : t.pu.params = s.pu.params) (hhead : t.ew.head = s.ew.head)
    (htail : t.ew.tail = s.ew.tail) (hstage : t.ew.stage = s.ew.stage) (hevt : t.ew.evtAsserted = s.ew.evtAsserted)
    (hqueue : s.ew.queue.length ≤ 8 → t.ew.queue.length ≤ 8) (hdropped : s.ew.dropped ≤ 65535 → t.ew.dropped ≤ 65535) :
    t.ringLaw := by
  constructor
  · rw [hparams]; exact h.length
  · rw [hparams, hhead]; exact h.head
  · rw [hparams, htail]; exact h.tail
  · rw [hparams, hhead, htail, hstage]; exact h.room
  · rw [hhead, htail, hevt]; exact h.interrupt
  · exact hqueue h.queue
  · exact hdropped h.dropped

theorem State.ringLaw_of_raises (hraised : s.raises t) (hparams : t.pu.params = s.pu.params) (h : s.ringLaw) :
    t.ringLaw := by
  have hwriter := hraised.writer
  exact h.carry hparams (by rw [hwriter]) (by rw [hwriter]) (by rw [hwriter]) (by rw [hwriter]) hraised.queueBound
    hraised.droppedBound

theorem State.ringLaw_congr (hew : t.ew = s.ew) (hparams : t.pu.params = s.pu.params) : s.ringLaw → t.ringLaw :=
  State.ringLaw_of_raises (State.raises_of_ew hew) hparams

/-- An offset from the tail within the ring. -/
theorem ring_offset {length v tail : Nat} (hv : v < length) (ht : tail < length) :
    (v + length - tail) % length = if tail ≤ v then v - tail else v + length - tail := by
  split
  · next hle =>
    rw [show v + length - tail = v - tail + length by omega, Nat.add_mod_right, Nat.mod_eq_of_lt (by omega)]
  · exact Nat.mod_eq_of_lt (by omega)

theorem ring_next {length head : Nat} (h : head < length) :
    (head + 1) % length = if head + 1 = length then 0 else head + 1 := by
  split
  · next he => rw [he, Nat.mod_self]
  · exact Nat.mod_eq_of_lt (by omega)

theorem State.tailAccepted_iff (s : State) (v : Nat) : s.tailAccepted v = true ↔ v < s.pu.params.ringLength ∧
    (v + s.pu.params.ringLength - s.ew.tail) % s.pu.params.ringLength ≤
      (s.ew.head + s.pu.params.ringLength - s.ew.tail) % s.pu.params.ringLength := by
  rw [State.tailAccepted, Bool.and_eq_true, decide_eq_true_eq, decide_eq_true_eq]

/-- A tail accepted lies between the tail and the head, and the place behind the head lies outside that span. -/
theorem State.moveTail_ringLaw {v : Nat} (h : s.ringLaw) (hv : s.tailAccepted v = true) (hne : v ≠ s.ew.tail) :
    (s.moveTail v).ringLaw := by
  obtain ⟨hlt, hspan⟩ := (s.tailAccepted_iff v).1 hv
  rw [ring_offset hlt h.tail, ring_offset h.head h.tail] at hspan
  have hhead := h.head
  have htail := h.tail
  have hunread : s.ew.head ≠ s.ew.tail := fun he => by
    rw [he] at hspan
    split_ifs at hspan <;> omega
  refine ⟨h.length, h.head, hlt, fun hstage => ?_, ?_, h.queue, h.dropped⟩
  · have hroom := h.room hstage
    change (s.ew.head + 1) % s.pu.params.ringLength ≠ v
    rw [ring_next hhead] at hroom ⊢
    split_ifs at hspan hroom ⊢ <;> omega
  · change (s.ew.evtAsserted && decide (v ≠ s.ew.head)) = decide (s.ew.head ≠ v)
    rw [h.interrupt, decide_eq_true hunread, Bool.true_and, decide_eq_decide]
    exact ne_comm

/-- A record's grant is made only where the ring has room, at its first grant because EVT presents none else (R140). -/
theorem State.recordGranted_ringLaw (hsource : s.evtSource = some .record) (h : s.ringLaw) : s.recordGranted.ringLaw := by
  have hroom : (s.ew.head + 1) % s.pu.params.ringLength ≠ s.ew.tail := by
    by_cases hstage : s.ew.stage = 0
    · have hready : s.recordReady = true := by
        unfold State.evtSource at hsource
        rw [if_neg (not_not.2 hstage)] at hsource
        split_ifs at hsource with _ _ hready
        · cases hsource
        · cases hsource
        · exact hready
      have hring : s.ringHasRoom = true := by
        rw [State.recordReady, Bool.and_eq_true] at hready
        exact hready.2
      simpa [State.ringHasRoom] using hring
    · exact h.room hstage
  unfold State.recordGranted
  split
  · exact ⟨h.length, h.head, h.tail, fun _ => hroom, h.interrupt, h.queue, h.dropped⟩
  · refine ⟨h.length, Nat.mod_lt _ (by have := h.length; omega), h.tail, fun hstage => absurd rfl hstage, ?_, ?_, h.dropped⟩
    · exact (decide_eq_true hroom).symm
    · have hlen := h.queue
      change s.ew.queue.tail.length ≤ 8
      rw [List.length_tail]
      omega

end RingLaw

/-! ### The exchange law (R110 to R112) -/

section ExchangeLaw
variable {s t : State}

theorem State.exchangeLaw_of_sublist (hlist : t.xe.list.Sublist s.xe.list) (hparams : t.pu.params = s.pu.params)
    (h : s.exchangeLaw) : t.exchangeLaw := by
  refine ⟨h.plans.sublist (hlist.map _), fun r hr => by rw [hparams]; exact h.faults r (hlist.subset hr),
    fun before r after he horigin => ?_, hlist.length_le.trans h.bound⟩
  obtain ⟨front, back, hs, -, hback⟩ := List.append_sublist_iff.1 (he ▸ hlist)
  obtain ⟨mid, tail, htail, hmid, hafter⟩ := List.cons_sublist_iff.1 hback
  obtain ⟨p, q, hpq⟩ := List.append_of_mem hmid
  have hend := h.controllerLast (front ++ p) r (q ++ tail) (by rw [hs, htail, hpq]; simp) horigin
  rw [(List.append_eq_nil_iff.1 hend).2] at hafter
  exact List.sublist_nil.1 hafter

theorem State.exchangeLaw_congr (hxe : t.xe.list = s.xe.list) (hparams : t.pu.params = s.pu.params) :
    s.exchangeLaw → t.exchangeLaw := State.exchangeLaw_of_sublist (by rw [hxe]) hparams

/-- The fault requests name distinct ways, so with the controller's there are at most five. -/
theorem exchangeList_bound {list : List ExchangeRequest} {plan : Vector (Option Plan) 4}
    (hplans : (list.map ExchangeRequest.plan).Nodup)
    (hfaults : ∀ r ∈ list, ∀ w, r.origin = .fault w → plan[w] = some r.plan)
    (hlast : ∀ before r after, list = before ++ r :: after → r.origin = .controller → after = []) : list.length ≤ 5 := by
  have horigins : (list.map ExchangeRequest.origin).Nodup := by
    refine List.pairwise_map.2 (List.pairwise_iff_forall_sublist.2 fun {a b} hab he => ?_)
    have ha : a ∈ list := hab.subset (by simp)
    have hb : b ∈ list := hab.subset (by simp)
    cases horigin : a.origin with
    | controller =>
      obtain ⟨front, back, hs, ha', hb'⟩ := List.cons_sublist_iff.1 hab
      obtain ⟨p, q, hpq⟩ := List.append_of_mem ha'
      have hend := hlast p a (q ++ back) (by rw [hs, hpq]; simp) horigin
      rw [(List.append_eq_nil_iff.1 hend).2] at hb'
      exact absurd (List.sublist_nil.1 hb') (List.cons_ne_nil _ _)
    | fault w =>
      have hpa := hfaults a ha w horigin
      have hpb := hfaults b hb w (he ▸ horigin)
      have hne := List.pairwise_iff_forall_sublist.1 (List.pairwise_map.1 hplans) hab
      exact hne (Option.some.inj (hpa.symm.trans hpb))
  have hsub : list.map ExchangeRequest.origin ⊆
      [.controller, .fault 0, .fault 1, .fault 2, .fault 3] := fun o _ => by
    cases o with
    | controller => simp
    | fault w => fin_cases w <;> simp
  have hlen := (List.Nodup.subperm horigins hsub).length_le
  rwa [List.length_map] at hlen

theorem ExchangeRequest.isFault_eq_false_iff (r : ExchangeRequest) : r.isFault = false ↔ r.origin = .controller := by
  unfold ExchangeRequest.isFault
  cases r.origin <;> simp

/-- What CMD_EXCHANGE lists keeps the law: no request of the controller and none of the plan stood in the list (R112). -/
theorem State.controllerRequest_exchangeLaw (h : s.exchangeLaw) {v : Nat} (hv : v < 8)
    (hfree : ¬ ((s.xe.list.any fun r => !r.isFault) || (s.listedFor ⟨v, hv⟩).isSome) = true) :
    (s.setExchangeList (s.xe.list ++ [{ origin := .controller, plan := ⟨v, hv⟩ }])).exchangeLaw := by
  rw [Bool.or_eq_true, not_or] at hfree
  obtain ⟨hnone, hplan⟩ := hfree
  have hfaults : ∀ r ∈ s.xe.list, r.origin ≠ .controller := fun r hr he =>
    hnone (List.any_eq_true.2 ⟨r, hr, by rw [(ExchangeRequest.isFault_eq_false_iff r).2 he]; rfl⟩)
  have hnew : ∀ r ∈ s.xe.list, r.plan ≠ ⟨v, hv⟩ := fun r hr he =>
    hplan (List.find?_isSome.2 ⟨r, hr, by rw [he]; exact beq_self_eq_true _⟩)
  have hplans : ((s.xe.list ++ [({ origin := .controller, plan := ⟨v, hv⟩ } : ExchangeRequest)]).map
      ExchangeRequest.plan).Nodup := by
    rw [List.map_append]
    refine List.nodup_append.2 ⟨h.plans, List.nodup_singleton _, fun p hp q hq hpq => ?_⟩
    obtain ⟨r, hr, rfl⟩ := List.mem_map.1 hp
    exact hnew r hr (hpq.trans (List.mem_singleton.1 hq))
  have hnamed : ∀ r ∈ s.xe.list ++ [({ origin := .controller, plan := ⟨v, hv⟩ } : ExchangeRequest)], ∀ w,
      r.origin = .fault w → s.pu.params.plan[w] = some r.plan := fun r hr w horigin => by
    obtain hr | hr := List.mem_append.1 hr
    · exact h.faults r hr w horigin
    · rw [List.mem_singleton.1 hr] at horigin
      cases horigin
  have hlast : ∀ before r after, s.xe.list ++ [({ origin := .controller, plan := ⟨v, hv⟩ } : ExchangeRequest)] =
      before ++ r :: after → r.origin = .controller → after = [] := fun before r after he horigin => by
    obtain rfl | ⟨init, last, rfl⟩ := after.eq_nil_or_concat
    · rfl
    · rw [List.concat_eq_append, ← List.cons_append, ← List.append_assoc] at he
      have hmem : r ∈ s.xe.list := by
        rw [(List.append_inj_left' he rfl)]
        simp
      exact absurd horigin (hfaults r hmem)
  exact ⟨hplans, hnamed, hlast, exchangeList_bound hplans hnamed hlast⟩

/-- A fault request listed behind the fault requests keeps the law (R111). -/
theorem State.insertFault_exchangeLaw (h : s.exchangeLaw) {w : Way} {p : Plan} (hw : s.pu.params.plan[w] = some p)
    (hfree : s.listedFor p = none) :
    (s.setExchangeList (insertFault { origin := .fault w, plan := p } s.xe.list)).exchangeLaw := by
  have hnew : ∀ r ∈ s.xe.list, r.plan ≠ p := fun r hr he =>
    absurd (List.find?_eq_none.1 hfree r hr) (by rw [he]; simp)
  have hperm : (insertFault { origin := .fault w, plan := p } s.xe.list).Perm
      ({ origin := .fault w, plan := p } :: s.xe.list) := by
    unfold insertFault
    rw [List.append_assoc, List.singleton_append]
    refine List.perm_middle.trans ?_
    rw [List.takeWhile_append_dropWhile]
  have hplans : ((insertFault { origin := .fault w, plan := p } s.xe.list).map ExchangeRequest.plan).Nodup := by
    refine (hperm.map _).nodup_iff.2 (List.nodup_cons.2 ⟨fun hp => ?_, h.plans⟩)
    obtain ⟨r, hr, he⟩ := List.mem_map.1 hp
    exact hnew r hr he
  have hnamed : ∀ r ∈ insertFault { origin := .fault w, plan := p } s.xe.list, ∀ k,
      r.origin = .fault k → s.pu.params.plan[k] = some r.plan := fun r hr k horigin => by
    obtain rfl | hr := List.mem_cons.1 (hperm.mem_iff.1 hr)
    · cases horigin
      exact hw
    · exact h.faults r hr k horigin
  have hlast : ∀ before r after, insertFault { origin := .fault w, plan := p } s.xe.list = before ++ r :: after →
      r.origin = .controller → after = [] := fun before r after he horigin => by
    have hnot : r.isFault = false := (ExchangeRequest.isFault_eq_false_iff r).2 horigin
    have hfront : ∀ q ∈ s.xe.list.takeWhile ExchangeRequest.isFault ++ [{ origin := .fault w, plan := p }],
        q.isFault = true := fun q hq => by
      obtain hq | hq := List.mem_append.1 hq
      · exact List.mem_takeWhile_imp hq
      · rw [List.mem_singleton.1 hq]; rfl
    obtain ⟨mid, hbefore, hdrop⟩ | ⟨mid, hfrontEq, hdrop⟩ := List.append_eq_append_iff.1 he
    · have hmem := List.takeWhile_append_dropWhile (p := ExchangeRequest.isFault) (l := s.xe.list)
      exact h.controllerLast (s.xe.list.takeWhile ExchangeRequest.isFault ++ mid) r after
        (by rw [List.append_assoc, ← hdrop, hmem]) horigin
    · cases mid with
      | nil =>
        have hmem := List.takeWhile_append_dropWhile (p := ExchangeRequest.isFault) (l := s.xe.list)
        exact h.controllerLast (s.xe.list.takeWhile ExchangeRequest.isFault) r after
          (by rw [show r :: after = _ from hdrop, List.nil_append, hmem]) horigin
      | cons q mid =>
        obtain ⟨rfl, -⟩ := List.cons.inj hdrop
        rw [hfront r (by rw [hfrontEq]; simp)] at hnot
        cases hnot
  exact ⟨hplans, hnamed, hlast, exchangeList_bound hplans hnamed hlast⟩

end ExchangeLaw

/-! ### What a command keeps -/

/-- The free values' counter, the settings, memory, the load law, the ring law and the exchange law stand. -/
structure State.proceeds (s t : State) : Prop where
  pending : t.pending = s.pending
  freeCount : t.freeCount = s.freeCount
  settings : t.pu = { s.pu with adoption := t.pu.adoption }
  mem : t.mem = s.mem
  load : s.loadLaw → t.loadLaw
  ring : s.ringLaw → t.ringLaw
  exchange : s.exchangeLaw → t.exchangeLaw

/-- So do the ways, their lines and the DT's isolated indications. -/
structure State.carriesOn (s t : State) : Prop extends s.proceeds t where
  lm : t.lm = s.lm
  los : t.los = s.los
  isolated : t.dt.isolated = s.dt.isolated

/-- With the event writer and the exchange engine alone their laws stand. -/
theorem State.proceeds.of_blocks {s t : State} (hpending : t.pending = s.pending) (hfree : t.freeCount = s.freeCount)
    (hpu : t.pu = { s.pu with adoption := t.pu.adoption }) (hmem : t.mem = s.mem) (hload : s.loadLaw → t.loadLaw)
    (hew : t.ew = s.ew) (hxe : t.xe = s.xe) : s.proceeds t :=
  ⟨hpending, hfree, hpu, hmem, hload, State.ringLaw_congr hew (by rw [hpu]),
    State.exchangeLaw_congr (by rw [hxe]) (by rw [hpu])⟩

theorem State.proceeds.refl (s : State) : s.proceeds s := .of_blocks rfl rfl rfl rfl id rfl rfl

theorem State.proceeds.trans {s t u : State} (h : s.proceeds t) (k : t.proceeds u) : s.proceeds u :=
  ⟨k.pending.trans h.pending, k.freeCount.trans h.freeCount, by rw [k.settings, h.settings], k.mem.trans h.mem,
    k.load ∘ h.load, k.ring ∘ h.ring, k.exchange ∘ h.exchange⟩

theorem State.carriesOn.refl (s : State) : s.carriesOn s := ⟨.refl s, rfl, rfl, rfl⟩

theorem State.carriesOn.trans {s t u : State} (h : s.carriesOn t) (k : t.carriesOn u) : s.carriesOn u :=
  ⟨h.toproceeds.trans k.toproceeds, k.lm.trans h.lm, k.los.trans h.los, k.isolated.trans h.isolated⟩

theorem State.requested.carriesOn {s t : State} {tag : Option Nat} (h : s.requested t tag) : s.carriesOn t :=
  ⟨⟨h.outside.pending, h.outside.freeCount, by rw [h.outside.pu], h.outside.mem, h.load,
      State.ringLaw_of_raises h.raised (by rw [h.outside.pu]),
      State.exchangeLaw_congr (by rw [h.outside.xe]) (by rw [h.outside.pu])⟩, h.outside.lm, h.outside.los,
    by rw [h.dt]⟩

theorem State.requests.carriesOn {s t : State} (h : s.requests t) : s.carriesOn t := (h.requested none).carriesOn

section Blocks
variable {s t : State}

/-- The blocks that a change of the bus port, the sets, the masks and the pointers touches are none of these. -/
theorem State.carriesOn.setBlocks (h : s.carriesOn t) (cbp : BusPort) (csa : SetAssembler)
    (masks : Vector (Option Word) 12) (tmp : MemoryPort) :
    s.carriesOn { t with cbp := cbp, csa := csa, masks := masks, tmp := tmp } :=
  h.trans ⟨.of_blocks rfl rfl rfl rfl id rfl rfl, rfl, rfl, rfl⟩

theorem State.carriesOn.setCbp (h : s.carriesOn t) (cbp : BusPort) : s.carriesOn { t with cbp := cbp } :=
  h.setBlocks cbp _ _ _

theorem State.carriesOn.setMask (h : s.carriesOn t) (m : Fin 12) (w : Word) : s.carriesOn (t.setMask m w) :=
  h.setBlocks _ _ _ _

/-- The event writer may change as the ring law allows. -/
theorem State.carriesOn.setEw (h : s.carriesOn t) {ew : EventWriter}
    (hring : t.ringLaw → State.ringLaw { t with ew := ew }) : s.carriesOn { t with ew := ew } :=
  h.trans ⟨⟨rfl, rfl, rfl, rfl, id, hring, State.exchangeLaw_congr rfl rfl⟩, rfl, rfl, rfl⟩

/-- So may its timebase, its pending ring word and its rewrite. -/
theorem State.carriesOn.setWriter (h : s.carriesOn t) (timebase : Word) (due : Bool) (rewrite : Option StatusRewrite)
    (first : Bool) : s.carriesOn { t with ew := { t.ew with
      timebase := timebase, ringWordDue := due, rewrite := rewrite, recordFirst := first } } :=
  h.setEw fun hring => ⟨hring.length, hring.head, hring.tail, hring.room, hring.interrupt, hring.queue, hring.dropped⟩

/-- The exchange engine may change as the exchange law allows. -/
theorem State.carriesOn.setXe (h : s.carriesOn t) {xe : ExchangeEngine}
    (hlaw : t.exchangeLaw → State.exchangeLaw { t with xe := xe }) : s.carriesOn { t with xe := xe } :=
  h.trans ⟨⟨rfl, rfl, rfl, rfl, id, State.ringLaw_congr rfl rfl, hlaw⟩, rfl, rfl, rfl⟩

/-- So may its list lose requests, and its running exchange and its conditions change. -/
theorem State.carriesOn.setExchange (h : s.carriesOn t) {list : List ExchangeRequest} (hlist : list.Sublist t.xe.list)
    (conditions : Vector PlanCondition 8) (running : Option RunningExchange) :
    s.carriesOn { t with xe := { list := list, conditions := conditions, running := running } } :=
  h.setXe (State.exchangeLaw_of_sublist hlist rfl)

theorem State.carriesOn.setRunning (h : s.carriesOn t) (x : Option RunningExchange) : s.carriesOn (t.setRunning x) :=
  h.setExchange (.refl _) _ _

theorem State.carriesOn.setCondition (h : s.carriesOn t) (p : Plan) (c : PlanCondition) :
    s.carriesOn (t.setCondition p c) := h.setExchange (.refl _) _ _

theorem State.carriesOn.setAdoption (h : s.carriesOn t) (a : Option Adoption) : s.carriesOn (t.setAdoption a) :=
  h.trans ⟨.of_blocks rfl rfl rfl rfl id rfl rfl, rfl, rfl, rfl⟩

theorem State.carriesOn.emit (h : s.carriesOn t) (kind : RecordKind) (reason : Nat) (subject : BitVec 16) (a b : Word) :
    s.carriesOn (t.emit kind reason subject a b) :=
  h.trans ((State.requests.refl t).emit kind reason subject a b).carriesOn

theorem State.carriesOn.retireHead (h : s.carriesOn t) : s.carriesOn t.retireHead := by
  rw [State.retireHead_eq]
  exact h.setCbp _

theorem State.carriesOn.requested {u : State} {tag : Option Nat} (h : s.carriesOn t) (k : t.requested u tag) :
    s.carriesOn u := h.trans k.carriesOn

/-- Of the ramp engine the tick timer, the deferred tick, the passes owed and the occasion may change. -/
theorem State.carriesOn.setTicks (h : s.carriesOn t) (timer deferred occasion : Bool) (passes : Vector Nat 4) :
    s.carriesOn { t with re := { t.re with
      tickTimer := timer, deferred := deferred, passesDue := passes, occasionDue := occasion } } :=
  h.trans ⟨.of_blocks rfl rfl rfl rfl id rfl rfl, rfl, rfl, rfl⟩

/-- Of the table the port map and the update list may change. -/
theorem State.carriesOn.setTable (h : s.carriesOn t) (ports : Vector PortRecord 48) (updates : List UpdateEntry) :
    s.carriesOn { t with dt := { t.dt with ports := ports, updates := updates } } :=
  h.trans ⟨.of_blocks rfl rfl rfl rfl id rfl rfl, rfl, rfl, rfl⟩

theorem State.carriesOn.markAll (h : s.carriesOn t) (tag : Option Nat) (ds : List Dest) : s.carriesOn (t.markAll tag ds) :=
  h.setTable _ _

theorem State.carriesOn.buildRecord (h : s.carriesOn t) (d : Dest) (r : DestRecord) : s.carriesOn (t.buildRecord d r) :=
  h.trans ((((State.reworks.refl t).reportLoad d r).takeHolder d _).takeClaimant d _).torequests.carriesOn

theorem State.carriesOn.updateWritten (h : s.carriesOn t) : s.carriesOn t.updateWritten := by
  unfold State.updateWritten State.startTick
  dsimp only
  split
  · exact h.trans ⟨.of_blocks rfl rfl rfl rfl id rfl rfl, rfl, rfl, rfl⟩
  · exact h.setTable t.dt.ports _

end Blocks

/-! ### The exchange -/

theorem State.carriesOn.foldl {α : Type} {f : State → α → State} {s t : State}
    (hf : ∀ (u : State) (a : α), s.carriesOn u → s.carriesOn (f u a)) (l : List α) (h : s.carriesOn t) :
    s.carriesOn (l.foldl f t) := by
  induction l generalizing t with
  | nil => exact h
  | cons a l ih => exact ih (hf t a h)

/-- EXCHANGE_REFUSED with RESTART for one listed request (R122). -/
def State.refuseRequest (s : State) (r : ExchangeRequest) : State :=
  s.emit .exchangeRefused 4 (BitVec.ofNat 16 r.plan.val) (originDetail r.origin) 0#32

theorem State.refuseListed_eq (s : State) : s.refuseListed = { s.xe.list.foldl State.refuseRequest s with
    xe := { (s.xe.list.foldl State.refuseRequest s).xe with list := [] } } := by
  unfold State.refuseListed
  rfl

theorem State.refuseListed_carriesOn {s t : State} (h : s.carriesOn t) : s.carriesOn t.refuseListed := by
  have hfold : s.carriesOn (t.xe.list.foldl State.refuseRequest t) := h.foldl (fun _ _ hu => hu.emit _ _ _ _ _) _
  rw [State.refuseListed_eq]
  exact hfold.setExchange (List.nil_sublist _) _ _

theorem State.awaitAdoption_carriesOn {s t : State} (h : s.carriesOn t) : s.carriesOn t.awaitAdoption :=
  h.trans ⟨.of_blocks rfl rfl rfl rfl id rfl rfl, rfl, rfl, rfl⟩

theorem State.stopTicks_carriesOn {s t : State} (h : s.carriesOn t) : s.carriesOn t.stopTicks := h.setTicks _ _ _ _

theorem State.carryOutRestart_carriesOn (s : State) : s.carriesOn s.carryOutRestart := by
  unfold State.carryOutRestart
  refine State.awaitAdoption_carriesOn (State.refuseListed_carriesOn (State.stopTicks_carriesOn ?_))
  exact s.abortOpen_requests.carriesOn.requested s.abortOpen.restart_requested

theorem State.headGranted_carriesOn (s : State) : s.carriesOn s.headGranted := by
  obtain h | ⟨_, _, _, _, _, h⟩ | ⟨_, _, h⟩ | ⟨_, _, h⟩ := s.headGranted_cases <;> rw [h]
  · exact .refl s
  · exact (State.carriesOn.refl s).setCbp _
  · exact (State.carriesOn.refl s).retireHead
  · exact s.carryOutRestart_carriesOn

theorem State.skipEntry_carriesOn (s : State) (x : RunningExchange) (reason : SkipReason) (b : Word) :
    s.carriesOn (s.skipEntry x reason b) := ((State.carriesOn.refl s).emit _ _ _ _ _).setRunning _

theorem State.exchangeStep_carriesOn (s : State) (x : RunningExchange) (w : Word) : s.carriesOn (s.exchangeStep x w) := by
  unfold State.exchangeStep
  split
  · exact (State.carriesOn.refl s).setRunning _
  · unfold State.keyRead
    dsimp only
    split
    · exact (State.carriesOn.refl s).setRunning _
    · split
      · exact (State.carriesOn.refl s).setRunning _
      · exact s.skipEntry_carriesOn _ _ _
  · unfold State.planPathRead
    dsimp only
    split
    · exact (State.carriesOn.refl s).setRunning _
    · split
      · exact s.skipEntry_carriesOn _ _ _
      · split
        · exact s.skipEntry_carriesOn _ _ _
        · exact (State.carriesOn.refl s).setRunning _
  · exact .refl s
  · exact (State.carriesOn.refl s).setRunning _
  · exact ((State.carriesOn.refl s).emit _ _ _ _ _).setRunning _

theorem State.withdrawDirect_eq (s : State) : s.withdrawDirect = { s with cbp := s.withdrawDirect.cbp } := by
  unfold State.withdrawDirect
  dsimp only
  (repeat' split) <;> rfl

/-- The exchange of a request begins: the XE and the CBP alone change. -/
theorem State.beginExchange_eq (s : State) (r : ExchangeRequest) : s.beginExchange r = { s with
    cbp := (s.beginExchange r).cbp
    xe := { s.xe with running := some { request := r, step := 0, swapped := 0, skipped := 0, stage := .header
                                        keyWord := 0#32, pathWord := 0#32 } } } := by
  unfold State.beginExchange
  rw [State.withdrawDirect_eq]
  rfl

/-- What an EXCHANGE_START that goes through a list can do: the list shrinks to what stands behind the request begun. -/
theorem State.startFrom_carriesOn (l : List ExchangeRequest) {s t : State} (h : s.carriesOn t)
    (hl : l.Sublist t.xe.list) : s.carriesOn (State.startFrom l t) := by
  induction l generalizing t with
  | nil => exact h.setExchange (List.nil_sublist _) _ _
  | cons r rest ih =>
    have hrest : rest.Sublist t.xe.list := (List.sublist_cons_self r rest).trans hl
    unfold State.startFrom
    split
    · exact ih (h.emit _ _ _ _ _) (by rw [State.emit_xe]; exact hrest)
    · rw [State.beginExchange_eq]
      exact (h.setExchange hrest t.xe.conditions (some
        { request := r, step := 0, swapped := 0, skipped := 0, stage := .header, keyWord := 0#32, pathWord := 0#32 })).setCbp _

theorem exchangeStartStep_carriesOn (s : State) : s.carriesOn (exchangeStartStep s) := by
  unfold exchangeStartStep
  split
  · exact State.startFrom_carriesOn _ (.refl s) (.refl _)
  · exact .refl s

theorem State.swapEntry_carriesOn (s : State) (x : RunningExchange) (d : Dest) (src : Source) (attn : Attn) :
    s.carriesOn (s.swapEntry x d src attn) := by
  unfold State.swapEntry
  split
  · exact s.skipEntry_carriesOn _ _ _
  · exact (s.swap_requested d src attn).carriesOn.setRunning _

/-! ### Adoption -/

theorem State.endAdoption_carriesOn {s t : State} (h : s.carriesOn t) (a : Adoption) : s.carriesOn (t.endAdoption a) := by
  unfold State.endAdoption
  dsimp only
  have hdone := (((h.emit .adoptionDone 0 0#16 (BitVec.ofNat 32 a.adopted) (BitVec.ofNat 32 a.fixed)).setCbp
    { (t.emit .adoptionDone 0 0#16 (BitVec.ofNat 32 a.adopted) (BitVec.ofNat 32 a.fixed)).cbp with
      lock := lockAfterAdoption
        (t.emit .adoptionDone 0 0#16 (BitVec.ofNat 32 a.adopted) (BitVec.ofNat 32 a.fixed)).pu.lockout }).setTicks true
    (t.emit .adoptionDone 0 0#16 (BitVec.ofNat 32 a.adopted) (BitVec.ofNat 32 a.fixed)).re.deferred true
    (t.emit .adoptionDone 0 0#16 (BitVec.ofNat 32 a.adopted) (BitVec.ofNat 32 a.fixed)).re.passesDue).setAdoption none
  have hoccasion := hdone.requested (State.occasion_requested _)
  split
  · exact hoccasion.retireHead
  · exact hoccasion

theorem State.afterHeader_carriesOn {s t : State} (h : s.carriesOn t) (a : Adoption) (p : Plan) :
    s.carriesOn (t.afterHeader a p) := by
  unfold State.afterHeader
  split
  · exact h.setAdoption _
  · exact State.endAdoption_carriesOn h a

theorem State.adoptionStep_carriesOn (s : State) (a : Adoption) (w : Word) : s.carriesOn (s.adoptionStep a w) := by
  have h := State.carriesOn.refl s
  unfold State.adoptionStep
  split
  · exact h
  · exact (h.setMask _ _).setAdoption _
  · unfold State.adoptWord
    split
    · exact (((h.buildRecord _ _).emit _ _ _ _ _).markAll _ _).setAdoption _
    · unfold State.adoptFound
      dsimp only
      split
      · exact (h.buildRecord _ _).setAdoption _
      · exact ((h.buildRecord _ _).setAdoption _).markAll _ _
  · exact h.setAdoption _
  · unfold State.adoptHeader
    split
    · exact State.afterHeader_carriesOn (h.setCondition _ _) a _
    · split
      · exact State.afterHeader_carriesOn (h.setCondition _ _) a _
      · exact ((h.setCondition _ _).emit _ _ _ _ _).setAdoption _
  · exact State.afterHeader_carriesOn h a _

/-! ### Light -/

theorem State.faultRequest_carriesOn (s : State) {w : Way} {p : Plan} (hw : s.pu.params.plan[w] = some p) :
    s.carriesOn (s.faultRequest w p) := by
  have h := State.carriesOn.refl s
  unfold State.faultRequest
  split
  · exact h.emit _ _ _ _ _
  · next hfree =>
    split
    · exact h.emit _ _ _ _ _
    · split
      · exact h.emit _ _ _ _ _
      · exact h.setXe fun hlaw => State.insertFault_exchangeLaw hlaw hw hfree

section Light
variable {s t : State}

theorem State.carriesOn.proceeds (h : s.carriesOn t) : s.proceeds t := h.toproceeds

theorem State.proceeds.setLight (h : s.proceeds t) (lm : LightMonitor) (los : Vector Bool 4) :
    s.proceeds { t with lm := lm, los := los } :=
  h.trans (.of_blocks rfl rfl rfl rfl id rfl rfl)

theorem State.proceeds.setWay (h : s.proceeds t) (w : Way) (r : WayRecord) : s.proceeds (t.setWay w r) := h.setLight _ _

theorem State.proceeds.emitWayState (h : s.proceeds t) (w : Way) (old : WayState) (r : WayRecord) :
    s.proceeds (t.emitWayState w old r) :=
  h.trans ((State.carriesOn.refl t).emit _ _ _ _ _).proceeds

theorem State.proceeds.setIsolated (h : s.proceeds t) (w : Way) (b : Bool) : s.proceeds (t.setIsolated w b) :=
  h.trans (.of_blocks rfl rfl rfl rfl id rfl rfl)

theorem State.proceeds.isolate (h : s.proceeds t) (w : Way) : s.proceeds (t.isolate w) :=
  (h.setIsolated w true).trans (t.isolate_requested w).carriesOn.proceeds

theorem State.proceeds.release (h : s.proceeds t) (w : Way) (tag : Option Nat) : s.proceeds (t.release w tag) :=
  (h.setIsolated w false).trans (t.release_requested w tag).carriesOn.proceeds

end Light

theorem State.callPlan_proceeds {s t : State} (h : s.proceeds t) (w : Way) : s.proceeds (t.callPlan w) := by
  unfold State.callPlan
  split
  · exact h
  · next p hp =>
    split
    · exact h
    · exact (h.trans (t.faultRequest_carriesOn hp).proceeds).setWay _ _

theorem State.evaluateWay_proceeds (s : State) (w : Way) : s.proceeds (s.evaluateWay w) := by
  have h := State.proceeds.refl s
  have hserving : ∀ r lossy, s.proceeds (s.evaluateServing w r lossy) := fun r lossy => by
    unfold State.evaluateServing
    dsimp only
    split
    · exact h.setWay _ _
    · split
      · exact ((h.setWay _ _).emitWayState _ _ _).isolate w
      · exact State.callPlan_proceeds ((h.setWay _ _).emitWayState _ _ _) w
      all_goals exact (h.setWay _ _).emitWayState _ _ _
  unfold State.evaluateWay
  dsimp only
  split
  · exact hserving _ _
  · exact hserving _ _
  · exact hserving _ _
  · unfold State.evaluateIsolated
    dsimp only
    split
    · exact h.setWay _ _
    · split
      · exact h.setWay _ _
      · split
        · exact (h.setWay _ _).emitWayState _ _ _
        · exact ((h.setWay _ _).emitWayState _ _ _).release w none
  · unfold State.evaluateAwaiting
    dsimp only
    split
    · exact (h.setWay _ _).emitWayState _ _ _
    · exact h.setWay _ _

/-! ### Every command -/

/-- The commands of the LM, which touch the ways and their lines, and CMD_RELEASE, which clears a way. -/
def monitorsLight : Instr → Bool
  | .cmdRelease | .checkIntervalExpiry | .losChange _ _ | .wayEvaluation _ => true
  | _ => false

/-- The commands of reset and preload. -/
def resetsPart : Instr → Bool
  | .resetAssert _ | .resetRelease _ _ _ | .preloadEnd _ => true
  | _ => false

/-- A command, or a grant's own part after its access. -/
def State.serves (s t : State) (keeps : State → State → Prop) : Prop :=
  keeps s t ∨ ∃ r, s.nextGrant = some r ∧ keeps (s.granted r) t

theorem commandStep_carriesOn {c : Instr} (s : State) (hreset : resetsPart c = false) (hlight : monitorsLight c = false) :
    s.serves (commandStep c s) State.carriesOn := by
  have h := State.carriesOn.refl s
  have hgrant : ∀ {r t}, s.nextGrant = some r → (s.granted r).carriesOn t → s.serves t State.carriesOn :=
    fun hr ht => .inr ⟨_, hr, ht⟩
  cases c with
  | resetAssert | resetRelease | preloadEnd => exact (Bool.noConfusion hreset)
  | cmdRelease | checkIntervalExpiry | losChange | wayEvaluation => exact (Bool.noConfusion hlight)
  | timebaseTick =>
    refine .inl ?_
    simp only [commandStep, timebaseTickStep]
    split
    · exact h
    · exact h.setWriter _ _ _ _
  | hostWrite a e d => rw [commandStep, hostWriteStep_eq]; exact .inl (h.setCbp _)
  | hostRead a e => rw [commandStep, hostReadStep_eq]; exact .inl (h.setCbp _)
  | delayedReadIssue i => rw [commandStep, delayedReadIssueStep_eq]; exact .inl (h.setCbp _)
  | discardTimerExpiry i =>
    obtain he | ⟨_, _, _, _, he⟩ := discardTimerExpiryStep_cases i s <;> rw [commandStep, he]
    · exact .inl h
    · exact .inl ((h.setCbp _).emit _ _ _ _ _)
  | pathWrite =>
    obtain he | ⟨_, _, _, _, he⟩ := pathWriteStep_cases s <;> rw [commandStep, he]
    · exact .inl h
    · exact .inl (h.requested (s.takePathWord_requested _ _ _ _)).retireHead
  | maskViewWrite =>
    have hnext : ∀ {t : State} {tag m todo}, s.carriesOn t → s.carriesOn (t.blockNext tag m todo) := fun {t} {tag m todo} ht => by
      obtain ⟨u, stage, hu, he⟩ := t.blockNext_requested tag m todo
      rw [he]
      exact (ht.requested hu).setCbp _
    obtain he | ⟨_, _, _, _, _, _, he⟩ | ⟨_, _, _, _, _, _, he⟩ := maskViewWriteStep_cases s <;> rw [commandStep, he]
    · exact .inl h
    · exact .inl (hnext h)
    · exact .inl (hnext (h.setMask _ _))
  | writeThrough =>
    obtain he | ⟨_, _, _, he⟩ := writeThroughStep_cases s <;> rw [commandStep, he]
    · exact .inl h
    · exact .inl (h.setCbp _)
  | planHeaderWrite =>
    obtain he | ⟨_, _, _, _, _, he | he⟩ := planHeaderWriteStep_cases s <;> rw [commandStep, he]
    · exact .inl h
    · exact .inl ((h.setCondition _ _).setCbp _)
    · exact .inl (h.emit _ _ _ _ _).retireHead
  | statusZoneWrite =>
    obtain he | ⟨_, _, _, he⟩ := statusZoneWriteStep_cases s <;> rw [commandStep, he]
    · exact .inl h
    · exact .inl (h.emit _ _ _ _ _).retireHead
  | narrowCommandWrite =>
    obtain he | ⟨_, _, _, he⟩ := narrowCommandWriteStep_cases s <;> rw [commandStep, he]
    · exact .inl h
    · exact .inl ((h.emit _ _ _ _ _).setCbp _)
  | cmdUnlock =>
    obtain he | ⟨_, _, he⟩ := cmdUnlockStep_cases s <;> rw [commandStep, he]
    · exact .inl h
    · exact .inl ((h.setCbp _).setCbp _)
  | cmdAbortSet =>
    obtain he | ⟨_, _, he⟩ := cmdAbortSetStep_cases s <;> rw [commandStep, he]
    · exact .inl h
    · exact .inl (s.abortOpen_requests.carriesOn.setCbp _)
  | cmdExchange =>
    obtain he | ⟨q, _, he⟩ := cmdExchangeStep_cases s <;> rw [commandStep, he]
    · exact .inl h
    · refine .inl (State.carriesOn.setCbp ?_ _)
      unfold State.controllerRequest
      split
      · exact h.emit _ _ _ _ _
      · next hfree =>
        split
        · next hv =>
          refine h.setXe fun hlaw => State.controllerRequest_exchangeLaw hlaw hv ?_
          unfold State.refusal at hfree
          rw [dif_pos hv] at hfree
          split_ifs at hfree
          assumption
        · exact h
  | cmdRingTail =>
    obtain he | ⟨_, _, ⟨_, _, he⟩ | ⟨hacc, hne, he⟩ | ⟨_, he⟩⟩ := cmdRingTailStep_cases s <;> rw [commandStep, he]
    · exact .inl h
    · exact .inl (h.setCbp _)
    · exact .inl ((h.setEw fun hring => State.moveTail_ringLaw hring hacc hne).setCbp _)
    · exact .inl ((h.emit _ _ _ _ _).setCbp _)
  | cmdRestart =>
    obtain he | ⟨_, _, he⟩ := cmdRestartStep_cases s <;> rw [commandStep, he]
    · exact .inl h
    · exact .inl (h.setCbp _)
  | ctlWriteGrant =>
    obtain he | ⟨_, hr, he⟩ := ctlWriteGrantStep_cases s <;> rw [commandStep, he]
    · exact .inl h
    · exact hgrant hr (State.headGranted_carriesOn _)
  | ctlReadGrant =>
    obtain he | ⟨hr, ⟨i, _, he⟩ | ⟨_, he⟩⟩ := ctlReadGrantStep_cases s <;> rw [commandStep, he]
    · exact .inl h
    · rw [State.slotGranted_eq]; exact hgrant hr ((State.carriesOn.refl _).setCbp _)
    · rw [State.directGranted_eq]; exact hgrant hr ((State.carriesOn.refl _).setCbp _)
  | tblGrant =>
    obtain he | ⟨hr, he⟩ := tblGrantStep_cases s <;> rw [commandStep, he]
    · exact .inl h
    · exact hgrant hr (State.carriesOn.refl _).updateWritten
  | rampTickExpiry => rw [commandStep, rampTickExpiryStep_eq]; exact .inl (h.setTicks _ _ _ _)
  | wayPass w =>
    obtain he | ⟨_, he⟩ := wayPassStep_cases w s <;> rw [commandStep, he]
    · exact .inl h
    · exact .inl ((h.setTicks _ _ _ _).requested (State.passWay_requested (s.takePass w) w))
  | arbiterOccasion =>
    obtain he | ⟨_, _, he⟩ := arbiterOccasionStep_cases s <;> rw [commandStep, he]
    · exact .inl h
    · exact .inl s.occasion_requested.carriesOn
  | exchangeStart => exact .inl (exchangeStartStep_carriesOn s)
  | exchangeAccessGrant =>
    obtain he | ⟨x, _, _, hr, he⟩ := exchangeAccessGrantStep_cases s <;> rw [commandStep, he]
    · exact .inl h
    · exact hgrant hr (State.exchangeStep_carriesOn _ _ _)
  | exchangeSwap =>
    obtain he | ⟨_, _, _, _, _, _, _, he⟩ := exchangeSwapStep_cases s <;> rw [commandStep, he]
    · exact .inl h
    · exact .inl (s.swapEntry_carriesOn _ _ _ _)
  | adoptionStart =>
    obtain he | ⟨_, _, _, _, he⟩ := adoptionStartStep_cases s <;> rw [commandStep, he]
    · exact .inl h
    · exact .inl ⟨.of_blocks rfl rfl rfl rfl id rfl rfl, rfl, rfl, rfl⟩
  | adoptionAccessGrant =>
    obtain he | ⟨a, _, hr, he⟩ := adoptionAccessGrantStep_cases s <;> rw [commandStep, he]
    · exact .inl h
    · exact hgrant hr (State.adoptionStep_carriesOn _ _ _)
  | eventRecordGrant =>
    obtain he | ⟨hsource, hr, he⟩ := eventRecordGrantStep_cases s <;> rw [commandStep, he]
    · exact .inl h
    · rw [State.recordGranted_eq]
      refine hgrant hr ((State.carriesOn.refl _).setEw fun hring => ?_)
      rw [← State.recordGranted_eq]
      exact State.recordGranted_ringLaw hsource hring
  | ringWordGrant =>
    obtain he | ⟨_, hr, he⟩ := ringWordGrantStep_cases s <;> rw [commandStep, he]
    · exact .inl h
    · obtain ⟨_, hg⟩ | ⟨_, _, _, _, hg⟩ := (s.granted .evt).ringWordGranted_cases <;> rw [hg]
      · exact hgrant hr ((State.carriesOn.refl (s.granted .evt)).setWriter _ _ _ _)
      · exact hgrant hr (((State.carriesOn.refl (s.granted .evt)).setWriter (s.granted .evt).ew.timebase false
          (s.granted .evt).ew.rewrite (s.granted .evt).ew.recordFirst).setCbp _)
  | statusZoneGrant =>
    obtain he | ⟨_, hr, he⟩ := statusZoneGrantStep_cases s <;> rw [commandStep, he]
    · exact .inl h
    · rw [State.statusGranted_eq]; exact hgrant hr ((State.carriesOn.refl (s.granted .evt)).setWriter _ _ _ _)

theorem State.manualRelease_proceeds (s : State) (v tag : Nat) : s.proceeds (s.manualRelease v tag) := by
  obtain ⟨code, he⟩ | ⟨w, _, _, he⟩ := s.manualRelease_cases v tag <;> rw [he]
  · exact ((State.carriesOn.refl s).emit _ _ _ _ _).proceeds
  · exact (((State.proceeds.refl s).setWay _ _).emitWayState _ _ _).release w _

theorem commandStep_proceeds {c : Instr} (s : State) (hreset : resetsPart c = false) :
    s.serves (commandStep c s) State.proceeds := by
  have h := State.proceeds.refl s
  by_cases hlight : monitorsLight c = true
  · refine .inl ?_
    cases c with
    | cmdRelease =>
      obtain he | ⟨_, _, he⟩ := cmdReleaseStep_cases s <;> rw [commandStep, he]
      · exact h
      · exact (s.manualRelease_proceeds _ _).trans ((State.carriesOn.refl _).setCbp _).proceeds
    | checkIntervalExpiry =>
      rw [commandStep, checkIntervalExpiryStep_eq]
      exact ((State.carriesOn.refl s).setWriter s.ew.timebase s.ew.ringWordDue (checkIntervalExpiryStep s).ew.rewrite
        (checkIntervalExpiryStep s).ew.recordFirst).proceeds.setLight _ s.los
    | losChange w level =>
      simp only [commandStep, losChangeStep]
      split
      · exact (h.setLight s.lm _).setWay _ _
      · exact h.setLight s.lm _
    | wayEvaluation w =>
      obtain he | ⟨_, he⟩ := wayEvaluationStep_cases w s <;> rw [commandStep, he]
      · exact h
      · exact (h.setLight _ s.los).trans (State.evaluateWay_proceeds _ _)
    | _ => exact (Bool.noConfusion hlight)
  · obtain hs | ⟨r, hr, hs⟩ := commandStep_carriesOn s hreset (Bool.eq_false_iff.2 hlight)
    · exact .inl hs.toproceeds
    · exact .inr ⟨r, hr, hs.toproceeds⟩

end Sys2Proof.Machine

/-! Reset, preload and memory: the commands that begin and end a reset, the part before preload ends, memory's canonical form
and the load law. -/

namespace Sys2Proof.Machine

/-! ### Reset and preload -/

theorem State.cutOff_cases (s : State) (acc : Option Access) : s.cutOff acc = s ∨ ∃ a bytes, acc = some (.write a bytes) ∧
    s.cutOff acc = { s with mem := cutBytes s.mem a s.freeCount bytes, freeCount := s.freeCount + bytes.length } := by
  unfold State.cutOff
  split
  · next a bytes => exact .inr ⟨a, bytes, rfl, rfl⟩
  · exact .inl rfl
  · exact .inl rfl

/-- RESET_ASSERT keeps of the state before it what `hardReset` keeps, with memory as the cut-off access leaves it. -/
theorem resetAssertStep_cases (u : Bool) (s : State) : resetAssertStep u s = s.hardReset ∨
    u = true ∧ ∃ a bytes, s.accessNext = some (.write a bytes) ∧ resetAssertStep u s = { s.hardReset with
      mem := cutBytes s.mem a s.freeCount bytes, freeCount := s.freeCount + bytes.length } := by
  unfold resetAssertStep
  cases u with
  | false => exact .inl rfl
  | true =>
    obtain he | ⟨a, bytes, hacc, he⟩ := s.cutOff_cases s.accessNext
    · exact .inl (by rw [if_pos rfl, he])
    · exact .inr ⟨rfl, a, bytes, hacc, by rw [if_pos rfl, he]; rfl⟩

theorem preloadEndStep_of_preload {s : State} (h : s.pu.power = .preload) (image : List Byte) : preloadEndStep image s =
    ((s.setParams (judgeImage s.pu.romen image)
      (preloadParams (judgeImage s.pu.romen image) s.pu.winsel image)).requestRingWord.beginWatching.emitBoot
        (judgeImage s.pu.romen image) image).beginAdoption := by
  rw [preloadEndStep, if_pos h]

theorem State.emitBoot_eq (s : State) (outcome : PreloadOutcome) (image : List Byte) :
    s.emitBoot outcome image = { s with ew := (s.emitBoot outcome image).ew } := by
  unfold State.emitBoot
  split
  · rfl
  · exact State.emit_eq _ _ _ _ _ _

theorem State.emitBoot_raises (s : State) (outcome : PreloadOutcome) (image : List Byte) :
    s.raises (s.emitBoot outcome image) := by
  unfold State.emitBoot
  split
  · exact .refl s
  · exact s.emit_raises _ _ _ _ _

/-- BOOT_DEFAULTS reads the event writer and the settings alone. -/
theorem State.emitBoot_ew_congr {s t : State} (h : t.ew = s.ew) (k : t.pu.params = s.pu.params) (outcome : PreloadOutcome)
    (image : List Byte) : (t.emitBoot outcome image).ew = (s.emitBoot outcome image).ew := by
  unfold State.emitBoot
  rw [k]
  split
  · exact h
  · exact State.emit_ew_congr h _ _ _ _ _

/-- The part once preload has ended, but for the event writer, which takes BOOT_DEFAULTS. -/
def State.preloaded (s : State) (image : List Byte) : State :=
  { s with
    pu := { s.pu with
      power := .running, params := preloadParams (judgeImage s.pu.romen image) s.pu.winsel image
      outcome := judgeImage s.pu.romen image, srcsN := true
      adoption := some { stage := .mask 0, adopted := 0, fixed := 0 } }
    tmp := initialPointers (preloadParams (judgeImage s.pu.romen image) s.pu.winsel image).groups
    lm := { s.lm with
      watching := true, checkTimer := true
      ways := Vector.ofFn fun w : Way => { s.lm.ways[w] with latch := s.lm.ways[w].latch ||
        (s.los[w] != (preloadParams (judgeImage s.pu.romen image) s.pu.winsel image).losActiveLow[w]) } }
    ew := { s.ew with ringWordDue := true } }

theorem preloadEndStep_eq {s : State} (h : s.pu.power = .preload) (image : List Byte) : preloadEndStep image s =
    { s.preloaded image with
      ew := ((s.preloaded image).emitBoot (judgeImage s.pu.romen image) image).ew } := by
  rw [preloadEndStep_of_preload h, State.emitBoot_eq]
  simp only [State.beginAdoption, State.preloaded, State.setParams, State.requestRingWord, State.beginWatching,
    State.losActive]
  congr 1
  refine State.emitBoot_ew_congr ?_ ?_ _ _ <;> rfl

theorem preloadEndStep_cases (image : List Byte) (s : State) : preloadEndStep image s = s ∨ s.pu.power = .preload ∧
    preloadEndStep image s =
      { s.preloaded image with ew := ((s.preloaded image).emitBoot (judgeImage s.pu.romen image) image).ew } := by
  by_cases h : s.pu.power = .preload
  · exact .inr ⟨h, preloadEndStep_eq h image⟩
  · exact .inl (by rw [preloadEndStep, if_neg h])

/-- Settles O2: every command answers the next state that `commandStep` gives, and none touches the queue of commands. -/
theorem everyCommandGoesOn : Obligations.EveryCommandGoesOn := by
  unfold Obligations.EveryCommandGoesOn
  intro c s
  refine ⟨commandStep c s, exec_eq_commandStep c s, ?_⟩
  by_cases hreset : resetsPart c = true
  · cases c with
    | resetAssert u =>
      obtain he | ⟨_, _, _, _, he⟩ := resetAssertStep_cases u s <;> rw [commandStep, he] <;> rfl
    | resetRelease winsel lockout romen =>
      simp only [commandStep, resetReleaseStep]
      split <;> rfl
    | preloadEnd image =>
      obtain he | ⟨_, he⟩ := preloadEndStep_cases image s <;> rw [commandStep, he]
      rfl
    | _ => exact Bool.noConfusion hreset
  · obtain hs | ⟨_, _, hs⟩ := commandStep_proceeds s (Bool.eq_false_iff.2 hreset)
    · exact hs.pending
    · exact hs.pending

/-- Settles O5: by the branches of the two steps. -/
theorem resetReleaseStartsPreload : Obligations.ResetReleaseStartsPreload := by
  unfold Obligations.ResetReleaseStartsPreload
  refine ⟨fun winsel lockout romen s h => ?_, fun s h => ?_⟩
  · rw [exec_eq_commandStep, commandStep, resetReleaseStep, if_pos h]
    rfl
  · have hcount : s.ew.timebase + 1#32 = BitVec.ofNat 32 ((s.ew.timebase.toNat + 1) % 4294967296) := by
      apply BitVec.eq_of_toNat_eq
      simp
    rw [exec_eq_commandStep, commandStep, timebaseTickStep, if_neg h, hcount]

/-- Settles O6: the part once preload has ended, field by field, with BOOT_DEFAULTS raised on it. -/
theorem preloadEndOpensThePart : Obligations.PreloadEndOpensThePart := by
  unfold Obligations.PreloadEndOpensThePart
  intro image s hpower
  have hboot := (s.preloaded image).emitBoot_raises (judgeImage s.pu.romen image) image
  refine ⟨{ s.preloaded image with ew := ((s.preloaded image).emitBoot (judgeImage s.pu.romen image) image).ew },
    by rw [exec_eq_commandStep, commandStep, preloadEndStep_eq hpower], rfl, rfl, ⟨rfl, fun w => ?_⟩,
    ⟨hboot.writer, fun hused => ?_, fun hdefaults hroom => ?_⟩, rfl⟩
  · exact Vector.getElem_ofFn _
  · have hnone : (s.preloaded image).emitBoot (judgeImage s.pu.romen image) image = s.preloaded image := if_pos hused
    exact ⟨by rw [hnone]; rfl, by rw [hnone]; rfl⟩
  · have hrecord : (s.preloaded image).emitBoot (judgeImage s.pu.romen image) image = _ := if_neg hdefaults
    dsimp only
    rw [hrecord, State.emit, if_pos (show (s.preloaded image).ew.queue.length < _ from hroom)]
    exact List.prefix_rfl

/-! ### The ROM image (R147, R148) -/

theorem foldl_byte_sum (f : Nat → Byte) (l : List Nat) (acc : Byte) (n : Nat) (h : acc.toNat = n % 256) :
    (l.foldl (fun acc i => acc + f i) acc).toNat = l.foldl (fun acc i => acc + (f i).toNat) n % 256 := by
  induction l generalizing acc n with
  | nil => exact h
  | cons i l ih =>
    refine ih _ _ ?_
    rw [BitVec.toNat_add, h]
    dsimp only
    omega

/-- The sum of bytes is 0 exactly where the sum of numbers is a multiple of 256 (R147). -/
theorem romSum_eq_zero_iff (image : List Byte) : romSum image = 0#8 ↔
    (List.range 20).foldl (fun acc n => acc + (romByte image n).toNat) 0 % 256 = 0 := by
  rw [← foldl_byte_sum (romByte image) (List.range 20) 0#8 0 rfl, ← BitVec.toNat_inj]
  rfl

theorem clampTo_bounds {lo hi : Nat} (h : lo ≤ hi) (v : Nat) : lo ≤ clampTo lo hi v ∧ clampTo lo hi v ≤ hi := by
  unfold clampTo
  omega

theorem romPlan_eq_some_iff (b : Byte) (q : Plan) : romPlan b = some q ↔ b.toNat = q.val := by
  unfold romPlan
  split
  · simp [Fin.ext_iff]
  · next h => exact iff_of_false nofun fun he => h (he ▸ q.isLt)

theorem preloadParams_default {outcome : PreloadOutcome} (h : outcome ≠ .romUsed) (winsel : BitVec 2) (image : List Byte) :
    preloadParams outcome winsel image = defaultParams (strapWindowBase winsel) := by
  cases outcome with
  | romUsed => exact absurd rfl h
  | disabled | signature | sum => rfl

/-- The range of each parameter (R148). -/
structure Params.inRange (p : Params) : Prop where
  ringLength : 16 ≤ p.ringLength ∧ p.ringLength ≤ 2048
  tickPeriod : 1 ≤ p.tickPeriod ∧ p.tickPeriod ≤ 255
  maxStep : 1 ≤ p.maxStep ∧ p.maxStep ≤ 50
  slewFraction : 1 ≤ p.slewFraction ∧ p.slewFraction ≤ 64
  budgetFloor : 96 ≤ p.budgetFloor ∧ p.budgetFloor ≤ 4095
  checkInterval : 1 ≤ p.checkInterval ∧ p.checkInterval ≤ 255
  discardTime : 1 ≤ p.discardTime ∧ p.discardTime ≤ 255

theorem preloadParams_inRange (outcome : PreloadOutcome) (winsel : BitVec 2) (image : List Byte) :
    (preloadParams outcome winsel image).inRange := by
  by_cases h : outcome = .romUsed
  · subst h
    exact ⟨clampTo_bounds (by decide) _, clampTo_bounds (by decide) _, clampTo_bounds (by decide) _,
      clampTo_bounds (by decide) _, clampTo_bounds (by decide) _, clampTo_bounds (by decide) _,
      clampTo_bounds (by decide) _⟩
  · rw [preloadParams_default h]
    constructor <;> simp [defaultParams]

/-- A parameter of one byte is clamped at its lower limit alone. -/
theorem clampTo_byte (b : Byte) : clampTo 1 255 b.toNat = max 1 b.toNat := by
  have h := b.isLt
  unfold clampTo
  omega

/-- Settles O7: the judging case by case, the range of every parameter, and each parameter's byte and clamp. -/
theorem imageJudgedAndClamped : Obligations.ImageJudgedAndClamped := by
  unfold Obligations.ImageJudgedAndClamped
  refine ⟨fun romen image => ?_, fun winsel image outcome h => ⟨preloadParams_default h winsel image, by decide⟩,
    fun outcome winsel image => ?_, fun winsel image => ?_, fun base => rfl⟩
  · have hjudge : romen = true → (romByte image 0 = 0xC3#8 ∧ romByte image 1 = 17#8) →
        judgeImage romen image = if romSum image ≠ 0#8 then .sum else .romUsed := fun hromen ⟨h0, h1⟩ => by
      simp [judgeImage, hromen, h0, h1]
    refine ⟨fun hromen => if_pos hromen, fun hromen hsig => ?_, fun hromen hsig hsum => ?_, fun hromen hsig hsum => ?_⟩
    · rw [judgeImage, if_neg (by rw [hromen]; decide), if_pos (not_and_or.1 hsig)]
    · rw [hjudge hromen hsig, if_pos (mt (romSum_eq_zero_iff image).1 hsum)]
    · rw [hjudge hromen hsig, if_neg (not_not.2 ((romSum_eq_zero_iff image).2 hsum))]
  · obtain ⟨h1, h2, h3, h4, h5, h6, h7⟩ := preloadParams_inRange outcome winsel image
    exact ⟨h1, h2, h3, h4, h5, h6, h7⟩
  · refine ⟨rfl, rfl, ⟨rfl, rfl, rfl, rfl⟩, clampTo_byte _, rfl, rfl, rfl, clampTo_byte _, fun w => ?_, clampTo_byte _⟩
    refine ⟨Vector.getElem_ofFn _, Vector.getElem_ofFn _, fun q => ?_, Vector.getElem_ofFn _⟩
    rw [← romPlan_eq_some_iff]
    exact Eq.congr_left (Vector.getElem_ofFn _)

/-! ### A hard reset -/

/-- Settles O3: the blocks are those of `State.reset`, field by field. -/
theorem hardResetClears : Obligations.HardResetClears := by
  unfold Obligations.HardResetClears
  intro u s
  refine ⟨_, exec_eq_commandStep _ _, ?_⟩
  obtain he | ⟨_, a, bytes, _, he⟩ := resetAssertStep_cases u s <;> rw [commandStep, he] <;>
  · refine ⟨rfl, ⟨rfl, rfl, rfl⟩, ⟨fun d => Vector.getElem_replicate _, fun p => Vector.getElem_replicate _, rfl,
      fun w => Vector.getElem_replicate _⟩, ⟨fun n => Vector.getElem_replicate _, rfl,
      fun w => Vector.getElem_replicate _, rfl, rfl⟩, fun m => Vector.getElem_replicate _,
      ⟨fun w => Vector.getElem_replicate _, rfl, rfl⟩, ⟨rfl, rfl, fun p => Vector.getElem_replicate _⟩,
      ⟨rfl, rfl, rfl, rfl, rfl⟩, ⟨rfl, rfl, rfl⟩, fun r => ?_, rfl, rfl⟩
    cases r <;> rfl

/-- Each byte of a cut-off write holds its old or its new value, and no other byte changes (R145). -/
theorem memRead_cutBytes {m : List Host.Cell} (hwf : Memory.wf m) (a n : Nat) (bytes : List Byte) (x : Nat) :
    memRead (cutBytes m a n bytes) x = memRead m x ∨
      ∃ (i : Nat) (h : i < bytes.length), x = a + i ∧ memRead (cutBytes m a n bytes) x = bytes[i] := by
  induction bytes generalizing m a n with
  | nil => exact .inl rfl
  | cons b rest ih =>
    have hfirst : memRead (if Config.cutByteWritten n then memWrite m a b else m) x = memRead m x ∨
        x = a ∧ memRead (if Config.cutByteWritten n then memWrite m a b else m) x = b := by
      split
      · by_cases hx : x = a
        · exact .inr ⟨hx, by rw [hx, memRead_memWrite_same hwf]⟩
        · exact .inl (memRead_memWrite_other b hx)
      · exact .inl rfl
    have hwf' : Memory.wf (if Config.cutByteWritten n then memWrite m a b else m) := by
      split
      · exact memWrite_wf hwf a b
      · exact hwf
    rw [cutBytes]
    obtain hsame | ⟨i, hi, hx, hbyte⟩ := ih hwf' (a + 1) (n + 1)
    · rw [hsame]
      obtain hold | ⟨hx, hnew⟩ := hfirst
      · exact .inl hold
      · exact .inr ⟨0, Nat.zero_lt_succ _, hx, hnew⟩
    · exact .inr ⟨i + 1, Nat.succ_lt_succ hi, by omega, hbyte⟩

/-- Settles O4: memory after RESET_ASSERT is memory before it, or cut at the access that the arbiter grants next. -/
theorem cutOffWriteOldOrNew : Obligations.CutOffWriteOldOrNew := by
  unfold Obligations.CutOffWriteOldOrNew
  intro u s hwf
  refine ⟨_, exec_eq_commandStep _ _, fun x => ?_⟩
  obtain he | ⟨hu, a, bytes, hacc, he⟩ := resetAssertStep_cases u s <;> rw [commandStep, he]
  · exact .inl rfl
  · exact (memRead_cutBytes hwf a s.freeCount bytes x).imp id fun hnew => ⟨hu, a, bytes, hacc, hnew⟩

/-! ### Memory and loads -/

theorem State.makeAccess_wf {s : State} (h : Memory.wf s.mem) (acc : Option Access) : Memory.wf (s.makeAccess acc).mem := by
  unfold State.makeAccess
  split
  · exact memWriteBytes_wf h _ _
  · exact h
  · exact h

theorem commandStep_memory_wf (c : Instr) {s : State} (h : Memory.wf s.mem) : Memory.wf (commandStep c s).mem := by
  by_cases hreset : resetsPart c = true
  · cases c with
    | resetAssert u =>
      obtain he | ⟨_, a, bytes, _, he⟩ := resetAssertStep_cases u s <;> rw [commandStep, he]
      · exact h
      · exact cutBytes_wf h _ _ _
    | resetRelease winsel lockout romen =>
      simp only [commandStep, resetReleaseStep]
      split <;> exact h
    | preloadEnd image =>
      obtain he | ⟨_, he⟩ := preloadEndStep_cases image s <;> rw [commandStep, he] <;> exact h
    | _ => exact Bool.noConfusion hreset
  · obtain hs | ⟨r, _, hs⟩ := commandStep_proceeds s (Bool.eq_false_iff.2 hreset) <;> rw [hs.mem]
    · exact h
    · exact s.makeAccess_wf h _

/-- Settles O52: memory changes by a grant's access or by a cut-off one alone, and both keep its form. -/
theorem memoryStaysCanonical : Obligations.MemoryStaysCanonical := by
  unfold Obligations.MemoryStaysCanonical
  exact fun s t => step_keeps (P := fun s => Memory.wf s.mem) (fun _ _ => id) fun c _ => commandStep_memory_wf c

theorem weight_le (a : Attn) : weight a ≤ 4096 := by
  have hall : ∀ w ∈ weightTable, w ≤ 4096 := by decide +kernel
  unfold weight
  rw [List.getD_eq_getElem?_getD]
  cases hget : weightTable[a.toNat]? with
  | none => exact Nat.zero_le _
  | some w => exact hall w (List.mem_of_getElem? hget)

theorem contribution_le (r : DestRecord) : contribution r ≤ 4096 := by
  unfold contribution
  split
  · exact Nat.zero_le _
  · exact weight_le _

theorem State.carriedLoad_le (s : State) (w : Way) : s.carriedLoad w ≤ 393216 := by
  rw [State.carriedLoad_eq_sum]
  calc ∑ n : GridSlot, contribution (s.record (lineDest w n)) ≤ ∑ _n : GridSlot, 4096 :=
        Finset.sum_le_sum fun n _ => contribution_le _
    _ = 393216 := by rw [Finset.sum_const, Finset.card_univ, Fintype.card_fin]; rfl

theorem reset_loadLaw : State.reset.loadLaw := by
  intro w
  have hblank : ∀ n, contribution (State.reset.record (lineDest w n)) = 0 := fun n => by
    simp [State.record, State.reset, contribution, blankRecord]
  rw [State.carriedLoad_eq_sum, Finset.sum_eq_zero fun n _ => hblank n]
  exact Vector.getElem_replicate _

theorem commandStep_loadLaw (c : Instr) {s : State} (h : s.loadLaw) : (commandStep c s).loadLaw := by
  by_cases hreset : resetsPart c = true
  · cases c with
    | resetAssert u =>
      obtain he | ⟨_, _, _, _, he⟩ := resetAssertStep_cases u s <;> rw [commandStep, he] <;>
        exact State.loadLaw_of_records rfl rfl reset_loadLaw
    | resetRelease winsel lockout romen =>
      simp only [commandStep, resetReleaseStep]
      split
      · exact h
      · exact h
    | preloadEnd image =>
      obtain he | ⟨_, he⟩ := preloadEndStep_cases image s <;> rw [commandStep, he] <;> exact h
    | _ => exact Bool.noConfusion hreset
  · obtain hs | ⟨r, _, hs⟩ := commandStep_proceeds s (Bool.eq_false_iff.2 hreset)
    · exact hs.load h
    · exact hs.load h

/-- Settles O54: every write of a current reports its load, and 96 contributions of at most 4,096 make the bound. -/
theorem loadsFollowTheCurrents : Obligations.LoadsFollowTheCurrents := by
  unfold Obligations.LoadsFollowTheCurrents
  refine ⟨fun s t => step_keeps (fun _ _ => id) fun c _ => commandStep_loadLaw c, fun s w h => ?_⟩
  rw [h w]
  exact s.carriedLoad_le w

/-! ### Before preload ends (R124, R145) -/

/-- With no access presented the arbiter grants nobody (R136). -/
theorem State.nextGrant_of_noAccess {s : State} (h : ∀ r, s.access r = none) : s.nextGrant = none := by
  have hlow : s.lowGrant = none := by
    unfold State.lowGrant
    exact List.find?_eq_none.2 fun r _ => by rw [h r]; decide
  have hupper : ∀ p, s.upperRequest p = false := fun p => by
    cases p with
    | requester r => rw [State.upperRequest, h r]; rfl
    | low => rw [State.upperRequest, hlow]; rfl
  unfold State.nextGrant
  rw [List.find?_eq_none.2 fun p _ => by rw [hupper p]; decide]

theorem State.dormant_nextGrant (s : State) : s.dormant.nextGrant = none :=
  State.nextGrant_of_noAccess fun r => by cases r <;> rfl

theorem State.dormant_grant (s : State) (r : Requester) (k : State → State) : s.dormant.grant r k = s.dormant :=
  State.grant_refused (by rw [s.dormant_nextGrant]; nofun)

/-- The commands that the host, the clock, the card and the straps give before preload ends; the others find nothing to do. -/
def reachesDormant : Instr → Bool
  | .resetAssert _ | .resetRelease _ _ _ | .preloadEnd _ | .timebaseTick | .hostWrite _ _ _ | .hostRead _ _
  | .losChange _ _ => true
  | _ => false

theorem commandStep_dormant {c : Instr} (hc : reachesDormant c = false) (s : State) :
    commandStep c s.dormant = s.dormant := by
  have hslot : ∀ i : ReadSlotNo, s.dormant.cbp.slots[i] = none := fun i => Vector.getElem_replicate _
  cases c with
  | resetAssert | resetRelease | preloadEnd | timebaseTick | hostWrite | hostRead | losChange => exact Bool.noConfusion hc
  | delayedReadIssue i => rw [commandStep, delayedReadIssueStep, hslot]
  | discardTimerExpiry i => rw [commandStep, discardTimerExpiryStep, hslot]
  | wayPass w =>
    have hpasses : s.dormant.re.passesDue[w] = 0 := Vector.getElem_replicate _
    rw [commandStep, wayPassStep, if_pos hpasses]
  | tblGrant => exact s.dormant_grant .tbl State.updateWritten
  | pathWrite | maskViewWrite | writeThrough | planHeaderWrite | statusZoneWrite | narrowCommandWrite | cmdUnlock
  | cmdAbortSet | cmdExchange | cmdRelease | cmdRingTail | cmdRestart | ctlWriteGrant | ctlReadGrant | rampTickExpiry
  | arbiterOccasion | checkIntervalExpiry | wayEvaluation | exchangeStart | exchangeAccessGrant | exchangeSwap
  | adoptionStart | adoptionAccessGrant | eventRecordGrant | ringWordGrant | statusZoneGrant => rfl

theorem commandStep_preloadLaw (c : Instr) {s : State} (h : s.preloadLaw) : (commandStep c s).preloadLaw := by
  by_cases hpower : s.pu.power = .running
  · intro hnot
    by_cases hreset : resetsPart c = true
    · cases c with
      | resetAssert u => obtain he | ⟨_, _, _, _, he⟩ := resetAssertStep_cases u s <;> rw [commandStep, he] <;> rfl
      | resetRelease winsel lockout romen =>
        have he : resetReleaseStep winsel lockout romen s = s := if_neg (by rw [hpower]; decide)
        rw [commandStep, he] at hnot
        exact absurd hpower hnot
      | preloadEnd image =>
        have he : preloadEndStep image s = s := if_neg (by rw [hpower]; decide)
        rw [commandStep, he] at hnot
        exact absurd hpower hnot
      | _ => exact Bool.noConfusion hreset
    · refine absurd ?_ hnot
      obtain hs | ⟨_, _, hs⟩ := commandStep_proceeds s (Bool.eq_false_iff.2 hreset) <;> rw [hs.settings] <;> exact hpower
  · suffices hdormant : (commandStep c s.dormant).preloadLaw by
      rw [← h hpower] at hdormant
      exact hdormant
    have hnot : s.dormant.pu.power ≠ .running := hpower
    by_cases hc : reachesDormant c = true
    · cases c with
      | resetAssert u =>
        obtain he | ⟨_, _, _, _, he⟩ := resetAssertStep_cases u s.dormant <;> rw [commandStep, he] <;> exact fun _ => rfl
      | resetRelease winsel lockout romen =>
        simp only [commandStep, resetReleaseStep]
        split <;> exact fun _ => rfl
      | preloadEnd image =>
        obtain he | ⟨_, he⟩ := preloadEndStep_cases image s.dormant <;> rw [commandStep, he]
        · exact fun _ => rfl
        · exact fun hrun => absurd rfl hrun
      | timebaseTick =>
        simp only [commandStep, timebaseTickStep]
        split <;> exact fun _ => rfl
      | hostWrite a e d => rw [commandStep, hostWriteStep, if_pos hnot]; exact fun _ => rfl
      | hostRead a e => rw [commandStep, hostReadStep, if_pos hnot]; exact fun _ => rfl
      | losChange w level => exact fun _ => rfl
      | _ => exact Bool.noConfusion hc
    · rw [commandStep_dormant (Bool.eq_false_iff.2 hc)]
      exact fun _ => rfl

/-- Settles O51: only the commands of the host, the clock, the card and the straps reach a part that is dormant, and each of
them leaves it dormant or running. -/
theorem nothingMovesBeforePreloadEnds : Obligations.NothingMovesBeforePreloadEnds := by
  unfold Obligations.NothingMovesBeforePreloadEnds
  refine fun s t => step_keeps (fun s rest h hpower => ?_) fun c _ => commandStep_preloadLaw c
  exact congrArg (fun u : State => ({ u with pending := rest } : State)) (h hpower)

end Sys2Proof.Machine

/-! The laws of the ring, the exchange list and the ways are kept by every step. -/

namespace Sys2Proof.Machine

/-- A law that every command keeps of a state that meets the preload law is kept by every step. -/
theorem step_keeps_law {P : State → Prop} (hpending : ∀ s rest, P s → P { s with pending := rest })
    (hcommand : ∀ c s, s.preloadLaw → P s → P (commandStep c s)) {s t : State} (hpre : s.preloadLaw) (hs : P s)
    (h : step s = .next t) : P t := by
  obtain rfl | ⟨c, rest, -, rfl⟩ := step_cases h
  · exact hs
  · refine hcommand c _ (fun hpower => ?_) (hpending s rest hs)
    exact congrArg (fun u : State => ({ u with pending := rest } : State)) (hpre hpower)

/-! ### The ring (O53) -/

theorem State.hardReset_ringLaw {t : State} (hew : t.ew = { State.reset.ew with timebase := t.ew.timebase })
    (hparams : t.pu.params = State.reset.pu.params) : t.ringLaw := by
  have hreset : State.reset.ringLaw :=
    ⟨by decide, by decide, by decide, fun h => absurd rfl h, by decide, by decide, by decide⟩
  exact hreset.carry hparams (by rw [hew]) (by rw [hew]) (by rw [hew]) (by rw [hew]) (fun _ => by rw [hew]; exact Nat.zero_le _)
    (fun _ => by rw [hew]; exact Nat.zero_le _)

theorem State.preloaded_ringLaw {s : State} (hew : s.ew = { State.reset.ew with timebase := s.ew.timebase })
    (image : List Byte) : (s.preloaded image).ringLaw := by
  have hlength := (preloadParams_inRange (judgeImage s.pu.romen image) s.pu.winsel image).ringLength.1
  have hzero : (s.preloaded image).ew = { State.reset.ew with timebase := s.ew.timebase, ringWordDue := true } := by
    change { s.ew with ringWordDue := true } = _
    rw [hew]
  refine ⟨hlength, ?_, ?_, fun hstage => absurd (by rw [hzero]; rfl) hstage, ?_, ?_, ?_⟩ <;> rw [hzero]
  · exact lt_of_lt_of_le (Nat.zero_lt_succ 15) hlength
  · exact lt_of_lt_of_le (Nat.zero_lt_succ 15) hlength
  · rfl
  · exact Nat.zero_le _
  · exact Nat.zero_le _

theorem commandStep_ringLaw (c : Instr) (s : State) (hpre : s.preloadLaw) (h : s.ringLaw) : (commandStep c s).ringLaw := by
  by_cases hreset : resetsPart c = true
  · cases c with
    | resetAssert u =>
      obtain he | ⟨_, _, _, _, he⟩ := resetAssertStep_cases u s <;> rw [commandStep, he] <;>
        exact State.hardReset_ringLaw rfl rfl
    | resetRelease winsel lockout romen =>
      simp only [commandStep, resetReleaseStep]
      split
      · exact h.carry rfl rfl rfl rfl rfl id id
      · exact h
    | preloadEnd image =>
      obtain he | ⟨hpower, he⟩ := preloadEndStep_cases image s <;> rw [commandStep, he]
      · exact h
      · have hdormant := hpre (by rw [hpower]; decide)
        have hring : (s.preloaded image).ringLaw := State.preloaded_ringLaw (congrArg State.ew hdormant) image
        refine State.ringLaw_of_raises (s := s.preloaded image) ?_ rfl hring
        exact ((s.preloaded image).emitBoot_raises _ image).trans (State.raises_of_ew rfl)
    | _ => exact Bool.noConfusion hreset
  · obtain hs | ⟨r, -, hs⟩ := commandStep_proceeds s (Bool.eq_false_iff.2 hreset)
    · exact hs.ring h
    · refine hs.ring (State.ringLaw_congr ?_ ?_ h) <;> rfl

/-- Settles O53: every command but those of reset and preload keeps the ring law, and reset and preload begin an empty ring. -/
theorem interruptFollowsTheRing : Obligations.InterruptFollowsTheRing := by
  unfold Obligations.InterruptFollowsTheRing
  refine ⟨fun s t => step_keeps_law (fun s rest h => ?_) commandStep_ringLaw,
    fun s kind reason subject a b => ⟨fun hroom => if_pos hroom, fun hfull => if_neg (not_lt.2 hfull)⟩⟩
  refine State.ringLaw_congr ?_ ?_ h <;> rfl

/-! ### The exchange list (O57) -/

theorem State.exchangeLaw_of_empty {t : State} (h : t.xe.list = []) : t.exchangeLaw := by
  refine ⟨?_, ?_, ?_, ?_⟩ <;> rw [h]
  · exact List.nodup_nil
  · exact fun r hr => absurd hr List.not_mem_nil
  · exact fun before r after he => absurd he (by simp)
  · decide

theorem commandStep_exchangeLaw (c : Instr) (s : State) (hpre : s.preloadLaw) (h : s.exchangeLaw) :
    (commandStep c s).exchangeLaw := by
  by_cases hreset : resetsPart c = true
  · cases c with
    | resetAssert u =>
      obtain he | ⟨_, _, _, _, he⟩ := resetAssertStep_cases u s <;> rw [commandStep, he] <;>
        exact State.exchangeLaw_of_empty rfl
    | resetRelease winsel lockout romen =>
      simp only [commandStep, resetReleaseStep]
      split
      · refine State.exchangeLaw_congr ?_ ?_ h <;> rfl
      · exact h
    | preloadEnd image =>
      obtain he | ⟨hpower, he⟩ := preloadEndStep_cases image s <;> rw [commandStep, he]
      · exact h
      · have hdormant := hpre (by rw [hpower]; decide)
        have hlist : s.xe.list = [] := congrArg (fun u : State => u.xe.list) hdormant
        exact State.exchangeLaw_of_empty hlist
    | _ => exact Bool.noConfusion hreset
  · obtain hs | ⟨r, -, hs⟩ := commandStep_proceeds s (Bool.eq_false_iff.2 hreset)
    · exact hs.exchange h
    · refine hs.exchange (State.exchangeLaw_congr ?_ ?_ h) <;> rfl

/-- Settles O57: the list is filled by CMD_EXCHANGE and by a failing way alone, each of which judges what it lists. -/
theorem exchangeListStaysInBounds : Obligations.ExchangeListStaysInBounds := by
  unfold Obligations.ExchangeListStaysInBounds
  refine fun s t => step_keeps_law (fun s rest h => ?_) commandStep_exchangeLaw
  refine State.exchangeLaw_congr ?_ ?_ h <;> rfl

/-! ### The ways (O55) -/

section Ways
variable {s t : State} {w : Way} {r : WayRecord}

theorem State.wayLaw_congr (hways : t.lm.ways = s.lm.ways) (hiso : t.dt.isolated = s.dt.isolated) (h : s.wayLaw) :
    t.wayLaw := fun w => by rw [hways, hiso]; exact h w

/-- One way's record replaced, with the DT's indication as its new state has it. -/
theorem State.wayLaw.replace (h : s.wayLaw) (hways : t.lm.ways = s.lm.ways.set w r) (hr : r.inRange)
    (hiso : t.dt.isolated = s.dt.isolated.set w r.state.holdsDark) : t.wayLaw := by
  intro k
  rw [hways, hiso]
  by_cases hk : w = k
  · subst hk
    simp only [Fin.getElem_fin, Vector.getElem_set_self]
    exact ⟨hr, trivial⟩
  · have hval : w.val ≠ k.val := fun e => hk (Fin.ext e)
    simp only [Fin.getElem_fin, Vector.getElem_set_ne _ _ hval]
    exact h k

/-- One way's record replaced by one in a state that holds its paths as the state before did. -/
theorem State.wayLaw.setWay (h : s.wayLaw) (hways : t.lm.ways = s.lm.ways.set w r) (hr : r.inRange)
    (hdark : r.state.holdsDark = (s.lm.ways[w]).state.holdsDark) (hiso : t.dt.isolated = s.dt.isolated) : t.wayLaw := by
  refine h.replace hways hr ?_
  rw [hiso, hdark, ← (h w).2]
  simp

theorem WayRecord.inRange_congr {r r' : WayRecord} (hstate : r'.state = r.state) (hcounter : r'.counter = r.counter)
    (hrecovery : r'.recovery = r.recovery) (h : r.inRange) : r'.inRange := by
  unfold WayRecord.inRange
  rw [hstate, hcounter, hrecovery]
  exact h

theorem nextCounter_le {lossy : Bool} {c : Nat} (h : c ≤ 200) : nextCounter lossy c ≤ 200 := by
  unfold nextCounter
  split <;> omega

/-- The state whose range holds a counter holds it (R96, R97). -/
theorem inRange_of_stateOfCounter (hstate : r.state = stateOfCounter r.counter) (hcounter : r.counter ≤ 200)
    (hrecovery : r.recovery = 0) : r.inRange := by
  unfold stateOfCounter at hstate
  unfold WayRecord.inRange
  split_ifs at hstate <;> rw [hstate] <;> dsimp only <;> omega

theorem WayRecord.counter_le (h : r.inRange) : r.counter ≤ 200 := by
  unfold WayRecord.inRange at h
  split at h <;> omega

theorem stateOfCounter_holdsDark {c : Nat} (h : stateOfCounter c ≠ .isolated) :
    (stateOfCounter c).holdsDark = false := by
  unfold stateOfCounter at h ⊢
  split_ifs at h ⊢
  · rfl
  · rfl
  · rfl
  · exact absurd rfl h

theorem State.emitWayState_lm (s : State) (w : Way) (old : WayState) (r : WayRecord) :
    (s.emitWayState w old r).lm = s.lm := State.emit_lm _ _ _ _ _ _

theorem State.emitWayState_dt (s : State) (w : Way) (old : WayState) (r : WayRecord) :
    (s.emitWayState w old r).dt = s.dt := State.emit_dt _ _ _ _ _ _

theorem State.setWay_getElem (s : State) (w : Way) (r : WayRecord) : (s.setWay w r).lm.ways[w] = r :=
  Vector.getElem_set_self _

/-- A plan called changes of the ways the plan-requested indication of one at most. -/
theorem State.callPlan_ways (s : State) (w : Way) : ∃ b, (s.callPlan w).lm.ways =
    s.lm.ways.set w { s.lm.ways[w] with planRequested := b } ∧ (s.callPlan w).dt.isolated = s.dt.isolated := by
  have hsame : s.lm.ways = s.lm.ways.set w { s.lm.ways[w] with planRequested := (s.lm.ways[w]).planRequested } :=
    (Vector.set_getElem_self _).symm
  unfold State.callPlan
  split
  · exact ⟨_, hsame, rfl⟩
  · next p hp =>
    split
    · exact ⟨_, hsame, rfl⟩
    · have hfault := s.faultRequest_carriesOn hp
      refine ⟨true, ?_, hfault.isolated⟩
      rw [State.setWay_lm, hfault.lm]

theorem State.isolate_ways (s : State) (w : Way) :
    (s.isolate w).lm = s.lm ∧ (s.isolate w).dt.isolated = s.dt.isolated.set w true := by
  have hrequest := s.isolate_requested w
  exact ⟨hrequest.outside.lm, by rw [hrequest.dt]; rfl⟩

theorem State.release_ways (s : State) (w : Way) (tag : Option Nat) :
    (s.release w tag).lm = s.lm ∧ (s.release w tag).dt.isolated = s.dt.isolated.set w false := by
  have hrequest := s.release_requested w tag
  exact ⟨hrequest.outside.lm, by rw [hrequest.dt]; rfl⟩

/-- A serving way's record after an interval that changes its state (R97, R98). -/
def WayRecord.served (r : WayRecord) (lossy : Bool) : WayRecord :=
  { r with
    counter := nextCounter lossy r.counter, state := stateOfCounter (nextCounter lossy r.counter), recovery := 0
    planRequested := r.planRequested && stateOfCounter (nextCounter lossy r.counter) != .clear }

/-- The state with that record and its WAY_STATE. -/
def State.serving (s : State) (w : Way) (r : WayRecord) (lossy : Bool) : State :=
  (s.setWay w (r.served lossy)).emitWayState w r.state (r.served lossy)

theorem State.evaluateServing_same {lossy : Bool} (h : stateOfCounter (nextCounter lossy r.counter) = r.state) :
    s.evaluateServing w r lossy = s.setWay w { r with counter := nextCounter lossy r.counter, recovery := 0 } := by
  rw [State.evaluateServing, if_pos h]

theorem State.evaluateServing_changed {lossy : Bool} (h : stateOfCounter (nextCounter lossy r.counter) ≠ r.state) :
    s.evaluateServing w r lossy = match stateOfCounter (nextCounter lossy r.counter) with
      | .isolated => (s.serving w r lossy).isolate w
      | .degraded => (s.serving w r lossy).callPlan w
      | .clear | .warning | .awaitRelease => s.serving w r lossy := by
  rw [State.evaluateServing, if_neg h]
  rfl

theorem State.serving_lm (s : State) (w : Way) (r : WayRecord) (lossy : Bool) :
    (s.serving w r lossy).lm = { s.lm with ways := s.lm.ways.set w (r.served lossy) } := State.emitWayState_lm _ _ _ _

theorem State.serving_dt (s : State) (w : Way) (r : WayRecord) (lossy : Bool) : (s.serving w r lossy).dt = s.dt :=
  State.emitWayState_dt _ _ _ _

/-- An evaluation in CLEAR, WARNING or DEGRADED. -/
theorem State.evaluateServing_wayLaw (h : s.wayLaw) (hrec : r.state = (s.lm.ways[w]).state)
    (hcounter : r.counter = (s.lm.ways[w]).counter) (hserving : (s.lm.ways[w]).state.holdsDark = false) (lossy : Bool) :
    (s.evaluateServing w r lossy).wayLaw := by
  have hle : nextCounter lossy r.counter ≤ 200 := nextCounter_le (hcounter ▸ WayRecord.counter_le (h w).1)
  have hrange : (r.served lossy).inRange := inRange_of_stateOfCounter rfl hle rfl
  by_cases hsame : stateOfCounter (nextCounter lossy r.counter) = r.state
  · rw [State.evaluateServing_same hsame]
    exact h.setWay rfl (inRange_of_stateOfCounter hsame.symm hle rfl) (congrArg WayState.holdsDark hrec) rfl
  · have hways : (s.serving w r lossy).lm.ways = s.lm.ways.set w (r.served lossy) := by rw [State.serving_lm]
    have hstands : stateOfCounter (nextCounter lossy r.counter) ≠ .isolated → (s.serving w r lossy).wayLaw := fun hst =>
      h.setWay hways hrange ((stateOfCounter_holdsDark hst).trans hserving.symm) (by rw [State.serving_dt])
    rw [State.evaluateServing_changed hsame]
    split
    · next hst =>
      obtain ⟨hlm, hiso⟩ := (s.serving w r lossy).isolate_ways w
      refine h.replace (w := w) (r := r.served lossy) ?_ hrange ?_
      · rw [hlm, hways]
      · rw [hiso, State.serving_dt, WayRecord.served, hst]; rfl
    · next hst =>
      obtain ⟨b, hcall, hiso⟩ := (s.serving w r lossy).callPlan_ways w
      have hlaw := hstands (by rw [hst]; decide)
      exact hlaw.setWay hcall (WayRecord.inRange_congr rfl rfl rfl (hlaw w).1) rfl hiso
    all_goals next hst => exact hstands (by rw [hst]; decide)

/-- An evaluation in ISOLATED. -/
theorem State.evaluateIsolated_wayLaw (h : s.wayLaw) (hrec : r.state = (s.lm.ways[w]).state)
    (hcounter : r.counter = (s.lm.ways[w]).counter) (hstate : (s.lm.ways[w]).state = .isolated) (lossy : Bool) :
    (s.evaluateIsolated w r lossy).wayLaw := by
  have hr : r.state = .isolated := hrec.trans hstate
  have hcount : r.counter = 200 := by
    have hrange := (h w).1
    unfold WayRecord.inRange at hrange
    rw [hstate] at hrange
    rw [hcounter]
    exact hrange.1
  have hisolated : ∀ n < 150, ({ r with recovery := n } : WayRecord).inRange := fun n hn => by
    unfold WayRecord.inRange
    dsimp only
    rw [hr]
    exact ⟨hcount, hn⟩
  unfold State.evaluateIsolated
  dsimp only
  split
  · exact h.setWay rfl (hisolated 0 (by decide)) (congrArg WayState.holdsDark hrec) rfl
  · split
    · next hn => exact h.setWay rfl (hisolated _ hn) (congrArg WayState.holdsDark hrec) rfl
    · split
      · refine h.setWay (w := w) (r := { r with state := .awaitRelease, counter := 200, recovery := 150 }) ?_ ⟨rfl, rfl⟩
          (by rw [hstate]; rfl) ?_
        · rw [State.emitWayState_lm]; rfl
        · rw [State.emitWayState_dt]; rfl
      · obtain ⟨hlm, hiso⟩ := State.release_ways ((s.setWay w r.cleared).emitWayState w .isolated r.cleared) w none
        refine h.replace (w := w) (r := r.cleared) ?_ ⟨Nat.zero_lt_succ 39, rfl⟩ ?_
        · rw [hlm, State.emitWayState_lm]; rfl
        · rw [hiso, State.emitWayState_dt]; rfl

/-- An evaluation in AWAIT_RELEASE. -/
theorem State.evaluateAwaiting_wayLaw (h : s.wayLaw) (hrec : r.state = (s.lm.ways[w]).state)
    (hcounter : r.counter = (s.lm.ways[w]).counter) (hrecovery : r.recovery = (s.lm.ways[w]).recovery)
    (hstate : (s.lm.ways[w]).state = .awaitRelease) (lossy : Bool) : (s.evaluateAwaiting w r lossy).wayLaw := by
  have hcount : r.counter = 200 := by
    have hrange := (h w).1
    unfold WayRecord.inRange at hrange
    rw [hstate] at hrange
    rw [hcounter]
    exact hrange.1
  unfold State.evaluateAwaiting
  dsimp only
  split
  · refine h.setWay (w := w) (r := { r with state := .isolated, recovery := 0 }) ?_ ⟨hcount, Nat.zero_lt_succ 149⟩
      (by rw [hstate]; rfl) ?_
    · rw [State.emitWayState_lm]; rfl
    · rw [State.emitWayState_dt]; rfl
  · exact h.setWay rfl (WayRecord.inRange_congr hrec hcounter hrecovery (h w).1) (congrArg WayState.holdsDark hrec) rfl

theorem State.evaluateWay_wayLaw (h : s.wayLaw) (w : Way) : (s.evaluateWay w).wayLaw := by
  unfold State.evaluateWay
  dsimp only
  split
  · next hst =>
    refine State.evaluateServing_wayLaw h ?_ ?_ (congrArg WayState.holdsDark hst) _ <;> rfl
  · next hst =>
    refine State.evaluateServing_wayLaw h ?_ ?_ (congrArg WayState.holdsDark hst) _ <;> rfl
  · next hst =>
    refine State.evaluateServing_wayLaw h ?_ ?_ (congrArg WayState.holdsDark hst) _ <;> rfl
  · next hst => refine State.evaluateIsolated_wayLaw h ?_ ?_ hst _ <;> rfl
  · next hst => refine State.evaluateAwaiting_wayLaw h ?_ ?_ ?_ hst _ <;> rfl

theorem State.manualRelease_wayLaw (h : s.wayLaw) (v tag : Nat) : (s.manualRelease v tag).wayLaw := by
  obtain ⟨code, he⟩ | ⟨k, _, hstate, he⟩ := s.manualRelease_cases v tag <;> rw [he]
  · refine State.wayLaw_congr ?_ ?_ h
    · exact congrArg LightMonitor.ways (State.emit_lm _ _ _ _ _ _)
    · exact congrArg DestTable.isolated (State.emit_dt _ _ _ _ _ _)
  · obtain ⟨hlm, hiso⟩ := State.release_ways ((s.setWay k s.lm.ways[k].cleared).emitWayState k .awaitRelease
      s.lm.ways[k].cleared) k (some tag)
    refine h.replace (w := k) (r := s.lm.ways[k].cleared) ?_ ⟨Nat.zero_lt_succ 39, rfl⟩ ?_
    · rw [hlm, State.emitWayState_lm]; rfl
    · rw [hiso, State.emitWayState_dt]; rfl

end Ways

theorem State.hardReset_wayLaw {t : State} (hways : t.lm.ways = State.reset.lm.ways)
    (hiso : t.dt.isolated = State.reset.dt.isolated) : t.wayLaw := by
  have hreset : State.reset.wayLaw := fun w => by fin_cases w <;> exact ⟨⟨by decide, rfl⟩, rfl⟩
  exact State.wayLaw_congr hways hiso hreset

theorem commandStep_wayLaw (c : Instr) (s : State) (h : s.wayLaw) : (commandStep c s).wayLaw := by
  by_cases hreset : resetsPart c = true
  · cases c with
    | resetAssert u =>
      obtain he | ⟨_, _, _, _, he⟩ := resetAssertStep_cases u s <;> rw [commandStep, he] <;>
        exact State.hardReset_wayLaw rfl rfl
    | resetRelease winsel lockout romen =>
      simp only [commandStep, resetReleaseStep]
      split <;> exact h
    | preloadEnd image =>
      obtain he | ⟨_, he⟩ := preloadEndStep_cases image s <;> rw [commandStep, he]
      · exact h
      · refine fun k => ⟨WayRecord.inRange_congr ?_ ?_ ?_ (h k).1, (h k).2.trans ?_⟩ <;>
          simp [State.preloaded]
    | _ => exact Bool.noConfusion hreset
  · by_cases hlight : monitorsLight c = true
    · cases c with
      | cmdRelease =>
        obtain he | ⟨_, _, he⟩ := cmdReleaseStep_cases s <;> rw [commandStep, he]
        · exact h
        · exact State.manualRelease_wayLaw h _ _
      | checkIntervalExpiry =>
        rw [commandStep, checkIntervalExpiryStep_eq]
        exact h
      | losChange w level =>
        simp only [commandStep, losChangeStep]
        split
        · exact h.setWay rfl (WayRecord.inRange_congr rfl rfl rfl (h w).1) rfl rfl
        · exact h
      | wayEvaluation w =>
        obtain he | ⟨_, he⟩ := wayEvaluationStep_cases w s <;> rw [commandStep, he]
        · exact h
        · exact State.evaluateWay_wayLaw (s := s.takeEvaluation w) h w
      | _ => exact Bool.noConfusion hlight
    · obtain hs | ⟨_, _, hs⟩ := commandStep_carriesOn s (Bool.eq_false_iff.2 hreset) (Bool.eq_false_iff.2 hlight)
      · exact State.wayLaw_congr (by rw [hs.lm]) hs.isolated h
      · exact State.wayLaw_congr (by rw [hs.lm]) hs.isolated h

/-- Settles O55: the evaluations and the two releases alone change a way's state, and the DT's indication with it. -/
theorem waysKeepTheirRanges : Obligations.WaysKeepTheirRanges := by
  unfold Obligations.WaysKeepTheirRanges
  exact fun s t => step_keeps (fun _ _ h => h) commandStep_wayLaw

end Sys2Proof.Machine

/-! The read law (O56): a read that has been issued or holds its data stands behind no posted write. What stands in its way
is said once: the fields that the law reads, what a marking may add to the table-update list, and posting. -/

namespace Sys2Proof.Machine

/-- What the read law reads stands, but for an exchange that may end; a tag that the table-update list has taken is that of a
posted write. -/
structure State.keepsReads (s t : State) : Prop where
  queue : t.cbp.queue = s.cbp.queue
  count : t.cbp.postedCount = s.cbp.postedCount
  slots : t.cbp.slots = s.cbp.slots
  held : t.cbp.held = s.cbp.held
  running : s.xe.running = none → t.xe.running = none
  tags : ∀ e ∈ t.dt.updates, ∀ x, e.tag = some x →
    (∃ p ∈ s.cbp.queue, p.tag = x) ∨ ∃ u ∈ s.dt.updates, u.tag = some x

section Reads
variable {s t u : State}

theorem State.keepsReads_of (hqueue : t.cbp.queue = s.cbp.queue) (hcount : t.cbp.postedCount = s.cbp.postedCount)
    (hslots : t.cbp.slots = s.cbp.slots) (hheld : t.cbp.held = s.cbp.held)
    (hrunning : s.xe.running = none → t.xe.running = none) (hupdates : t.dt.updates.Sublist s.dt.updates) :
    s.keepsReads t :=
  ⟨hqueue, hcount, hslots, hheld, hrunning, fun e he _ hx => .inr ⟨e, hupdates.subset he, hx⟩⟩

/-- The CBP, the update list and the running exchange stand. -/
theorem State.keepsReads_of_blocks (hcbp : t.cbp = s.cbp) (hupdates : t.dt.updates = s.dt.updates)
    (hrunning : t.xe.running = s.xe.running) : s.keepsReads t :=
  State.keepsReads_of (by rw [hcbp]) (by rw [hcbp]) (by rw [hcbp]) (by rw [hcbp]) (hrunning.trans ·)
    (by rw [hupdates])

theorem State.keepsReads.refl (s : State) : s.keepsReads s := State.keepsReads_of_blocks rfl rfl rfl

theorem State.keepsReads.trans (h : s.keepsReads t) (k : t.keepsReads u) : s.keepsReads u := by
  refine ⟨k.queue.trans h.queue, k.count.trans h.count, k.slots.trans h.slots, k.held.trans h.held, k.running ∘ h.running,
    fun e he x hx => ?_⟩
  obtain ⟨p, hp, hpx⟩ | ⟨v, hv, hvx⟩ := k.tags e he x hx
  · exact .inl ⟨p, h.queue ▸ hp, hpx⟩
  · exact h.tags v hv x hvx

theorem State.requested.keepsReads {tag : Option Nat} (h : s.requested t tag)
    (htag : ∀ x, tag = some x → ∃ p ∈ s.cbp.queue, p.tag = x) : s.keepsReads t := by
  have hcbp := h.outside.cbp
  exact ⟨by rw [hcbp], by rw [hcbp], by rw [hcbp], by rw [hcbp], by rw [h.outside.xe]; exact id,
    fun e he x hx => (h.tags he hx).imp (htag x) id⟩

theorem State.requested.keepsReads_untagged (h : s.requested t none) : s.keepsReads t := h.keepsReads nofun

theorem State.requests.keepsReads (h : s.requests t) : s.keepsReads t := (h.requested none).keepsReads_untagged

theorem State.emit_keepsReads (s : State) (kind : RecordKind) (reason : Nat) (subject : BitVec 16) (a b : Word) :
    s.keepsReads (s.emit kind reason subject a b) :=
  ((State.requests.refl s).emit kind reason subject a b).keepsReads

theorem State.setHead_keepsReads (s : State) (stage : HeadStage) : s.keepsReads (s.setHead stage) :=
  State.keepsReads_of rfl rfl rfl rfl id (.refl _)

theorem State.mailbox_keepsReads (s : State) (h : PostedWrite) (restart : Bool) : s.keepsReads (s.mailbox h restart) :=
  s.setHead_keepsReads _

/-! ### Law and frame -/

theorem State.anyTag_eq_false_iff (s : State) : s.anyTag = false ↔ ∀ e ∈ s.dt.updates, e.tag = none := by
  unfold State.anyTag
  simp [List.any_eq_false]

theorem State.readLaw.carry (h : s.readLaw) (k : s.keepsReads t) : t.readLaw := by
  have hsettled : ∀ b, s.settledTo b → t.settledTo b := fun b hb => by
    refine ⟨fun p hp => hb.1 p (k.queue ▸ hp), fun e he x hx => ?_⟩
    obtain ⟨p, hp, rfl⟩ | ⟨v, hv, hvx⟩ := k.tags e he x hx
    · exact hb.1 p hp
    · exact hb.2 v hv x hvx
  refine ⟨?_, ?_, ?_, ?_, ?_, ?_⟩
  · rw [k.queue]; exact h.posted
  · rw [k.queue, k.count]; exact h.tags
  · rw [k.slots, k.count]; exact h.barriers
  · rw [k.slots]; exact fun i r hr hstate b hb => hsettled b (h.slots i r hr hstate b hb)
  · rw [k.slots]; exact fun i r got hr hstate => k.running (h.issued i r got hr hstate)
  · rw [k.held]
    intro a size got hheld
    obtain ⟨hqueue, htag, hrunning⟩ := h.direct a size got hheld
    refine ⟨k.queue.trans hqueue, (State.anyTag_eq_false_iff t).2 fun e he => ?_, k.running hrunning⟩
    cases hx : e.tag with
    | none => rfl
    | some x =>
      obtain ⟨p, hp, -⟩ | ⟨v, hv, hvx⟩ := k.tags e he x hx
      · rw [hqueue] at hp
        exact absurd hp List.not_mem_nil
      · rw [(State.anyTag_eq_false_iff s).1 htag v hv] at hvx
        cases hvx

theorem State.readLaw_of_idle (hqueue : s.cbp.queue = []) (hslots : ∀ i : ReadSlotNo, s.cbp.slots[i] = none)
    (hheld : s.cbp.held = none) : s.readLaw := by
  refine ⟨by rw [hqueue]; decide, by rw [hqueue]; exact nofun, ?_, ?_, ?_, by rw [hheld]; exact nofun⟩ <;>
    intro i r <;> rw [hslots i] <;> exact nofun

/-- The head leaves the queue. -/
theorem State.readLaw.pop (h : s.readLaw) (stage : HeadStage) :
    State.readLaw { s with cbp := { s.cbp with queue := s.cbp.queue.tail, head := stage } } := by
  refine ⟨?_, fun p hp => h.tags p (List.mem_of_mem_tail hp), h.barriers, fun i r hr hstate b hb => ?_, h.issued,
    fun a size got hheld => ?_⟩
  · have hposted := h.posted
    change s.cbp.queue.tail.length ≤ 8
    rw [List.length_tail]
    omega
  · obtain ⟨hqueue, htags⟩ := h.slots i r hr hstate b hb
    exact ⟨fun p hp => hqueue p (List.mem_of_mem_tail hp), htags⟩
  · obtain ⟨hqueue, htag, hrunning⟩ := h.direct a size got hheld
    exact ⟨by change s.cbp.queue.tail = []; rw [hqueue]; rfl, htag, hrunning⟩

/-- A write posted where there is room: each slot that it reaches is LATCHED behind it (R134). -/
theorem State.readLaw.post (h : s.readLaw) (hroom : s.cbp.queue.length < 8)
    (hheld : ∀ a size got, s.cbp.held ≠ some (.read a size got)) (a : Addr) (size : Size) (data : Word) :
    (s.post a size data).readLaw := by
  have hslot : ∀ (i : ReadSlotNo) (r : ReadSlot), (s.post a size data).cbp.slots[i] = some r →
      (r.state = .latched ∧ r.barrier = some s.cbp.postedCount) ∨ s.cbp.slots[i] = some r := fun i r hr => by
    simp only [State.post, Fin.getElem_fin, Vector.getElem_map, Option.map_eq_some_iff] at hr
    obtain ⟨q, hq, rfl⟩ := hr
    split
    · exact .inl ⟨rfl, rfl⟩
    · exact .inr hq
  refine ⟨?_, fun p hp => ?_, fun i r hr b hb => ?_, fun i r hr hstate b hb => ?_, fun i r got hr hstate => ?_,
    fun a' size' got hread => absurd hread (hheld a' size' got)⟩
  · change (s.cbp.queue ++ [_]).length ≤ 8
    rw [List.length_append, List.length_singleton]
    omega
  · change p.tag < s.cbp.postedCount + 1
    obtain hp | hp := List.mem_append.1 hp
    · exact Nat.lt_succ_of_lt (h.tags p hp)
    · rw [List.mem_singleton.1 hp]
      exact Nat.lt_succ_self _
  · change b < s.cbp.postedCount + 1
    obtain ⟨-, hbarrier⟩ | hs := hslot i r hr
    · rw [hbarrier] at hb
      exact Option.some.inj hb ▸ Nat.lt_succ_self _
    · exact Nat.lt_succ_of_lt (h.barriers i r hs b hb)
  · obtain ⟨hlatched, -⟩ | hs := hslot i r hr
    · exact absurd hlatched hstate
    · obtain ⟨hqueue, htags⟩ := h.slots i r hs hstate b hb
      refine ⟨fun p hp => ?_, htags⟩
      obtain hp | hp := List.mem_append.1 hp
      · exact hqueue p hp
      · rw [List.mem_singleton.1 hp]
        exact h.barriers i r hs b hb
  · obtain ⟨hlatched, -⟩ | hs := hslot i r hr
    · rw [hlatched] at hstate
      cases hstate
    · exact h.issued i r got hs hstate

/-- The response is driven, and the transaction held may be let go. -/
theorem State.readLaw.release (h : s.readLaw) (response : Response) :
    State.readLaw { s with cbp := { s.cbp with held := none, response := response } } :=
  ⟨h.posted, h.tags, h.barriers, h.slots, h.issued, fun _ _ _ hread => by cases hread⟩

theorem State.readLaw.respond (h : s.readLaw) (response : Response) : (s.respond response).readLaw :=
  h.carry (State.keepsReads_of rfl rfl rfl rfl id (.refl _))

/-- A write held with WAIT is posted or refused once there is room (R126). -/
theorem State.readLaw.postHeld (h : s.readLaw) (hroom : s.cbp.queue.length < 8) : s.postHeld.readLaw := by
  obtain ⟨-, he⟩ | ⟨a, size, data, -, ⟨-, he⟩ | ⟨-, he⟩⟩ := s.postHeld_spec <;> rw [he]
  · exact h
  · exact h.release .retry
  · exact ((h.release s.cbp.response).post hroom nofun a size data).respond .done

/-- The head's handling ends (R127). -/
theorem State.readLaw.retireHead (h : s.readLaw) : s.retireHead.readLaw := by
  refine (h.pop .waiting).postHeld ?_
  have hposted := h.posted
  change s.cbp.queue.tail.length < 8
  rw [List.length_tail]
  omega

/-- One delayed-read slot replaced. -/
theorem State.readLaw.setSlot (h : s.readLaw) (i : ReadSlotNo) (order : List ReadSlotNo) {slot : Option ReadSlot}
    (hslot : ∀ r, slot = some r → (∀ b, r.barrier = some b → b < s.cbp.postedCount) ∧
      (r.state ≠ .latched → ∀ b, r.barrier = some b → s.settledTo b) ∧
      ∀ got, r.state = .issued got → s.xe.running = none) :
    State.readLaw { s with cbp := { s.cbp with slots := s.cbp.slots.set i slot, latchOrder := order } } := by
  have hcase : ∀ (j : ReadSlotNo) (r : ReadSlot), (s.cbp.slots.set i slot)[j] = some r →
      slot = some r ∨ s.cbp.slots[j] = some r := fun j r hr => by
    by_cases hij : i.val = j.val
    · rw [Fin.getElem_fin, Vector.getElem_set] at hr
      rw [if_pos hij] at hr
      exact .inl hr
    · rw [Fin.getElem_fin, Vector.getElem_set_ne _ _ hij] at hr
      exact .inr hr
  refine ⟨h.posted, h.tags, fun j r hr b hb => ?_, fun j r hr hstate b hb => ?_, fun j r got hr hstate => ?_, h.direct⟩
  · obtain hr | hr := hcase j r hr
    · exact (hslot r hr).1 b hb
    · exact h.barriers j r hr b hb
  · obtain hr | hr := hcase j r hr
    · exact (hslot r hr).2.1 hstate b hb
    · exact h.slots j r hr hstate b hb
  · obtain hr | hr := hcase j r hr
    · exact (hslot r hr).2.2 got hstate
    · exact h.issued j r got hr hstate

theorem State.readLaw.freeSlot (h : s.readLaw) (i : ReadSlotNo) : (s.freeReadSlot i).readLaw :=
  h.setSlot i _ fun _ hr => by cases hr

theorem State.readLaw.latchRead (h : s.readLaw) (i : ReadSlotNo) (a : Addr) (size : Size) :
    (s.latchRead i a size).readLaw := by
  refine h.setSlot i _ fun r hr => ?_
  cases hr
  refine ⟨fun b hb => ?_, fun hnot => absurd rfl hnot, fun got hgot => by cases hgot⟩
  have hlatest : s.latestTag = some b := hb
  unfold State.latestTag at hlatest
  split at hlatest
  · cases hlatest
  · next hne =>
    have hb := Option.some.inj hlatest
    omega

/-! ### The commands of the host bus -/

theorem hostWriteStep_readLaw (a : Addr) (e : BitVec 4) (data : Word) (h : s.readLaw) : (hostWriteStep a e data s).readLaw := by
  unfold hostWriteStep
  split
  · exact h.respond _
  · split
    · exact h
    · next hfree =>
      have hheld : s.cbp.held = none := Option.not_isSome_iff_eq_none.1 hfree
      split
      · exact h.respond _
      · split_ifs with hfault hlock hroom
        · exact h.respond _
        · exact h.respond _
        · exact (h.post hroom (by rw [hheld]; exact nofun) _ _ _).respond _
        · exact ⟨h.posted, h.tags, h.barriers, h.slots, h.issued, fun _ _ _ hread => by cases hread⟩

theorem State.newRead_readLaw (h : s.readLaw) (a : Addr) (size : Size) : (s.newRead a size).readLaw := by
  unfold State.newRead
  split
  · next hdirect =>
    simp only [State.directReadPossible, Bool.and_eq_true, List.isEmpty_iff, Bool.not_eq_true', Option.isNone_iff_eq_none]
      at hdirect
    obtain ⟨⟨⟨hqueue, htag⟩, hrunning⟩, -⟩ := hdirect
    exact ⟨h.posted, h.tags, h.barriers, h.slots, h.issued, fun _ _ _ _ => ⟨hqueue, htag, hrunning⟩⟩
  · split
    · exact (h.latchRead _ _ _).respond _
    · exact h.respond _

theorem hostReadStep_readLaw (a : Addr) (e : BitVec 4) (h : s.readLaw) : (hostReadStep a e s).readLaw := by
  unfold hostReadStep
  split
  · exact h.respond _
  · split
    · exact h
    · split
      · exact h.respond _
      · split
        · exact h.respond _
        · unfold State.judgeRead
          repeat' split
          · exact h.respond _
          · exact (h.freeSlot _).respond _
          · exact h.respond _
          · exact h.respond _
          · exact State.newRead_readLaw h _ _
          · exact State.newRead_readLaw h _ _

/-- A slot that may issue stands behind no posted write and no tagged table write (R133). -/
theorem State.mayIssue_spec {r : ReadSlot} (h : s.mayIssue r = true) :
    (∀ b, r.barrier = some b → s.settledTo b) ∧ s.xe.running = none ∧ s.lockRefusesRead r.addr = false := by
  unfold State.mayIssue at h
  simp only [Bool.and_eq_true, Bool.not_eq_true', Option.isNone_iff_eq_none] at h
  obtain ⟨⟨hbarrier, hrunning⟩, hlock⟩ := h
  refine ⟨fun b hb => ?_, hrunning, hlock⟩
  rw [hb] at hbarrier
  simp only [Bool.and_eq_true, Bool.not_eq_true', List.any_eq_false, decide_eq_true_eq, not_le] at hbarrier
  obtain ⟨hqueue, htags⟩ := hbarrier
  refine ⟨hqueue, fun e he x hx => ?_⟩
  have hentry := List.any_eq_false.1 htags e he
  rw [hx] at hentry
  simpa using hentry

theorem delayedReadIssueStep_readLaw (i : ReadSlotNo) (h : s.readLaw) : (delayedReadIssueStep i s).readLaw := by
  unfold delayedReadIssueStep
  split
  · next r hr =>
    split
    · split
      · next hmay =>
        obtain ⟨hsettled, hrunning, -⟩ := s.mayIssue_spec hmay
        refine h.setSlot i s.cbp.latchOrder fun q hq => ?_
        cases hq
        exact ⟨h.barriers i r hr, fun _ => hsettled, fun _ _ => hrunning⟩
      · exact h
    · exact h
    · exact h
  · exact h

/-- A read of CTL gets its bytes: its slot keeps its barrier (R133). -/
theorem State.slotGranted_readLaw (h : s.readLaw) (i : ReadSlotNo) (bytes : List Byte) : (s.slotGranted i bytes).readLaw := by
  unfold State.slotGranted
  split
  · next r hr =>
    split
    · next got hstate =>
      refine h.setSlot i s.cbp.latchOrder fun q hq => ?_
      have hsettled := h.slots i r hr (by rw [hstate]; exact nofun)
      have hrunning := h.issued i r got hr hstate
      cases hq
      unfold ReadSlot.receive
      split <;> exact ⟨h.barriers i r hr, fun _ => hsettled, fun _ _ => hrunning⟩
    · exact h
    · exact h
  · exact h

theorem State.directGranted_readLaw (h : s.readLaw) (bytes : List Byte) : (s.directGranted bytes).readLaw := by
  unfold State.directGranted
  split
  · next a size got hheld =>
    split
    · exact h.release _
    · exact ⟨h.posted, h.tags, h.barriers, h.slots, h.issued, fun _ _ _ _ => h.direct a size got hheld⟩
  · exact h
  · exact h

/-! ### The exchange -/

theorem State.withdrawReads_readLaw (h : s.readLaw) : s.withdrawReads.readLaw ∧
    ∀ (i : ReadSlotNo) (r : ReadSlot) (got : List Byte), s.withdrawReads.cbp.slots[i] = some r → r.state ≠ .issued got := by
  have hslot : ∀ (i : ReadSlotNo) (r : ReadSlot), s.withdrawReads.cbp.slots[i] = some r →
      ∃ q, s.cbp.slots[i] = some q ∧ r = q.withdraw := fun i r hr => by
    simp only [State.withdrawReads_cbp, Fin.getElem_fin, Vector.getElem_map, Option.map_eq_some_iff] at hr
    obtain ⟨q, hq, rfl⟩ := hr
    exact ⟨q, hq, rfl⟩
  have hbarrier : ∀ q : ReadSlot, q.withdraw.barrier = q.barrier := fun q => by
    unfold ReadSlot.withdraw
    split <;> rfl
  have hstate : ∀ q : ReadSlot, q.withdraw.state = .latched ∨ (q.withdraw.state = q.state ∧ ∀ got, q.state ≠ .issued got) :=
    fun q => by
      unfold ReadSlot.withdraw
      split
      · exact .inl rfl
      · next hq => exact .inl hq
      · next hq => exact .inr ⟨rfl, fun got => by rw [hq]; exact nofun⟩
  have hnone : ∀ (q : ReadSlot) (got : List Byte), q.withdraw.state ≠ .issued got := fun q got => by
    obtain hq | ⟨hq, hnot⟩ := hstate q <;> rw [hq]
    · exact nofun
    · exact hnot got
  refine ⟨⟨h.posted, h.tags, fun i r hr b hb => ?_, fun i r hr hnot b hb => ?_, fun i r got hr hgot => ?_, h.direct⟩,
    fun i r got hr => ?_⟩
  · obtain ⟨q, hq, rfl⟩ := hslot i r hr
    exact h.barriers i q hq b (hbarrier q ▸ hb)
  · obtain ⟨q, hq, rfl⟩ := hslot i r hr
    obtain hlatched | ⟨he, -⟩ := hstate q
    · exact absurd hlatched hnot
    · exact h.slots i q hq (he ▸ hnot) b (hbarrier q ▸ hb)
  · obtain ⟨q, -, rfl⟩ := hslot i r hr
    exact absurd hgot (hnone q got)
  · obtain ⟨q, -, rfl⟩ := hslot i r hr
    exact hnone q got

/-- With no read under way an exchange may run. -/
theorem State.readLaw.setRunning (h : s.readLaw)
    (hissued : ∀ (i : ReadSlotNo) (r : ReadSlot) (got : List Byte), s.cbp.slots[i] = some r → r.state ≠ .issued got)
    (hheld : ∀ a size got, s.cbp.held ≠ some (.read a size got)) (x : Option RunningExchange) : (s.setRunning x).readLaw :=
  ⟨h.posted, h.tags, h.barriers, h.slots, fun i r got hr hgot => absurd hgot (hissued i r got hr),
    fun a size got hread => absurd hread (hheld a size got)⟩

/-- A direct read that is withdrawn is no longer held, and is latched where a slot is free (R132). -/
theorem State.withdrawDirect_spec (s : State) : (∀ a size got, s.withdrawDirect.cbp.held ≠ some (.read a size got)) ∧
    (s.withdrawDirect = s ∨ (s.withdrawDirect = { s with cbp := { s.cbp with held := none, response := .retry } }) ∨
      ∃ i a size, s.withdrawDirect =
        State.latchRead { s with cbp := { s.cbp with held := none, response := .retry } } i a size) := by
  unfold State.withdrawDirect
  split
  · dsimp only
    split
    · exact ⟨nofun, .inr (.inr ⟨_, _, _, rfl⟩)⟩
    · exact ⟨nofun, .inr (.inl rfl)⟩
  · next hheld => exact ⟨fun _ _ _ => by rw [hheld]; exact nofun, .inl rfl⟩
  · next hheld => exact ⟨fun _ _ _ => by rw [hheld]; exact nofun, .inl rfl⟩

theorem State.withdrawDirect_setRunning (s : State) (x : Option RunningExchange) :
    (s.setRunning x).withdrawDirect = s.withdrawDirect.setRunning x := by
  unfold State.withdrawDirect
  rw [State.setRunning_cbp]
  split
  · dsimp only
    have hfree : ({ s.setRunning x with cbp := { s.cbp with held := none, response := .retry } } : State).freeReadSlotNo =
        ({ s with cbp := { s.cbp with held := none, response := .retry } } : State).freeReadSlotNo := rfl
    rw [hfree]
    cases ({ s with cbp := { s.cbp with held := none, response := .retry } } : State).freeReadSlotNo <;> rfl
  · rfl
  · rfl

theorem State.beginExchange_readLaw (h : s.readLaw) (r : ExchangeRequest) : (s.beginExchange r).readLaw := by
  obtain ⟨hreads, hissued⟩ := s.withdrawReads_readLaw h
  have he : ∀ x, (s.setRunning x).withdrawReads.withdrawDirect = s.withdrawReads.withdrawDirect.setRunning x := fun x =>
    s.withdrawReads.withdrawDirect_setRunning x
  rw [State.beginExchange, he]
  obtain ⟨hheld, hd⟩ := s.withdrawReads.withdrawDirect_spec
  obtain hd | hd | ⟨i, a, size, hd⟩ := hd
  · rw [hd] at hheld ⊢
    exact hreads.setRunning hissued hheld _
  · rw [hd] at hheld ⊢
    exact (hreads.release .retry).setRunning hissued hheld _
  · rw [hd] at hheld ⊢
    refine ((hreads.release .retry).latchRead i a size).setRunning (fun j q got hq => ?_) hheld _
    by_cases hij : i.val = j.val
    · simp only [State.latchRead, Fin.getElem_fin, Vector.getElem_set, if_pos hij, Option.some.injEq] at hq
      subst hq
      exact nofun
    · simp only [State.latchRead, Fin.getElem_fin, Vector.getElem_set, if_neg hij] at hq
      exact hissued j q got hq

theorem State.startFrom_readLaw (l : List ExchangeRequest) (h : s.readLaw) : (State.startFrom l s).readLaw := by
  induction l generalizing s with
  | nil => exact h.carry (State.keepsReads_of_blocks rfl rfl rfl)
  | cons r rest ih =>
    unfold State.startFrom
    split
    · exact ih (h.carry (s.emit_keepsReads _ _ _ _ _))
    · refine State.beginExchange_readLaw (h.carry (State.keepsReads_of_blocks ?_ ?_ ?_)) r <;> rfl

theorem State.skipEntry_eq (s : State) (x : RunningExchange) (reason : SkipReason) (b : Word) :
    s.skipEntry x reason b = { s with
      ew := (s.skipEntry x reason b).ew, xe := { s.xe with running := (s.skipEntry x reason b).xe.running } } := by
  rw [State.skipEntry, State.emit_eq]
  rfl

/-- What follows an access of the exchange changes the running exchange and the event writer alone (R114). -/
theorem State.exchangeStep_eq (s : State) (x : RunningExchange) (w : Word) : s.exchangeStep x w = { s with
    ew := (s.exchangeStep x w).ew, xe := { s.xe with running := (s.exchangeStep x w).xe.running } } := by
  unfold State.exchangeStep
  split
  · rfl
  · unfold State.keyRead
    dsimp only
    split
    · rfl
    · split
      · rfl
      · exact s.skipEntry_eq _ _ _
  · unfold State.planPathRead
    dsimp only
    split
    · rfl
    · split
      · exact s.skipEntry_eq _ _ _
      · split
        · exact s.skipEntry_eq _ _ _
        · rfl
  · rfl
  · rfl
  · rw [State.endExchange, State.emit_eq]
    rfl

/-- While an exchange runs, the event writer and the running exchange are nothing that the read law asks for. -/
theorem State.keepsReads_of_running (hrunning : s.xe.running ≠ none) (ew : EventWriter) (xe : ExchangeEngine) :
    s.keepsReads { s with ew := ew, xe := xe } :=
  State.keepsReads_of rfl rfl rfl rfl (fun h => absurd h hrunning) (.refl _)

theorem State.swapEntry_keepsReads (hrunning : s.xe.running ≠ none) (y : RunningExchange) (d : Dest)
    (src : Source) (attn : Attn) : s.keepsReads (s.swapEntry y d src attn) := by
  unfold State.swapEntry
  split
  · rw [State.skipEntry_eq]
    exact State.keepsReads_of_running hrunning _ _
  · refine (s.swap_requested d src attn).keepsReads_untagged.trans (State.keepsReads_of rfl rfl rfl rfl (fun h => ?_) (.refl _))
    rw [(s.swap_requested d src attn).outside.xe] at h
    exact absurd h hrunning

/-! ### Adoption and the restart -/

theorem State.stopTicks_keepsReads (s : State) : s.keepsReads s.stopTicks := State.keepsReads_of_blocks rfl rfl rfl

theorem State.refuseListed_keepsReads (s : State) : s.keepsReads s.refuseListed := by
  have hfold : ∀ (l : List ExchangeRequest) (u : State), u.keepsReads (l.foldl State.refuseRequest u) := fun l => by
    induction l with
    | nil => exact fun u => .refl u
    | cons r l ih => exact fun u => (u.emit_keepsReads _ _ _ _ _).trans (ih _)
  rw [State.refuseListed_eq]
  refine (hfold s.xe.list s).trans (State.keepsReads_of_blocks ?_ ?_ ?_) <;> rfl

theorem State.awaitAdoption_keepsReads (s : State) : s.keepsReads s.awaitAdoption :=
  State.keepsReads_of rfl rfl rfl rfl id (.refl _)

theorem State.carryOutRestart_keepsReads (s : State) : s.keepsReads s.carryOutRestart := by
  have hrestart := s.abortOpen_requests.keepsReads.trans s.abortOpen.restart_requested.keepsReads_untagged
  unfold State.carryOutRestart
  refine State.keepsReads.trans ?_ (State.awaitAdoption_keepsReads _)
  exact (hrestart.trans (State.stopTicks_keepsReads _)).trans (State.refuseListed_keepsReads _)

theorem State.headGranted_readLaw (h : s.readLaw) : s.headGranted.readLaw := by
  obtain he | ⟨_, _, _, _, _, he⟩ | ⟨_, _, he⟩ | ⟨_, _, he⟩ := s.headGranted_cases <;> rw [he]
  · exact h
  · exact h.carry (s.setHead_keepsReads _)
  · exact h.retireHead
  · exact h.carry s.carryOutRestart_keepsReads

theorem State.buildRecord_requests (s : State) (d : Dest) (r : DestRecord) : s.requests (s.buildRecord d r) :=
  ((((State.reworks.refl s).reportLoad d r).takeHolder d _).takeClaimant d _).torequests

theorem State.setAdoption_keepsReads (s : State) (a : Option Adoption) : s.keepsReads (s.setAdoption a) :=
  State.keepsReads_of_blocks rfl rfl rfl

theorem State.setCondition_keepsReads (s : State) (p : Plan) (c : PlanCondition) : s.keepsReads (s.setCondition p c) :=
  State.keepsReads_of_blocks rfl rfl rfl

theorem State.markAll_keepsReads (s : State) (ds : List Dest) : s.keepsReads (s.markAll none ds) :=
  ⟨rfl, rfl, rfl, rfl, id, fun _ he _ hx => .inr ((foldl_markUpdate_tags ds he hx).resolve_left nofun)⟩

theorem State.endAdoption_readLaw (h : s.readLaw) (a : Adoption) : (s.endAdoption a).readLaw := by
  unfold State.endAdoption
  dsimp only
  have hdone : s.keepsReads _ := (s.emit_keepsReads .adoptionDone 0 0#16 (BitVec.ofNat 32 a.adopted)
    (BitVec.ofNat 32 a.fixed)).trans (State.keepsReads_of (t := { s.emit .adoptionDone 0 0#16
      (BitVec.ofNat 32 a.adopted) (BitVec.ofNat 32 a.fixed) with
      cbp := { (s.emit .adoptionDone 0 0#16 (BitVec.ofNat 32 a.adopted) (BitVec.ofNat 32 a.fixed)).cbp with
        lock := lockAfterAdoption (s.emit .adoptionDone 0 0#16 (BitVec.ofNat 32 a.adopted)
          (BitVec.ofNat 32 a.fixed)).pu.lockout }
      re := { (s.emit .adoptionDone 0 0#16 (BitVec.ofNat 32 a.adopted) (BitVec.ofNat 32 a.fixed)).re with
        tickTimer := true, occasionDue := true }
      pu := { (s.emit .adoptionDone 0 0#16 (BitVec.ofNat 32 a.adopted) (BitVec.ofNat 32 a.fixed)).pu with
        adoption := none } }) rfl rfl rfl rfl id (.refl _))
  have hoccasion := h.carry (hdone.trans (State.occasion_requested _).keepsReads_untagged)
  split
  · exact hoccasion.retireHead
  · exact hoccasion

theorem State.afterHeader_readLaw (h : s.readLaw) (a : Adoption) (p : Plan) : (s.afterHeader a p).readLaw := by
  unfold State.afterHeader
  split
  · exact h.carry (s.setAdoption_keepsReads _)
  · exact State.endAdoption_readLaw h a

theorem State.adoptionStep_readLaw (h : s.readLaw) (a : Adoption) (w : Word) : (s.adoptionStep a w).readLaw := by
  unfold State.adoptionStep
  split
  · exact h
  · exact h.carry (State.keepsReads_of_blocks rfl rfl rfl)
  · refine h.carry ?_
    unfold State.adoptWord
    split
    · unfold State.adoptFixed
      exact (((s.buildRecord_requests _ _).emit _ _ _ _ _).keepsReads.trans (State.markAll_keepsReads _ _)).trans
        (State.setAdoption_keepsReads _ _)
    · unfold State.adoptFound
      dsimp only
      split
      · exact (s.buildRecord_requests _ _).keepsReads.trans (State.setAdoption_keepsReads _ _)
      · exact ((s.buildRecord_requests _ _).keepsReads.trans (State.setAdoption_keepsReads _ _)).trans
          (State.markAll_keepsReads _ _)
  · exact h.carry (s.setAdoption_keepsReads _)
  · unfold State.adoptHeader
    split
    · exact State.afterHeader_readLaw (h.carry (s.setCondition_keepsReads _ _)) _ _
    · split
      · exact State.afterHeader_readLaw (h.carry (s.setCondition_keepsReads _ _)) _ _
      · exact h.carry (((s.setCondition_keepsReads _ _).trans (State.emit_keepsReads _ _ _ _ _ _)).trans
          (State.setAdoption_keepsReads _ _))
  · exact State.afterHeader_readLaw h _ _

/-! ### Light -/

theorem State.setWay_keepsReads (s : State) (w : Way) (r : WayRecord) : s.keepsReads (s.setWay w r) :=
  State.keepsReads_of_blocks rfl rfl rfl

theorem State.wayChange_keepsReads (s : State) (w : Way) (old : WayState) (r : WayRecord) :
    s.keepsReads ((s.setWay w r).emitWayState w old r) :=
  (s.setWay_keepsReads w r).trans (State.emit_keepsReads _ _ _ _ _ _)

theorem State.isolate_keepsReads (s : State) (w : Way) : s.keepsReads (s.isolate w) :=
  State.keepsReads.trans (t := s.setIsolated w true) (State.keepsReads_of_blocks rfl rfl rfl)
    (s.isolate_requested w).keepsReads_untagged

theorem State.release_keepsReads (s : State) (w : Way) {tag : Option Nat}
    (htag : ∀ x, tag = some x → ∃ p ∈ s.cbp.queue, p.tag = x) : s.keepsReads (s.release w tag) :=
  State.keepsReads.trans (t := s.setIsolated w false) (State.keepsReads_of_blocks rfl rfl rfl)
    ((s.release_requested w tag).keepsReads htag)

theorem State.callPlan_keepsReads (s : State) (w : Way) : s.keepsReads (s.callPlan w) := by
  have hfault : ∀ p, s.keepsReads (s.faultRequest w p) := fun p => by
    unfold State.faultRequest
    split
    · exact s.emit_keepsReads _ _ _ _ _
    · split
      · exact s.emit_keepsReads _ _ _ _ _
      · split
        · exact s.emit_keepsReads _ _ _ _ _
        · exact State.keepsReads_of_blocks rfl rfl rfl
  unfold State.callPlan
  split
  · exact .refl s
  · split
    · exact .refl s
    · exact (hfault _).trans (State.setWay_keepsReads _ _ _)

theorem State.evaluateWay_keepsReads (s : State) (w : Way) : s.keepsReads (s.evaluateWay w) := by
  have hserving : ∀ r lossy, s.keepsReads (s.evaluateServing w r lossy) := fun r lossy => by
    by_cases hsame : stateOfCounter (nextCounter lossy r.counter) = r.state
    · rw [State.evaluateServing_same hsame]
      exact s.setWay_keepsReads _ _
    · rw [State.evaluateServing_changed hsame]
      split
      · exact (s.wayChange_keepsReads _ _ _).trans (State.isolate_keepsReads _ _)
      · exact (s.wayChange_keepsReads _ _ _).trans (State.callPlan_keepsReads _ _)
      all_goals exact s.wayChange_keepsReads _ _ _
  unfold State.evaluateWay
  dsimp only
  split
  · exact hserving _ _
  · exact hserving _ _
  · exact hserving _ _
  · unfold State.evaluateIsolated
    dsimp only
    split
    · exact s.setWay_keepsReads _ _
    · split
      · exact s.setWay_keepsReads _ _
      · split
        · exact s.wayChange_keepsReads _ _ _
        · exact (s.wayChange_keepsReads _ _ _).trans (State.release_keepsReads _ _ nofun)
  · unfold State.evaluateAwaiting
    dsimp only
    split
    · exact s.wayChange_keepsReads _ _ _
    · exact s.setWay_keepsReads _ _

end Reads

/-! ### Every command -/

theorem State.headToTake_mem {s : State} {h : PostedWrite} (hh : s.headToTake = some h) : h ∈ s.cbp.queue := by
  obtain ⟨-, ⟨rest, hqueue⟩, -⟩ := State.headToTake_spec hh
  rw [hqueue]
  exact List.mem_cons_self

theorem State.commandToTake_mem {s : State} {n : Nat} {h : PostedWrite} (hc : s.commandToTake n = some h) :
    h ∈ s.cbp.queue := State.headToTake_mem (State.commandToTake_spec hc).1

/-- A request under the tag of a posted write. -/
theorem State.requested.keepsReads_of_posted {s t : State} {h : PostedWrite} (k : s.requested t (some h.tag))
    (hmem : h ∈ s.cbp.queue) : s.keepsReads t := k.keepsReads fun _ hx => ⟨h, hmem, Option.some.inj hx⟩

theorem State.blockNext_keepsReads {s : State} {h : PostedWrite} (hmem : h ∈ s.cbp.queue) (m : Fin 12)
    (todo : List (Fin 32)) : s.keepsReads (s.blockNext h.tag m todo) := by
  obtain ⟨u, stage, hu, he⟩ := s.blockNext_requested h.tag m todo
  have hkeeps := hu.keepsReads_of_posted hmem
  rw [he]
  refine hkeeps.trans (State.keepsReads_of ?_ ?_ ?_ ?_ id (.refl _)) <;> rw [hu.outside.cbp]

theorem commandStep_readLaw (c : Instr) (s : State) (h : s.readLaw) : (commandStep c s).readLaw := by
  have hmailbox : ∀ {t : State} {q : PostedWrite} {restart : Bool}, s.keepsReads t → (t.mailbox q restart).readLaw :=
    fun ht => h.carry (ht.trans (State.mailbox_keepsReads _ _ _))
  have hgranted : ∀ r, (s.granted r).readLaw := fun r => h.carry (State.keepsReads_of_blocks rfl rfl rfl)
  cases c with
  | resetAssert u =>
    have hidle : ∀ i : ReadSlotNo, State.reset.cbp.slots[i] = none := fun i => Vector.getElem_replicate _
    obtain he | ⟨_, _, _, _, he⟩ := resetAssertStep_cases u s <;> rw [commandStep, he] <;>
      exact State.readLaw_of_idle rfl hidle rfl
  | resetRelease winsel lockout romen =>
    simp only [commandStep, resetReleaseStep]
    split
    · exact h.carry (State.keepsReads_of_blocks rfl rfl rfl)
    · exact h
  | preloadEnd image =>
    obtain he | ⟨_, he⟩ := preloadEndStep_cases image s <;> rw [commandStep, he]
    · exact h
    · exact h.carry (State.keepsReads_of_blocks rfl rfl rfl)
  | timebaseTick =>
    simp only [commandStep, timebaseTickStep]
    split
    · exact h
    · exact h.carry (State.keepsReads_of_blocks rfl rfl rfl)
  | hostWrite a e d => exact hostWriteStep_readLaw a e d h
  | hostRead a e => exact hostReadStep_readLaw a e h
  | delayedReadIssue i => exact delayedReadIssueStep_readLaw i h
  | discardTimerExpiry i =>
    obtain he | ⟨_, _, _, _, he⟩ := discardTimerExpiryStep_cases i s <;> rw [commandStep, he]
    · exact h
    · exact (h.freeSlot i).carry (State.emit_keepsReads _ _ _ _ _ _)
  | pathWrite =>
    obtain he | ⟨q, _, hq, _, he⟩ := pathWriteStep_cases s <;> rw [commandStep, he]
    · exact h
    · exact (h.carry ((s.takePathWord_requested _ _ _ _).keepsReads_of_posted (State.headToTake_mem hq))).retireHead
  | maskViewWrite =>
    obtain he | ⟨_, _, q, rest, _, hq, he⟩ | ⟨q, _, _, hq, _, _, he⟩ := maskViewWriteStep_cases s <;> rw [commandStep, he]
    · exact h
    · exact h.carry (State.blockNext_keepsReads (by rw [hq]; exact List.mem_cons_self) _ _)
    · refine (h.carry ?_).carry (State.blockNext_keepsReads ?_ _ _)
      · exact State.keepsReads_of_blocks rfl rfl rfl
      · exact State.headToTake_mem hq
  | writeThrough =>
    obtain he | ⟨_, _, _, he⟩ := writeThroughStep_cases s <;> rw [commandStep, he]
    · exact h
    · exact h.carry (s.setHead_keepsReads _)
  | planHeaderWrite =>
    obtain he | ⟨_, _, _, _, _, he | he⟩ := planHeaderWriteStep_cases s <;> rw [commandStep, he]
    · exact h
    · exact h.carry ((s.setCondition_keepsReads _ _).trans (State.setHead_keepsReads _ _))
    · exact (h.carry (s.emit_keepsReads _ _ _ _ _)).retireHead
  | statusZoneWrite =>
    obtain he | ⟨_, _, _, he⟩ := statusZoneWriteStep_cases s <;> rw [commandStep, he]
    · exact h
    · exact (h.carry (s.emit_keepsReads _ _ _ _ _)).retireHead
  | narrowCommandWrite =>
    obtain he | ⟨_, _, _, he⟩ := narrowCommandWriteStep_cases s <;> rw [commandStep, he]
    · exact h
    · exact h.carry ((s.emit_keepsReads _ _ _ _ _).trans (State.setHead_keepsReads _ _))
  | cmdUnlock =>
    obtain he | ⟨_, _, he⟩ := cmdUnlockStep_cases s <;> rw [commandStep, he]
    · exact h
    · exact hmailbox (State.keepsReads_of rfl rfl rfl rfl id (.refl _))
  | cmdAbortSet =>
    obtain he | ⟨_, _, he⟩ := cmdAbortSetStep_cases s <;> rw [commandStep, he]
    · exact h
    · exact hmailbox s.abortOpen_requests.keepsReads
  | cmdExchange =>
    obtain he | ⟨q, _, he⟩ := cmdExchangeStep_cases s <;> rw [commandStep, he]
    · exact h
    · refine hmailbox ?_
      unfold State.controllerRequest
      split
      · exact s.emit_keepsReads _ _ _ _ _
      · split
        · exact State.keepsReads_of_blocks rfl rfl rfl
        · exact .refl s
  | cmdRelease =>
    obtain he | ⟨q, hq, he⟩ := cmdReleaseStep_cases s <;> rw [commandStep, he]
    · exact h
    · refine hmailbox ?_
      obtain ⟨code, hm⟩ | ⟨k, _, _, hm⟩ := s.manualRelease_cases q.data.toNat q.tag <;> rw [hm]
      · exact s.emit_keepsReads _ _ _ _ _
      · have hway := s.wayChange_keepsReads k .awaitRelease s.lm.ways[k].cleared
        refine hway.trans (State.release_keepsReads _ k fun _ hx => ⟨q, ?_, Option.some.inj hx⟩)
        rw [hway.queue]
        exact State.commandToTake_mem hq
  | cmdRingTail =>
    obtain he | ⟨_, _, ⟨_, _, he⟩ | ⟨_, _, he⟩ | ⟨_, he⟩⟩ := cmdRingTailStep_cases s <;> rw [commandStep, he]
    · exact h
    · exact h.carry (s.mailbox_keepsReads _ _)
    · exact h.carry (State.keepsReads_of rfl rfl rfl rfl id (.refl _))
    · exact hmailbox (s.emit_keepsReads _ _ _ _ _)
  | cmdRestart =>
    obtain he | ⟨_, _, he⟩ := cmdRestartStep_cases s <;> rw [commandStep, he]
    · exact h
    · exact h.carry (s.mailbox_keepsReads _ _)
  | ctlWriteGrant =>
    obtain he | ⟨_, hr, he⟩ := ctlWriteGrantStep_cases s <;> rw [commandStep, he]
    · exact h
    · exact State.headGranted_readLaw (hgranted _)
  | ctlReadGrant =>
    obtain he | ⟨hr, ⟨i, _, he⟩ | ⟨_, he⟩⟩ := ctlReadGrantStep_cases s <;> rw [commandStep, he]
    · exact h
    · exact State.slotGranted_readLaw (hgranted _) _ _
    · exact State.directGranted_readLaw (hgranted _) _
  | tblGrant =>
    obtain he | ⟨hr, he⟩ := tblGrantStep_cases s <;> rw [commandStep, he]
    · exact h
    · rw [State.updateWritten_eq]
      exact (hgranted .tbl).carry (State.keepsReads_of rfl rfl rfl rfl id List.eraseP_sublist)
  | rampTickExpiry =>
    rw [commandStep, rampTickExpiryStep_eq]
    exact h.carry (State.keepsReads_of_blocks rfl rfl rfl)
  | wayPass w =>
    obtain he | ⟨_, he⟩ := wayPassStep_cases w s <;> rw [commandStep, he]
    · exact h
    · exact (h.carry (t := s.takePass w) (State.keepsReads_of_blocks rfl rfl rfl)).carry
        (State.passWay_requested _ w).keepsReads_untagged
  | arbiterOccasion =>
    obtain he | ⟨_, _, he⟩ := arbiterOccasionStep_cases s <;> rw [commandStep, he]
    · exact h
    · exact h.carry s.occasion_requested.keepsReads_untagged
  | checkIntervalExpiry =>
    rw [commandStep, checkIntervalExpiryStep_eq]
    exact h.carry (State.keepsReads_of_blocks rfl rfl rfl)
  | losChange w level =>
    simp only [commandStep, losChangeStep]
    split <;> exact h.carry (State.keepsReads_of_blocks rfl rfl rfl)
  | wayEvaluation w =>
    obtain he | ⟨_, he⟩ := wayEvaluationStep_cases w s <;> rw [commandStep, he]
    · exact h
    · exact (h.carry (t := s.takeEvaluation w) (State.keepsReads_of_blocks rfl rfl rfl)).carry
        (State.evaluateWay_keepsReads _ w)
  | exchangeStart =>
    simp only [commandStep, exchangeStartStep]
    split
    · exact State.startFrom_readLaw _ h
    · exact h
  | exchangeAccessGrant =>
    obtain he | ⟨x, _, hx, hr, he⟩ := exchangeAccessGrantStep_cases s <;> rw [commandStep, he]
    · exact h
    · rw [State.exchangeStep_eq]
      refine (hgranted .xch).carry (State.keepsReads_of_running ?_ _ _)
      change s.xe.running ≠ none
      rw [hx]
      exact nofun
  | exchangeSwap =>
    obtain he | ⟨x, _, _, hx, _, _, _, he⟩ := exchangeSwapStep_cases s <;> rw [commandStep, he]
    · exact h
    · exact h.carry (State.swapEntry_keepsReads (by rw [hx]; exact nofun) _ _ _ _)
  | adoptionStart =>
    obtain he | ⟨_, _, _, _, he⟩ := adoptionStartStep_cases s <;> rw [commandStep, he]
    · exact h
    · exact h.carry (State.keepsReads_of_blocks rfl rfl rfl)
  | adoptionAccessGrant =>
    obtain he | ⟨a, _, hr, he⟩ := adoptionAccessGrantStep_cases s <;> rw [commandStep, he]
    · exact h
    · exact State.adoptionStep_readLaw (hgranted _) _ _
  | eventRecordGrant =>
    obtain he | ⟨_, hr, he⟩ := eventRecordGrantStep_cases s <;> rw [commandStep, he]
    · exact h
    · rw [State.recordGranted_eq]
      exact (hgranted .evt).carry (State.keepsReads_of_blocks rfl rfl rfl)
  | ringWordGrant =>
    obtain he | ⟨_, hr, he⟩ := ringWordGrantStep_cases s <;> rw [commandStep, he]
    · exact h
    · obtain ⟨_, hg⟩ | ⟨_, _, _, _, hg⟩ := (s.granted .evt).ringWordGranted_cases <;> rw [hg]
      · exact (hgranted .evt).carry (State.keepsReads_of_blocks rfl rfl rfl)
      · exact (hgranted .evt).carry (State.keepsReads_of rfl rfl rfl rfl id (.refl _))
  | statusZoneGrant =>
    obtain he | ⟨_, hr, he⟩ := statusZoneGrantStep_cases s <;> rw [commandStep, he]
    · exact h
    · rw [State.statusGranted_eq]
      exact (hgranted .evt).carry (State.keepsReads_of_blocks rfl rfl rfl)

/-- Settles O56: every command keeps the read law; what it marks carries no tag but that of a posted write. -/
theorem readsStayBehindWrites : Obligations.ReadsStayBehindWrites := by
  unfold Obligations.ReadsStayBehindWrites
  refine fun s t => step_keeps (fun s rest h => h.carry ?_) commandStep_readLaw
  exact State.keepsReads_of_blocks rfl rfl rfl

end Sys2Proof.Machine

/-! The state after reset meets every law (O50). -/

namespace Sys2Proof.Machine

theorem reset_record (d : Dest) : State.reset.record d = blankRecord := by
  have hnone : State.reset.dt.records[d] = none := Vector.getElem_replicate _
  rw [State.record, hnone]
  rfl

theorem reset_slot (n : SlotNo) : State.reset.re.slots[n] = none := Vector.getElem_replicate _

theorem reset_port (p : Port) : State.reset.dt.ports[p] = { holder := none, claimant := none } := Vector.getElem_replicate _

theorem reset_mask (m : Fin 12) : State.reset.masks[m] = none := Vector.getElem_replicate _

theorem reset_tableLaw : State.reset.tableLaw where
  openDests := List.nodup_nil
  openBound := Nat.zero_le _
  sets := nofun
  setBound := Nat.zero_le _
  marks d := by rw [reset_record]; rfl
  settling := nofun
  settlingIds := List.nodup_nil
  exclusive h := absurd rfl h
  masking _ _ _ := rfl
  swapWord := nofun
  intents d := by rw [reset_record]; trivial
  currents d := by rw [reset_record]; trivial
  darkNone d _ := by rw [reset_record]; rfl
  claimants _ p d := by
    rw [reset_port, reset_record]
    exact ⟨nofun, fun h => nomatch h.2⟩
  holders _ p d := by
    rw [reset_port, reset_record]
    exact ⟨nofun, fun h => nomatch h.2⟩
  drops d _ := by rw [reset_record]; exact ⟨rfl, rfl, rfl⟩
  slots n sl h := by rw [reset_slot] at h; cases h
  slotNames d n h := by rw [reset_record] at h; cases h
  list := ⟨List.nodup_nil, fun n => by rw [reset_slot]; exact ⟨nofun, nofun⟩⟩
  adopting h := absurd rfl h
  rebuilt h := absurd rfl h
  wanted d h := by rw [reset_record] at h; cases h
  unbuilt d h := by cases h
  forcedFlag d := by rw [reset_record]; rfl
  forcedRest d h := by rw [reset_record] at h; cases h

theorem reset_maskLaw : State.reset.maskLaw where
  present h := nomatch h
  rebuilt := nofun
  flags d h := by rw [show State.reset.dt.records[d] = none from Vector.getElem_replicate _] at h; cases h
  words m w h := by rw [reset_mask] at h; cases h
  masking := nofun

theorem reset_imageLaw : State.reset.imageLaw where
  image d h := by rw [show State.reset.dt.records[d] = none from Vector.getElem_replicate _] at h; cases h
  listed := List.nodup_nil
  queue := nofun
  held := nofun
  head := nofun
  taken h := absurd rfl h
  ringWord := nofun
  fixed := nofun
  mask := reset_maskLaw

/-- Settles O50: law by law, of tables that hold nothing. -/
theorem resetKeepsEveryLaw : Obligations.ResetKeepsEveryLaw :=
  ⟨fun _ => rfl, reset_memory_wf, State.hardReset_ringLaw rfl rfl, reset_loadLaw, State.hardReset_wayLaw rfl rfl,
    State.readLaw_of_idle rfl (fun _ => Vector.getElem_replicate _) rfl, State.exchangeLaw_of_empty rfl, reset_tableLaw,
    reset_imageLaw⟩

end Sys2Proof.Machine

/-! The host bus and the handing over of the queue's head, as the statements of their commands give them (O8 to O12, O19 to
O22, O24). -/

namespace Sys2Proof.Machine

/-! ### Addresses and byte enables (R124, R125) -/

theorem inWindow_iff (p : Params) (a : Addr) : inWindow p a = true ↔ a.toNat / 65536 = p.windowBase.toNat := beq_iff_eq

theorem sizeOfEnables_eq_none {enables : BitVec 4} (h : enabledCount enables = 0 ∨ enabledCount enables = 3) :
    sizeOfEnables enables = none := by
  unfold sizeOfEnables
  obtain h | h := h <;> rw [h] <;> rfl

/-- The access crosses a 4-byte boundary where its first and its last byte lie in two words. -/
theorem crosses_iff (a : Addr) (size : Size) :
    crosses a size = true ↔ a.toNat / 4 ≠ (a.toNat + size.bytes - 1) / 4 := by
  rw [crosses, decide_eq_true_eq]
  cases size <;> simp only [Size.bytes] <;> omega

/-- A byte of the access lies in the window where its first or its last does. -/
theorem touchesWindow_iff (p : Params) (a : Addr) (size : Size) : (inWindow p a || lastInWindow p a size) = true ↔
    ∃ i < size.bytes, (a.toNat + i) / 65536 = p.windowBase.toNat := by
  rw [Bool.or_eq_true, inWindow_iff, lastInWindow, beq_iff_eq]
  have hpos : 1 ≤ size.bytes := by cases size <;> decide
  have hsmall : size.bytes ≤ 4 := size.bytes_le
  constructor
  · rintro (h | h)
    · exact ⟨0, hpos, h⟩
    · exact ⟨size.bytes - 1, by omega, by rw [← h]; congr 1; omega⟩
  · rintro ⟨i, hi, h⟩
    omega

theorem accessFaults_iff (p : Params) (a : Addr) (size : Size) : accessFaults p a size = true ↔
    2 ^ 24 < a.toNat + size.bytes ∨
      (a.toNat / 4 ≠ (a.toNat + size.bytes - 1) / 4 ∧ ∃ i < size.bytes, (a.toNat + i) / 65536 = p.windowBase.toNat) := by
  rw [accessFaults, Bool.or_eq_true, decide_eq_true_eq, Bool.and_eq_true, crosses_iff, touchesWindow_iff]

theorem isFullUnlock_iff (a : Addr) (size : Size) : isFullUnlock a size = true ↔ size = .four ∧ a.toNat % 65536 = 0x800 := by
  rw [isFullUnlock, Bool.and_eq_true, beq_iff_eq, beq_iff_eq]
  rfl

/-- The window lock refuses a write in ADOPTING, and in HELD but for a full-word CMD_UNLOCK (R130). -/
theorem State.lockRefusesWrite_iff (s : State) (a : Addr) (size : Size) : s.lockRefusesWrite a size = true ↔
    a.toNat / 65536 = s.pu.params.windowBase.toNat ∧
      (s.cbp.lock = .adopting ∨ (s.cbp.lock = .held ∧ ¬ (size = .four ∧ a.toNat % 65536 = 0x800))) := by
  rw [State.lockRefusesWrite, Bool.and_eq_true, inWindow_iff]
  refine and_congr_right fun _ => ?_
  cases s.cbp.lock with
  | opened => simp
  | adopting => simp
  | held => simp only [Bool.not_eq_true', ← Bool.not_eq_true, isFullUnlock_iff, reduceCtorEq, true_and, false_or]

theorem reaches_iff (p : Params) (a : Addr) (size : Size) (r : ReadSlot) : reaches p a size r = true ↔
    (inWindow p a = true ∧ inWindow p r.addr = true) ∨
      (inWindow p a = false ∧ a.toNat < r.addr.toNat + r.size.bytes ∧ r.addr.toNat < a.toNat + size.bytes) := by
  unfold reaches overlaps
  cases inWindow p a <;> simp

/-! ### Host writes (R126) -/

section HostWrite
variable {addr : Addr} {enables : BitVec 4} {data : Word} {size : Size} {s : State}

theorem hostWriteStep_early (hpower : s.pu.power ≠ .running) : hostWriteStep addr enables data s = s.respond .retry :=
  if_pos hpower

/-- A host write that the part judges. -/
theorem hostWriteStep_judged (hpower : s.pu.power = .running) (hheld : s.cbp.held = none) :
    hostWriteStep addr enables data s = match sizeOfEnables enables with
      | none => s.respond .fault
      | some size =>
        if accessFaults s.pu.params addr size then s.respond .fault
        else if s.lockRefusesWrite addr size then s.respond .retry
        else if s.cbp.queue.length < Config.postedCapacity then (s.post addr size data).respond .done
        else { s with cbp := { s.cbp with held := some (.write addr size data), response := .wait } } := by
  rw [hostWriteStep, if_neg (not_not.2 hpower), if_neg (by rw [hheld]; exact Bool.false_ne_true)] <;> rfl

theorem hostWriteStep_sized (hpower : s.pu.power = .running) (hheld : s.cbp.held = none)
    (hsize : sizeOfEnables enables = some size) : hostWriteStep addr enables data s =
      if accessFaults s.pu.params addr size then s.respond .fault
      else if s.lockRefusesWrite addr size then s.respond .retry
      else if s.cbp.queue.length < Config.postedCapacity then (s.post addr size data).respond .done
      else { s with cbp := { s.cbp with held := some (.write addr size data), response := .wait } } := by
  rw [hostWriteStep_judged hpower hheld, hsize]

/-- What posting makes of a delayed-read slot (R134). -/
theorem State.post_slot (s : State) (a : Addr) (size : Size) (data : Word) (i : ReadSlotNo) :
    (s.post a size data).cbp.slots[i] = (s.cbp.slots[i]).map fun r =>
      if reaches s.pu.params a size r then r.reachedBy s.cbp.postedCount else r := by
  simp [State.post]

end HostWrite

/-- Settles O8: the posting of `State.post`, slot by slot. -/
theorem hostWriteIsPosted : Obligations.HostWriteIsPosted := by
  unfold Obligations.HostWriteIsPosted
  intro addr enables data size s hpower hheld hsize hfault hlock hroom
  have he : hostWriteStep addr enables data s = (s.post addr size data).respond .done := by
    rw [hostWriteStep_sized hpower hheld hsize, if_neg (by rw [hfault]; exact Bool.false_ne_true),
      if_neg (by rw [hlock]; exact Bool.false_ne_true)]
    exact if_pos hroom
  refine ⟨_, congrArg Host.Outcome.next he, ?_, fun i => ⟨fun hnone => ?_, fun r hr => ⟨fun hreached => ?_, fun hnot => ?_⟩⟩⟩
  · rfl
  · refine (s.post_slot addr size data i).trans ?_
    rw [hnone]
    rfl
  · refine (s.post_slot addr size data i).trans ?_
    rw [hr, Option.map_some, if_pos ((reaches_iff _ _ _ _).2 hreached)]
    rfl
  · refine (s.post_slot addr size data i).trans ?_
    rw [hr, Option.map_some, if_neg (mt (reaches_iff _ _ _ _).1 hnot)]

/-- Settles O9: the answers in the order in which they are judged, and the conditions by their definitions. -/
theorem hostWriteTurnedAway : Obligations.HostWriteTurnedAway := by
  unfold Obligations.HostWriteTurnedAway
  refine ⟨fun addr enables data s => ⟨fun hpower => ?_, fun hpower hheld => ⟨fun hcount => ?_, fun size hsize => ?_⟩⟩,
    accessFaults_iff, State.lockRefusesWrite_iff⟩
  · exact congrArg Host.Outcome.next (hostWriteStep_early hpower)
  · refine congrArg Host.Outcome.next ?_
    rw [hostWriteStep_judged hpower hheld, sizeOfEnables_eq_none hcount]
    rfl
  · have he := hostWriteStep_sized (addr := addr) (data := data) hpower hheld hsize
    refine ⟨fun hfault => congrArg Host.Outcome.next ?_, fun hfault => ⟨fun hlock => congrArg Host.Outcome.next ?_,
      fun hlock hfull => congrArg Host.Outcome.next ?_⟩⟩
    · rw [he, if_pos hfault]
      rfl
    · rw [he, if_neg (by rw [hfault]; exact Bool.false_ne_true), if_pos hlock]
      rfl
    · rw [he, if_neg (by rw [hfault]; exact Bool.false_ne_true), if_neg (by rw [hlock]; exact Bool.false_ne_true)]
      exact if_neg (not_lt.2 hfull)

/-! ### Host reads (R131) -/

section HostRead
variable {addr : Addr} {enables : BitVec 4} {size : Size} {s : State}

theorem hostReadStep_judged (hpower : s.pu.power = .running) (hheld : s.cbp.held = none) :
    hostReadStep addr enables s = match sizeOfEnables enables with
      | none => s.respond .fault
      | some size => if accessFaults s.pu.params addr size then s.respond .fault else s.judgeRead addr size := by
  rw [hostReadStep, if_neg (not_not.2 hpower), if_neg (by rw [hheld]; exact Bool.false_ne_true)] <;> rfl

theorem hostReadStep_sound (hpower : s.pu.power = .running) (hheld : s.cbp.held = none)
    (hsize : sizeOfEnables enables = some size) (hfault : accessFaults s.pu.params addr size = false)
    (hlock : s.lockRefusesRead addr = false) : hostReadStep addr enables s =
      match s.matchingSlot addr size with
      | some i => match s.cbp.slots[i] with
        | some r => match r.state with
          | .complete data => (s.freeReadSlot i).respond (.data data)
          | .latched => s.respond .retry
          | .issued _ => s.respond .retry
        | none => s.newRead addr size
      | none => s.newRead addr size := by
  rw [hostReadStep_judged hpower hheld, hsize]
  dsimp only
  rw [if_neg (by rw [hfault]; exact Bool.false_ne_true), State.judgeRead, if_neg (by rw [hlock]; exact Bool.false_ne_true)] <;> rfl

theorem State.readPending_eq_false_iff (s : State) : s.readPending = false ↔
    ∀ (i : ReadSlotNo) (r : ReadSlot), s.cbp.slots[i] = some r → ∃ w, r.state = .complete w := by
  unfold State.readPending
  rw [List.any_eq_false]
  refine ⟨fun h i r hr => ?_, fun h i _ => ?_⟩
  · have hi := h i (List.mem_finRange i)
    rw [hr] at hi
    dsimp only at hi
    split at hi
    · exact absurd rfl hi
    · exact absurd rfl hi
    · next w hw => exact ⟨w, hw⟩
  · split
    · next r hr =>
      obtain ⟨w, hw⟩ := h i r hr
      rw [hw]
      exact Bool.false_ne_true
    · exact Bool.false_ne_true

/-- The conditions of direct service (R131, case 4). -/
theorem State.directReadPossible_iff (s : State) : s.directReadPossible = true ↔
    s.cbp.queue = [] ∧ (∀ e ∈ s.dt.updates, e.tag = none) ∧ s.xe.running = none ∧
      ∀ (i : ReadSlotNo) (r : ReadSlot), s.cbp.slots[i] = some r → ∃ w, r.state = .complete w := by
  rw [State.directReadPossible, Bool.and_eq_true, Bool.and_eq_true, Bool.and_eq_true, Bool.not_eq_true', Bool.not_eq_true',
    List.isEmpty_iff, Option.isNone_iff_eq_none, s.readPending_eq_false_iff, s.anyTag_eq_false_iff, and_assoc, and_assoc]

end HostRead

/-- Settles O10: the cases of R131 in their order. -/
theorem hostReadCases : Obligations.HostReadCases := by
  unfold Obligations.HostReadCases
  intro addr enables s
  refine ⟨fun hpower => congrArg Host.Outcome.next (if_pos hpower),
    fun hpower hheld => ⟨fun hcount => congrArg Host.Outcome.next ?_, fun size hsize => ⟨fun hfault =>
      congrArg Host.Outcome.next ?_, fun hfault => ⟨fun hlock => congrArg Host.Outcome.next ?_, fun hlock => ?_⟩⟩⟩⟩
  · rw [hostReadStep_judged hpower hheld, sizeOfEnables_eq_none hcount]
    rfl
  · rw [hostReadStep_judged hpower hheld, hsize]
    exact if_pos hfault
  · rw [hostReadStep_judged hpower hheld, hsize]
    dsimp only
    rw [if_neg (by rw [hfault]; exact Bool.false_ne_true), State.judgeRead, if_pos hlock]
    rfl
  · have he := hostReadStep_sound hpower hheld hsize hfault hlock
    refine ⟨fun i r hmatch hr => ⟨fun w hw => congrArg Host.Outcome.next ?_, fun hnot => congrArg Host.Outcome.next ?_⟩,
      fun hmatch => ⟨fun hdirect => congrArg Host.Outcome.next ?_, fun hnot i hfree => congrArg Host.Outcome.next ?_,
        fun hnot hfree => congrArg Host.Outcome.next ?_⟩⟩
    · rw [he, hmatch]
      dsimp only
      rw [hr]
      dsimp only
      rw [hw]
      rfl
    · rw [he, hmatch]
      dsimp only
      rw [hr]
      dsimp only
      split
      · next w hw => exact absurd hw (hnot w)
      · rfl
      · rfl
    · rw [he, hmatch]
      exact if_pos (s.directReadPossible_iff.2 hdirect)
    · rw [he, hmatch]
      refine (if_neg (mt s.directReadPossible_iff.1 hnot)).trans ?_
      rw [hfree]
      rfl
    · rw [he, hmatch]
      refine (if_neg (mt s.directReadPossible_iff.1 hnot)).trans ?_
      rw [hfree]
      rfl

/-! ### Delayed reads (R133, R135) -/

theorem State.mayIssue_iff (s : State) (r : ReadSlot) : s.mayIssue r = true ↔
    (∀ b, r.barrier = some b → s.settledTo b) ∧ s.xe.running = none ∧ s.lockRefusesRead r.addr = false := by
  refine ⟨State.mayIssue_spec, fun ⟨hsettled, hrunning, hlock⟩ => ?_⟩
  rw [State.mayIssue, hrunning, hlock]
  cases hb : r.barrier with
  | none => rfl
  | some b =>
    obtain ⟨hqueue, htags⟩ := hsettled b hb
    have hposted : (s.cbp.queue.any fun p => decide (p.tag ≤ b)) = false :=
      List.any_eq_false.2 fun p hp => by simpa using hqueue p hp
    have htag : s.tagAtOrBefore b = false := List.any_eq_false.2 fun e he => by
      cases hx : e.tag with
      | none => exact Bool.false_ne_true
      | some x => simpa using htags e he x hx
    dsimp only
    rw [hposted, htag]
    rfl

/-- Settles O11: the four conditions of R133, and the record of R135. -/
theorem delayedReadIssuesOrIsDiscarded : Obligations.DelayedReadIssuesOrIsDiscarded := by
  unfold Obligations.DelayedReadIssuesOrIsDiscarded
  intro i r s hr
  refine ⟨fun hlatched => ⟨fun hmay => congrArg Host.Outcome.next ?_, fun hnot => congrArg Host.Outcome.next ?_⟩,
    fun w hw => congrArg Host.Outcome.next ?_⟩
  · rw [delayedReadIssueStep, hr]
    dsimp only
    rw [hlatched]
    exact if_pos ((s.mayIssue_iff r).2 hmay)
  · rw [delayedReadIssueStep, hr]
    dsimp only
    rw [hlatched]
    exact if_neg (mt (s.mayIssue_iff r).1 hnot)
  · rw [discardTimerExpiryStep, hr]
    dsimp only
    rw [hw]
    rfl

/-! ### The end of the head's handling (R126, R127) -/

/-- The queue without its head. -/
def State.popHead (s : State) : State := { s with cbp := { s.cbp with queue := s.cbp.queue.tail, head := .waiting } }

theorem State.retireHead_eq_postHeld (s : State) : s.retireHead = s.popHead.postHeld := rfl

/-- Settles O12: the held write is judged once the entry has left the queue. -/
theorem headLeavesTheQueue : Obligations.HeadLeavesTheQueue := by
  unfold Obligations.HeadLeavesTheQueue
  intro s
  refine ⟨fun hnot => ?_, fun a size data hheld => ⟨fun hlock => ?_, fun hlock => ?_⟩⟩
  · obtain ⟨-, he⟩ | ⟨a, size, data, hheld, -⟩ := s.popHead.postHeld_spec
    · exact he
    · exact absurd hheld (hnot a size data)
  · obtain ⟨hnot, -⟩ | ⟨a', size', data', hheld', hcases⟩ := s.popHead.postHeld_spec
    · exact absurd hheld (hnot a size data)
    · cases hheld.symm.trans hheld'
      obtain ⟨-, he⟩ | ⟨hfree, -⟩ := hcases
      · exact he
      · exact absurd (hlock.symm.trans hfree) Bool.noConfusion
  · obtain ⟨hnot, -⟩ | ⟨a', size', data', hheld', hcases⟩ := s.popHead.postHeld_spec
    · exact absurd hheld (hnot a size data)
    · cases hheld.symm.trans hheld'
      obtain ⟨hrefused, -⟩ | ⟨-, he⟩ := hcases
      · exact absurd (hrefused.symm.trans hlock) Bool.noConfusion
      · have hslot : ∀ i : ReadSlotNo, s.retireHead.cbp.slots[i] = (s.cbp.slots[i]).map fun r =>
            if reaches s.pu.params a size r then r.reachedBy s.cbp.postedCount else r := fun i => by
          rw [show s.retireHead = _ from he]
          exact State.post_slot { s.popHead with cbp := { s.popHead.cbp with held := none } } a size data i
        refine ⟨?_, fun i r hr => ?_, fun i hnone => ?_⟩
        · rw [show s.retireHead = _ from he]
          rfl
        · rw [hslot, hr]
          rfl
        · rw [hslot, hnone]
          rfl

end Sys2Proof.Machine

/-! The commands that the queue's head makes (O19 to O22, O24). -/

namespace Sys2Proof.Machine

/-! ### Written through (R125, R127) -/

theorem postedBytes_eq_map (size : Size) (data : Word) : postedBytes size data = (List.range size.bytes).map (byteAt data) := by
  cases size <;> rfl

theorem PostedWrite.through_inside {h : PostedWrite} (hin : crosses h.addr h.size = false) :
    h.through = [.write h.addr.toNat ((List.range h.size.bytes).map (byteAt h.data))] := by
  have hword : h.addr.toNat % 4 + h.size.bytes ≤ 4 := not_lt.1 (of_decide_eq_false hin)
  unfold PostedWrite.through throughWrites splitWords
  rw [if_pos hword, List.map_singleton, postedBytes_eq_map, Nat.sub_self, List.drop_zero]
  dsimp only
  rw [List.take_of_length_le (by simp)]

theorem PostedWrite.through_crossing {h : PostedWrite} (hcross : crosses h.addr h.size = true) :
    h.through = [.write h.addr.toNat (((List.range h.size.bytes).map (byteAt h.data)).take (4 - h.addr.toNat % 4)),
      .write (h.addr.toNat + (4 - h.addr.toNat % 4))
        (((List.range h.size.bytes).map (byteAt h.data)).drop (4 - h.addr.toNat % 4))] := by
  have hword : 4 < h.addr.toNat % 4 + h.size.bytes := of_decide_eq_true hcross
  unfold PostedWrite.through throughWrites splitWords
  rw [if_neg (not_le.2 hword), List.map_cons, List.map_singleton, postedBytes_eq_map, Nat.sub_self, List.drop_zero]
  dsimp only
  rw [Nat.add_sub_cancel_left]
  congr 3
  exact List.take_of_length_le (by simp)

/-- Settles O19. -/
theorem writeThroughAsPosted : Obligations.WriteThroughAsPosted := by
  unfold Obligations.WriteThroughAsPosted
  refine ⟨fun s h hh hzone => congrArg Host.Outcome.next ?_, fun h => ⟨PostedWrite.through_inside, PostedWrite.through_crossing⟩⟩
  have hthrough : writesThrough h.zone = true := by
    obtain hz | hz | hz | hz := hzone <;> rw [hz] <;> rfl
  rw [writeThroughStep, hh]
  exact if_pos hthrough

/-! ### Headers, the status zone and narrow commands (R109, R128, R129) -/

theorem limitSubject_of_le {n : Nat} (h : n ≤ 65535) : limitSubject n = BitVec.ofNat 16 n := by
  rw [limitSubject, min_eq_left h]

theorem PostedWrite.limitSubject_wordOffset (h : PostedWrite) :
    limitSubject h.wordOffset = BitVec.ofNat 16 (offsetOf h.addr - h.addr.toNat % 4) := by
  have hoffset : offsetOf h.addr < 65536 := Nat.mod_lt _ (by decide)
  exact limitSubject_of_le (by unfold PostedWrite.wordOffset; omega)

/-- Settles O20. -/
theorem headerStatusAndNarrowWrites : Obligations.HeaderStatusAndNarrowWrites := by
  unfold Obligations.HeaderStatusAndNarrowWrites
  intro s h hh
  refine ⟨fun p hzone hplan => ⟨fun hzero => congrArg Host.Outcome.next ?_, fun hother => congrArg Host.Outcome.next ?_⟩,
    fun hzone => congrArg Host.Outcome.next ?_, fun hzone hsize => congrArg Host.Outcome.next ?_⟩
  · rw [planHeaderWriteStep, hh]
    dsimp only
    rw [if_pos hzone, hplan]
    dsimp only
    rw [if_pos hzero]
    rfl
  · rw [planHeaderWriteStep, hh]
    dsimp only
    rw [if_pos hzone, hplan]
    dsimp only
    rw [if_neg hother, State.ignoreWrite, limitSubject_of_le (by omega)]
  · rw [statusZoneWriteStep, hh]
    dsimp only
    rw [if_pos hzone, State.ignoreWrite, PostedWrite.limitSubject_wordOffset]
  · rw [narrowCommandWriteStep, hh]
    dsimp only
    rw [if_pos ⟨hzone, hsize⟩, State.ignoreWrite, PostedWrite.limitSubject_wordOffset, State.headWrites, State.setHead,
      State.emit_cbp]

/-! ### The command words (R128) -/

theorem State.emit_setCsa (s : State) (csa : SetAssembler) (kind : RecordKind) (reason : Nat) (subject : BitVec 16)
    (a b : Word) : State.emit { s with csa := csa } kind reason subject a b =
      { s.emit kind reason subject a b with csa := csa } := by
  unfold State.emit
  dsimp only
  split <;> rfl

/-- Settles O21. -/
theorem unlockAbortRestartCommands : Obligations.UnlockAbortRestartCommands := by
  unfold Obligations.UnlockAbortRestartCommands
  intro s h
  refine ⟨fun hc => congrArg Host.Outcome.next ?_, fun hc => ⟨fun hnil => congrArg Host.Outcome.next ?_,
    fun e rest hopen => congrArg Host.Outcome.next ?_⟩, fun hc => congrArg Host.Outcome.next ?_⟩
  · rw [cmdUnlockStep, hc]
    unfold unlocked
    cases s.cbp.lock <;> rfl
  · rw [cmdAbortSetStep, hc]
    unfold State.abortOpen
    rw [hnil]
    rfl
  · rw [cmdAbortSetStep, hc]
    unfold State.abortOpen
    rw [hopen]
    dsimp only
    rw [State.emptyOpen, State.emit_setCsa, State.mailbox, State.headWrites, State.setHead, State.emit_cbp]
    rfl
  · rw [cmdRestartStep, hc]
    rfl

theorem PostedWrite.data_eq (h : PostedWrite) : BitVec.ofNat 32 h.data.toNat = h.data := BitVec.ofNat_toNat 32 h.data |>.trans
  (BitVec.setWidth_eq _)

/-- A controller request is busy where one is listed, or one of its plan (R112). -/
theorem State.busy_iff (s : State) (p : Plan) :
    ((s.xe.list.any fun r => !r.isFault) || (s.listedFor p).isSome) = true ↔
      ∃ r ∈ s.xe.list, r.origin = .controller ∨ r.plan = p := by
  have hfault : ∀ r : ExchangeRequest, (!r.isFault) = true ↔ r.origin = .controller := fun r => by
    rw [Bool.not_eq_true', r.isFault_eq_false_iff]
  rw [Bool.or_eq_true, List.any_eq_true, State.listedFor, List.find?_isSome]
  simp only [hfault, beq_iff_eq]
  constructor
  · rintro (⟨r, hr, h⟩ | ⟨r, hr, h⟩)
    · exact ⟨r, hr, .inl h⟩
    · exact ⟨r, hr, .inr h⟩
  · rintro ⟨r, hr, h | h⟩
    · exact .inl ⟨r, hr, h⟩
    · exact .inr ⟨r, hr, h⟩

theorem cmdExchangeStep_refused {s : State} {h : PostedWrite} {reason : Nat} (hc : s.commandToTake 2 = some h)
    (hr : s.refusal h.data.toNat = some reason) : cmdExchangeStep s =
      { s.emit .exchangeRefused reason (BitVec.ofNat 16 (min h.data.toNat 65535)) 0#32 h.data with
        cbp := { s.cbp with head := .writing h.through false } } := by
  rw [cmdExchangeStep, hc]
  dsimp only
  rw [State.controllerRequest, hr]
  dsimp only
  rw [h.data_eq, State.mailbox, State.headWrites, State.setHead, State.emit_cbp]
  rfl

/-- Settles O22. -/
theorem controllerRequests : Obligations.ControllerRequests := by
  unfold Obligations.ControllerRequests
  intro s h hc
  refine ⟨fun hbad => congrArg Host.Outcome.next (cmdExchangeStep_refused hc ?_), fun p hv => ⟨fun htorn =>
    congrArg Host.Outcome.next (cmdExchangeStep_refused hc ?_), fun hidle => ⟨fun hbusy =>
    congrArg Host.Outcome.next (cmdExchangeStep_refused hc ?_), fun hfree => congrArg Host.Outcome.next ?_⟩⟩⟩
  · rw [State.refusal, dif_neg (not_lt.2 hbad)]
  all_goals
    have hlt : h.data.toNat < 8 := hv ▸ p.isLt
    have hp : (⟨h.data.toNat, hlt⟩ : Plan) = p := Fin.ext hv
    have hcondition : s.xe.conditions[h.data.toNat] = s.xe.conditions[p] := by simp only [hv, Fin.getElem_fin]
  · rw [State.refusal, dif_pos hlt, hcondition, if_pos htorn]
  · rw [State.refusal, dif_pos hlt, hcondition, if_neg (by rw [hidle]; decide), hp, if_pos ((s.busy_iff p).2 hbusy)]
  · have hnone : s.refusal h.data.toNat = none := by
      rw [State.refusal, dif_pos hlt, hcondition, if_neg (by rw [hidle]; decide), hp, if_neg (mt (s.busy_iff p).1 hfree)]
    rw [cmdExchangeStep, hc]
    dsimp only
    rw [State.controllerRequest, hnone]
    dsimp only
    rw [dif_pos hlt, hp]
    rfl

/-! ### The ring tail (R141) -/

theorem ring_offset_int {length v tail : Nat} (ht : tail < length) :
    ((v : Int) - tail) % (length : Int) = ((v + length - tail) % length : Nat) := by
  push_cast [Nat.cast_sub (show tail ≤ v + length by omega)]
  rw [show (v : Int) + length - tail = v - tail + length by ring, Int.add_emod_right]

/-- A tail accepted other than the present one leaves the ring that it finds with records unread. -/
theorem State.tailAccepted_unread {s : State} {v : Nat} (h : s.ringLaw) (hv : s.tailAccepted v = true) (hne : v ≠ s.ew.tail) :
    s.ew.head ≠ s.ew.tail := by
  obtain ⟨hlt, hspan⟩ := (s.tailAccepted_iff v).1 hv
  rw [ring_offset hlt h.tail, ring_offset h.head h.tail] at hspan
  have htail := h.tail
  intro he
  rw [he] at hspan
  split_ifs at hspan <;> omega

/-- Settles O24: the span modulo L is that of `tailAccepted`, and the ring law says when EVT_N was asserted. -/
theorem ringTailCommand : Obligations.RingTailCommand := by
  unfold Obligations.RingTailCommand
  intro s h hc hring
  have haccepted : s.tailAccepted h.data.toNat = true ↔ h.data.toNat < s.pu.params.ringLength ∧
      ((h.data.toNat : Int) - s.ew.tail) % (s.pu.params.ringLength : Int) ≤
        ((s.ew.head : Int) - s.ew.tail) % (s.pu.params.ringLength : Int) := by
    rw [State.tailAccepted_iff, ring_offset_int hring.tail, ring_offset_int hring.tail, Int.ofNat_le]
  have hstep : cmdRingTailStep s = if s.tailAccepted h.data.toNat then
      (if h.data.toNat = s.ew.tail then s.mailbox h false
        else { s.moveTail h.data.toNat with cbp := { s.cbp with head := .ringWord } })
      else (s.emit .tailRefused 0 (limitSubject h.data.toNat) (BitVec.ofNat 32 h.data.toNat)
        (ringWordOf s.ew.head s.ew.tail)).mailbox h false := by
    rw [cmdRingTailStep, hc]
  dsimp only
  rw [← haccepted]
  refine ⟨fun hacc he => congrArg Host.Outcome.next ?_, fun hacc hne => congrArg Host.Outcome.next ?_,
    fun hnot => congrArg Host.Outcome.next ?_⟩
  · rw [hstep, if_pos hacc, if_pos he]
    rfl
  · rw [hstep, if_pos hacc, if_neg hne, State.moveTail, hring.interrupt,
      decide_eq_true (State.tailAccepted_unread hring hacc hne), Bool.true_and]
  · rw [hstep, if_neg hnot, h.data_eq, State.mailbox, State.headWrites, State.setHead, State.emit_cbp]
    rfl

end Sys2Proof.Machine

/-! The grants of the SRAM port, requester by requester (O26 to O30, O33, O35). -/

namespace Sys2Proof.Machine

/-! ### A grant's access (R136) -/

section Grant
variable {s : State} {r : Requester}

theorem State.grant_granted {k : State → State} (h : s.nextGrant = some r) : s.grant r k = k (s.granted r) :=
  State.grant_made h

theorem State.granted_write {a : Nat} {bytes : List Byte} (h : s.access r = some (.write a bytes)) :
    s.granted r = { s with mem := memWriteBytes s.mem a bytes, tmp := (s.movePointers r).tmp } := by
  rw [State.granted, h]
  rfl

theorem State.granted_read {a n : Nat} (h : s.access r = some (.read a n)) :
    s.granted r = { s with tmp := (s.movePointers r).tmp } := by
  rw [State.granted, h]
  rfl

/-- The bytes of a granted write are in memory, and every other byte is as it was. -/
theorem State.granted_holds {a : Nat} {bytes : List Byte} (hwf : Memory.wf s.mem) (h : s.access r = some (.write a bytes)) :
    holdsBytes (s.granted r).mem a bytes ∧ keepsOutside s.mem (s.granted r).mem a bytes.length := by
  rw [State.granted_write h]
  exact ⟨memWriteBytes_holds hwf a bytes, memWriteBytes_keepsOutside s.mem a bytes⟩

/-- So is a granted word. -/
theorem State.granted_word {offset : Nat} {w : Word} (hwf : Memory.wf s.mem) (h : s.access r = some (s.wordWrite offset w)) :
    memReadWord (s.granted r).mem (windowAddr s.pu.params offset) = w ∧
      keepsOutside s.mem (s.granted r).mem (windowAddr s.pu.params offset) 4 := by
  obtain ⟨hholds, hkeeps⟩ := State.granted_holds hwf h
  exact ⟨memReadWord_of_holds hholds, hkeeps⟩

end Grant

/-! ### CTL (R132, R133, R137) -/

section Ctl
variable {s : State}

theorem State.ctlAccess_head {acc : Access} {todo : List Access} {restart : Bool} (h : s.ctlSource = some .head)
    (hhead : s.cbp.head = .writing (acc :: todo) restart) : s.access .ctl = some acc := by
  rw [State.access, State.ctlAccess, h]
  dsimp only
  rw [hhead]

theorem ctlWriteGrantStep_granted (h : s.nextGrant = some .ctl) (hsource : s.ctlSource = some .head) :
    ctlWriteGrantStep s = (s.granted .ctl).headGranted := by
  rw [ctlWriteGrantStep, if_pos hsource, State.grant_granted h]

end Ctl

/-- Settles O26. -/
theorem ctlWriteGrantWrites : Obligations.CtlWriteGrantWrites := by
  unfold Obligations.CtlWriteGrantWrites
  intro s a bytes rest hwf hgrant hsource hhead
  have haccess := State.ctlAccess_head hsource hhead
  obtain ⟨hholds, hkeeps⟩ := State.granted_holds hwf haccess
  have hheadGranted : (s.granted .ctl).cbp.head = .writing (.write a bytes :: rest) false := hhead
  cases rest with
  | nil =>
    have he : (s.granted .ctl).headGranted = (s.granted .ctl).retireHead := by
      rw [State.headGranted, hheadGranted]
      rfl
    refine ⟨(s.granted .ctl).retireHead, congrArg Host.Outcome.next ((ctlWriteGrantStep_granted hgrant hsource).trans he),
      ?_, fun hne => absurd rfl hne, fun _ => ?_⟩
    · rw [State.retireHead_mem]
      exact ⟨hholds, hkeeps⟩
    · rw [State.retireHead_mem]
      rfl
  | cons acc rest =>
    have he : (s.granted .ctl).headGranted = (s.granted .ctl).headWrites (acc :: rest) false := by
      rw [State.headGranted, hheadGranted]
    exact ⟨(s.granted .ctl).headWrites (acc :: rest) false,
      congrArg Host.Outcome.next ((ctlWriteGrantStep_granted hgrant hsource).trans he), ⟨hholds, hkeeps⟩, fun _ => rfl,
      fun hnil => nomatch hnil⟩

section CtlSource
variable {s : State}

theorem State.slotIssued_iff (s : State) (i : ReadSlotNo) :
    s.slotIssued i = true ↔ ∃ r got, s.cbp.slots[i] = some r ∧ r.state = .issued got := by
  unfold State.slotIssued
  split
  · next r hr =>
    split
    · next got hgot => exact ⟨fun _ => ⟨r, got, hr, hgot⟩, fun _ => rfl⟩
    · next hstate =>
      refine ⟨nofun, fun ⟨q, got, hq, hgot⟩ => ?_⟩
      cases hr.symm.trans hq
      exact absurd (hstate.symm.trans hgot) nofun
    · next hstate =>
      refine ⟨nofun, fun ⟨q, got, hq, hgot⟩ => ?_⟩
      cases hr.symm.trans hq
      exact absurd (hstate.symm.trans hgot) nofun
  · next hnone => exact ⟨nofun, fun ⟨q, got, hq, _⟩ => nomatch hnone.symm.trans hq⟩

theorem State.ctlSource_slot {before after : List ReadSlotNo} {i : ReadSlotNo}
    (horder : s.cbp.latchOrder = before ++ i :: after) (hbefore : ∀ k ∈ before, s.slotIssued k = false)
    (hi : s.slotIssued i = true) : s.ctlSource = some (.slot i) := by
  have hfind : s.cbp.latchOrder.find? s.slotIssued = some i := by
    rw [horder, List.find?_append, List.find?_eq_none.2 fun k hk => by rw [hbefore k hk]; exact Bool.false_ne_true,
      Option.none_or, List.find?_cons_of_pos hi]
  rw [State.ctlSource, hfind]

/-- With no slot ISSUED CTL presents what is held or the head's write (R137). -/
theorem State.ctlSource_unissued (h : ∀ k ∈ s.cbp.latchOrder, s.slotIssued k = false) : s.ctlSource =
    match s.cbp.held with
    | some (.read _ _ _) => some .direct
    | some (.write _ _ _) | none => match s.cbp.head with
      | .writing (_ :: _) _ => some .head
      | .writing [] _ => none
      | .waiting => none
      | .masking _ _ => none
      | .ringWord => none
      | .restarting => none := by
  rw [State.ctlSource, List.find?_eq_none.2 fun k hk => by rw [h k hk]; exact Bool.false_ne_true] <;> rfl

theorem State.ctlSource_direct (h : ∀ k ∈ s.cbp.latchOrder, s.slotIssued k = false) {a : Addr} {size : Size}
    {got : List Byte} (hheld : s.cbp.held = some (.read a size got)) : s.ctlSource = some .direct := by
  rw [State.ctlSource_unissued h, hheld]

theorem State.ctlSource_noRead (h : ∀ k ∈ s.cbp.latchOrder, s.slotIssued k = false)
    (hheld : ∀ a size got, s.cbp.held ≠ some (.read a size got)) : s.ctlSource = match s.cbp.head with
      | .writing (_ :: _) _ => some .head
      | .writing [] _ => none
      | .waiting => none
      | .masking _ _ => none
      | .ringWord => none
      | .restarting => none := by
  rw [State.ctlSource_unissued h]
  cases hc : s.cbp.held with
  | none => rfl
  | some held =>
    cases held with
    | read a size got => exact absurd hc (hheld a size got)
    | write a size data => rfl

theorem of_ite_eq_of_ne {α : Type} {c : Prop} [Decidable c] {x y z : α} (hx : x = z → False)
    (h : (if c then x else y) = z) : y = z := by
  split at h
  · exact absurd h hx
  · exact h

theorem of_ite_eq_mask {c : Prop} [Decidable c] {u v : MaskView} {y : Zone} (h : (if c then .mask u else y) = .mask v) :
    (u = v ∧ c) ∨ y = .mask v := by
  split at h
  · next hc => exact .inl ⟨Zone.mask.inj h, hc⟩
  · exact .inr h

theorem zoneOfOffset_of_mask {length o : Nat} {v : MaskView} (h : zoneOfOffset length o = .mask v) :
    viewOffset v ≤ o ∧ o < viewOffset v + 0x30 := by
  unfold zoneOfOffset at h
  replace h := of_ite_eq_of_ne Zone.noConfusion (of_ite_eq_of_ne Zone.noConfusion h)
  obtain ⟨rfl, hc⟩ | h := of_ite_eq_mask h
  · exact hc
  obtain ⟨rfl, hc⟩ | h := of_ite_eq_mask h
  · exact hc
  obtain ⟨rfl, hc⟩ | h := of_ite_eq_mask h
  · exact hc
  obtain ⟨rfl, hc⟩ | h := of_ite_eq_mask h
  · exact hc
  replace h := of_ite_eq_of_ne Zone.noConfusion (of_ite_eq_of_ne Zone.noConfusion (of_ite_eq_of_ne Zone.noConfusion h))
  exact Zone.noConfusion (of_ite_eq_of_ne Zone.noConfusion (of_ite_eq_of_ne Zone.noConfusion h))
theorem zoneOfOffset_mask {length o : Nat} {v : MaskView} (h : viewOffset v ≤ o ∧ o < viewOffset v + 0x30) :
    zoneOfOffset length o = .mask v := by
  unfold zoneOfOffset
  cases v <;> dsimp only [viewOffset] at h
  · rw [if_neg (by omega), if_neg (by omega), if_pos h]
  · rw [if_neg (by omega), if_neg (by omega), if_neg (by omega), if_pos h]
  · rw [if_neg (by omega), if_neg (by omega), if_neg (by omega), if_neg (by omega), if_pos h]
  · rw [if_neg (by omega), if_neg (by omega), if_neg (by omega), if_neg (by omega), if_neg (by omega), if_pos h]

theorem zoneOfOffset_mask_iff (length o : Nat) (v : MaskView) :
    zoneOfOffset length o = .mask v ↔ viewOffset v ≤ o ∧ o < viewOffset v + 0x30 :=
  ⟨zoneOfOffset_of_mask, zoneOfOffset_mask⟩

/-- A read within one of the other three views is served from the direct view (R88, R131). -/
theorem readAddr_of_mask {p : Params} {a : Addr} {v : MaskView} (h : zoneOf p a = .mask v) :
    readAddr p a = windowAddr p (0x700 + (offsetOf a - viewOffset v)) := by
  rw [readAddr, h]

theorem zoneOf_mask_iff (p : Params) (a : Addr) (v : MaskView) : zoneOf p a = .mask v ↔
    a.toNat / 65536 = p.windowBase.toNat ∧ viewOffset v ≤ a.toNat % 65536 ∧ a.toNat % 65536 < viewOffset v + 0x30 := by
  unfold zoneOf
  split
  · next hin =>
    rw [zoneOfOffset_mask_iff, (inWindow_iff p a).1 hin]
    simp only [true_and]
    rfl
  · next hout => exact ⟨nofun, fun h => absurd ((inWindow_iff p a).2 h.1) hout⟩

theorem readAddr_redirected {p : Params} {a : Addr} {v : MaskView} (h : zoneOf p a = .mask v) :
    readAddr p a = a.toNat - viewOffset v + 0x700 := by
  obtain ⟨hwindow, hlo, hup⟩ := (zoneOf_mask_iff p a v).1 h
  rw [readAddr_of_mask h, windowAddr, offsetOf, ← hwindow]
  omega

theorem readAddr_within {p : Params} {a : Addr} {v : MaskView} {base : Nat} (hv : viewOffset v = base)
    (h : a.toNat / 65536 = p.windowBase.toNat ∧ base ≤ a.toNat % 65536 ∧ a.toNat % 65536 < base + 0x30) :
    readAddr p a = a.toNat - base + 0x700 := by
  subst hv
  exact readAddr_redirected ((zoneOf_mask_iff p a v).2 h)

theorem readAddr_own {p : Params} {a : Addr} (h : ∀ v, zoneOf p a = .mask v → v = .direct) : readAddr p a = a.toNat := by
  cases hz : zoneOf p a with
  | mask v =>
    obtain rfl := h v hz
    obtain ⟨-, hlo, -⟩ := (zoneOf_mask_iff p a .direct).1 hz
    rw [readAddr_redirected hz]
    have hdirect : viewOffset .direct = 0x700 := rfl
    rw [hdirect] at hlo ⊢
    have := Nat.mod_le a.toNat 65536
    omega
  | _ => rw [readAddr, hz]

end CtlSource

/-- Settles O27. -/
theorem ctlReadGrantAnswers : Obligations.CtlReadGrantAnswers := by
  unfold Obligations.CtlReadGrantAnswers
  refine ⟨fun s hgrant => ⟨fun i r got hsource hr hgot => congrArg Host.Outcome.next ?_, fun a size got hsource hheld => ?_⟩,
    fun s => ⟨fun before i after horder hbefore hi => ?_, fun hnone => ?_⟩, fun p a => ⟨fun base hbase hwithin => ?_,
    fun hwithin => ?_⟩⟩
  · have haccess : s.access .ctl = some (.read (nextRead (readAddr s.pu.params r.addr) r.size.bytes got.length).1
        (nextRead (readAddr s.pu.params r.addr) r.size.bytes got.length).2) := by
      rw [State.access, State.ctlAccess, hsource]
      dsimp only
      rw [hr]
      dsimp only
      rw [hgot]
    have hctl : s.ctlAccess = _ := haccess
    rw [ctlReadGrantStep, hsource]
    dsimp only
    rw [State.grant_granted hgrant, State.granted_read haccess, hctl, State.slotGranted, hr]
    dsimp only
    rw [hgot]
    dsimp only [State.readBytes, State.setReadSlot, ReadSlot.receive]
    split <;> rfl
  · have haccess : s.access .ctl = some (.read (nextRead (readAddr s.pu.params a) size.bytes got.length).1
        (nextRead (readAddr s.pu.params a) size.bytes got.length).2) := by
      rw [State.access, State.ctlAccess, hsource]
      dsimp only
      rw [hheld]
    have hctl : s.ctlAccess = _ := haccess
    have hstep : ctlReadGrantStep s = State.directGranted { s with tmp := (s.movePointers .ctl).tmp }
        (s.readBytes (some (.read (nextRead (readAddr s.pu.params a) size.bytes got.length).1
        (nextRead (readAddr s.pu.params a) size.bytes got.length).2))) := by
      rw [ctlReadGrantStep, hsource]
      dsimp only
      rw [State.grant_granted hgrant, State.granted_read haccess, hctl]
    refine ⟨fun hall => congrArg Host.Outcome.next ?_, fun hmore => congrArg Host.Outcome.next ?_⟩
    · rw [hstep, State.directGranted, hheld]
      exact if_pos hall
    · rw [hstep, State.directGranted, hheld]
      exact if_neg (not_le.2 hmore)
  · exact State.ctlSource_slot horder (fun k hk => Bool.eq_false_iff.2 (mt (s.slotIssued_iff k).1 (hbefore k hk)))
      ((s.slotIssued_iff i).2 hi)
  · have hunissued : ∀ k ∈ s.cbp.latchOrder, s.slotIssued k = false := fun k hk =>
      Bool.eq_false_iff.2 (mt (s.slotIssued_iff k).1 (hnone k hk))
    refine ⟨fun a size got hheld => State.ctlSource_direct hunissued hheld, fun hheld => ⟨fun acc todo restart hhead => ?_,
      fun hnot => ?_⟩⟩
    · rw [State.ctlSource_noRead hunissued hheld, hhead]
    · rw [State.ctlSource_noRead hunissued hheld]
      split
      · next acc todo restart hhead => exact absurd hhead (hnot acc todo restart)
      all_goals rfl
  · obtain rfl | rfl | rfl := hbase
    · exact readAddr_within (v := .setOnes) rfl hwithin
    · exact readAddr_within (v := .clearOnes) rfl hwithin
    · exact readAddr_within (v := .toggleOnes) rfl hwithin
  · refine readAddr_own fun v hv => ?_
    have hin := (zoneOf_mask_iff p a v).1 hv
    cases v with
    | direct => rfl
    | setOnes => exact absurd hin (hwithin 0x740 (.inl rfl))
    | clearOnes => exact absurd hin (hwithin 0x780 (.inr (.inl rfl)))
    | toggleOnes => exact absurd hin (hwithin 0x7C0 (.inr (.inr rfl)))

/-! ### TBL (R17) -/

theorem State.tblMayWrite_of_adopting {s : State} {a : Adoption} (h : s.pu.adoption = some a) (d : Dest) :
    s.tblMayWrite d = true ↔ a.stage = .drain ∨ d.val < a.built := by
  rw [State.tblMayWrite, h]
  dsimp only
  rw [Bool.or_eq_true, beq_iff_eq, decide_eq_true_eq]

theorem State.tblAccess_of_entry {s : State} {e : UpdateEntry} (h : s.tblEntry = some e) :
    s.access .tbl = some (s.wordWrite (pathOffset e.dest) (s.currentWord e.dest)) := by
  rw [State.access, State.tblAccess, h]
  rfl

theorem State.tblAccess_isSome_iff (s : State) :
    (s.access .tbl).isSome = true ↔ ∃ e ∈ s.dt.updates, s.tblMayWrite e.dest = true := by
  rw [State.access, State.tblAccess]
  cases h : s.tblEntry with
  | none =>
    refine ⟨nofun, fun ⟨e, he, hmay⟩ => ?_⟩
    exact absurd hmay (List.find?_eq_none.1 h e he)
  | some e =>
    obtain ⟨hmay, before, after, hupdates, -⟩ := State.tblEntry_spec h
    exact ⟨fun _ => ⟨e, by rw [hupdates]; simp, hmay⟩, fun _ => rfl⟩

section Tbl
variable {s : State} {e : UpdateEntry} {before after : List UpdateEntry}

theorem State.tblEntry_of_split (hupdates : s.dt.updates = before ++ e :: after)
    (hbefore : ∀ u ∈ before, s.tblMayWrite u.dest = false) (he : s.tblMayWrite e.dest = true) : s.tblEntry = some e := by
  rw [State.tblEntry, hupdates, List.find?_append, List.find?_eq_none.2 fun u hu => by
    rw [hbefore u hu]; exact Bool.false_ne_true, Option.none_or]
  exact List.find?_cons_of_pos he

theorem State.eraseP_of_split (hupdates : s.dt.updates = before ++ e :: after)
    (hbefore : ∀ u ∈ before, s.tblMayWrite u.dest = false) (he : s.tblMayWrite e.dest = true) :
    (s.dt.updates.eraseP fun u => s.tblMayWrite u.dest) = before ++ after := by
  rw [hupdates, List.eraseP_append_right _ fun u hu => by rw [hbefore u hu]; exact Bool.false_ne_true,
    List.eraseP_cons_of_pos (p := fun u : UpdateEntry => s.tblMayWrite u.dest) he]

end Tbl

/-- What TBL's grant makes of the ramp engine: a deferred tick runs where the list is empty (R66). -/
theorem State.updateWritten_re (s : State) : s.updateWritten.re =
    if (s.dt.updates.eraseP fun u => s.tblMayWrite u.dest) = [] ∧ s.re.deferred = true then
      { s.re with deferred := false, passesDue := s.startTick.re.passesDue }
    else s.re := by
  have hempty : ((s.dt.updates.eraseP fun u => s.tblMayWrite u.dest).isEmpty && s.re.deferred) = true ↔
      (s.dt.updates.eraseP fun u => s.tblMayWrite u.dest) = [] ∧ s.re.deferred = true := by
    rw [Bool.and_eq_true, List.isEmpty_iff]
  unfold State.updateWritten
  dsimp only
  by_cases h : (s.dt.updates.eraseP fun u => s.tblMayWrite u.dest) = [] ∧ s.re.deferred = true
  · rw [if_pos (hempty.2 h), if_pos h]
    rfl
  · rw [if_neg (mt hempty.1 h), if_neg h]

/-- Settles O28. -/
theorem tblGrantWritesCurrentWord : Obligations.TblGrantWritesCurrentWord := by
  unfold Obligations.TblGrantWritesCurrentWord
  refine ⟨State.tblAccess_isSome_iff, fun s d => ⟨fun hnone => s.tblMayWrite_of_none hnone d, fun a ha =>
    State.tblMayWrite_of_adopting ha d⟩, fun s e before after hwf hgrant hupdates hbefore he => ?_⟩
  have haccess := State.tblAccess_of_entry (State.tblEntry_of_split hupdates hbefore he)
  obtain ⟨hword, hkeeps⟩ := State.granted_word hwf haccess
  have herase := State.eraseP_of_split hupdates hbefore he
  have hre := (s.granted .tbl).updateWritten_re
  rw [show ((s.granted .tbl).dt.updates.eraseP fun u => (s.granted .tbl).tblMayWrite u.dest) = before ++ after from herase]
    at hre
  have hstep : tblGrantStep s = (s.granted .tbl).updateWritten := State.grant_granted hgrant
  have heq := (s.granted .tbl).updateWritten_eq
  rw [show ((s.granted .tbl).dt.updates.eraseP fun u => (s.granted .tbl).tblMayWrite u.dest) = before ++ after from herase]
    at heq
  refine ⟨_, congrArg Host.Outcome.next hstep, ?_, ?_, ?_, fun hnot => ?_, fun hboth => ?_, ?_⟩
  · rw [heq]
    exact hword
  · rw [heq]
    exact hkeeps
  · rw [heq]
    rfl
  · rw [hre]
    exact if_neg hnot
  · have hpasses := hre.trans (if_pos hboth)
    rw [hpasses]
    refine ⟨rfl, fun w => (Vector.getElem_ofFn _).trans ?_⟩
    change s.re.passesDue[w] + (if (s.slotsOfWay w).isEmpty then 0 else 1) = _
    simp only [List.isEmpty_iff]
  · rw [heq]
    rfl

/-! ### EVT (R140 to R143) -/

theorem State.recordReady_iff (s : State) : s.recordReady = true ↔
    s.ew.queue ≠ [] ∧ (s.ew.head + 1) % s.pu.params.ringLength ≠ s.ew.tail := by
  rw [State.recordReady, State.ringHasRoom, Bool.and_eq_true, Bool.not_eq_true', List.isEmpty_eq_false_iff, bne_iff_ne]

theorem windowAddr_add (p : Params) (o n : Nat) : windowAddr p (o + n) = windowAddr p o + n := (Nat.add_assoc _ _ _).symm

section Evt
variable {s : State}

theorem State.evtAccess_record {r : EventRecord} {rest : List EventRecord} (h : s.evtSource = some .record)
    (hqueue : s.ew.queue = r :: rest) : s.access .evt = some (s.recordAccess r) := by
  rw [State.access, State.evtAccess, h]
  dsimp only
  rw [hqueue]

/-- The word that each grant of a record writes, and where (R140, R161). -/
theorem State.recordAccess_eq {r : EventRecord} {a : Nat} {w : Word}
    (h : (s.ew.stage = 0 ∧ a = windowAddr s.pu.params (0x8000 + 16 * s.ew.head) + 4 ∧ w = r.detailA) ∨
      (s.ew.stage = 1 ∧ a = windowAddr s.pu.params (0x8000 + 16 * s.ew.head) + 8 ∧ w = r.detailB) ∨
      (s.ew.stage = 2 ∧ a = windowAddr s.pu.params (0x8000 + 16 * s.ew.head) + 12 ∧ w = r.stamp) ∨
      (s.ew.stage = 3 ∧ a = windowAddr s.pu.params (0x8000 + 16 * s.ew.head) ∧
        w = BitVec.ofNat 32 (r.kind.code + r.reason.toNat * 256 + r.subject.toNat * 65536)) ∨
      (s.ew.stage = 4 ∧ a = windowAddr s.pu.params 0x900 ∧
        w = ringWordOf ((s.ew.head + 1) % s.pu.params.ringLength) s.ew.tail)) :
    s.recordAccess r = .write a (wordBytes w) := by
  unfold State.recordAccess State.wordWrite State.recordOffset
  obtain ⟨hs, rfl, rfl⟩ | ⟨hs, rfl, rfl⟩ | ⟨hs, rfl, rfl⟩ | ⟨hs, rfl, rfl⟩ | ⟨hs, rfl, rfl⟩ := h <;>
    simp only [hs, windowAddr_add] <;> rfl

theorem State.recordGranted_next (h : s.ew.stage ≠ 4) :
    s.recordGranted = { s with ew := { s.ew with stage := s.ew.stage + 1 } } := by
  have hlt : s.ew.stage.val + 1 < 5 := by
    have hval : s.ew.stage.val ≠ 4 := fun e => h (Fin.ext e)
    omega
  have hsucc : (⟨s.ew.stage.val + 1, hlt⟩ : Fin 5) = s.ew.stage + 1 := Fin.ext (by
    rw [Fin.val_add]
    exact (Nat.mod_eq_of_lt hlt).symm)
  rw [State.recordGranted, dif_pos hlt, hsucc]

theorem State.recordGranted_last (h : s.ew.stage = 4) : s.recordGranted = { s with ew := { s.ew with
    stage := 0, head := s.nextHead, queue := s.ew.queue.tail, evtAsserted := true, recordFirst := false } } := by
  rw [State.recordGranted, dif_neg (by rw [h]; decide)]

end Evt

/-- Settles O29. -/
theorem eventRecordGrants : Obligations.EventRecordGrants := by
  unfold Obligations.EventRecordGrants
  intro s r rest hwf hgrant hsource hqueue
  have haccess := State.evtAccess_record hsource hqueue
  have hstep : eventRecordGrantStep s = (s.granted .evt).recordGranted := by
    rw [eventRecordGrantStep, if_pos hsource, State.grant_granted hgrant]
  refine ⟨_, congrArg Host.Outcome.next hstep, fun a w hcase => ?_, fun hstage => ?_, fun hstage => ?_, ?_⟩
  · obtain ⟨hholds, hkeeps⟩ := State.granted_holds hwf (haccess.trans (congrArg some (State.recordAccess_eq hcase)))
    rw [State.recordGranted_eq]
    exact ⟨memReadWord_of_holds hholds, hkeeps⟩
  · rw [State.recordGranted_next (s := s.granted .evt) hstage]
    rfl
  · rw [State.recordGranted_last (s := s.granted .evt) hstage]
    change { s.ew with stage := 0, head := s.nextHead, queue := s.ew.queue.tail, evtAsserted := true, recordFirst := false } = _
    rw [hqueue]
    rfl
  · rw [State.recordGranted_eq]
    rfl

section EvtSource
variable {s : State}

theorem ringWordGrantStep_granted (hgrant : s.nextGrant = some .evt) (hsource : s.evtSource = some .ringWord) :
    ringWordGrantStep s = (s.granted .evt).ringWordGranted := by
  rw [ringWordGrantStep, if_pos hsource, State.grant_granted hgrant]

theorem State.evtAccess_ringWord (h : s.evtSource = some .ringWord) :
    s.access .evt = some (s.wordWrite 0x900 (ringWordOf s.ew.head s.ew.tail)) := by
  rw [State.access, State.evtAccess, h]

theorem State.ringWordGranted_idle (h : s.cbp.head ≠ .ringWord) :
    s.ringWordGranted = { s with ew := { s.ew with ringWordDue := false } } := by
  obtain ⟨-, he⟩ | ⟨_, _, hhead, -, -⟩ := s.ringWordGranted_cases
  · exact he
  · exact absurd hhead h

theorem State.ringWordGranted_waiting {h : PostedWrite} {rest : List PostedWrite} (hhead : s.cbp.head = .ringWord)
    (hqueue : s.cbp.queue = h :: rest) : s.ringWordGranted =
      { s with cbp := { s.cbp with head := .writing h.through false }, ew := { s.ew with ringWordDue := false } } := by
  rw [State.ringWordGranted, hhead, hqueue]
  rfl

theorem State.ringWordGranted_eq (s : State) : s.ringWordGranted = { s with
    cbp := s.ringWordGranted.cbp, ew := { s.ew with ringWordDue := false } } := by
  obtain ⟨-, he⟩ | ⟨_, _, _, _, he⟩ := s.ringWordGranted_cases <;> rw [he]

theorem State.evtAccess_status {rw : StatusRewrite} (h : s.evtSource = some .status) (hrw : s.ew.rewrite = some rw) :
    s.access .evt = some (s.wordWrite (0x900 + 4 * rw.next.val) (s.statusWord rw)) := by
  rw [State.access, State.evtAccess, h]
  dsimp only
  rw [hrw]

theorem State.statusWord_snapshot {rw : StatusRewrite} {i : Fin 12} (h : rw.next.val = i.val + 1) :
    s.statusWord rw = rw.snapshot[i] := by
  rw [State.statusWord, if_neg (by omega), h, Nat.add_sub_cancel, List.getD_eq_getElem?_getD]
  simp

theorem statusZoneGrantStep_granted (hgrant : s.nextGrant = some .evt) (hsource : s.evtSource = some .status) :
    statusZoneGrantStep s = (s.granted .evt).statusGranted := by
  rw [statusZoneGrantStep, if_pos hsource, State.grant_granted hgrant]

theorem State.statusGranted_last {rw : StatusRewrite} (hrw : s.ew.rewrite = some rw) (h : rw.next.val = 12) :
    s.statusGranted = { s with ew := { s.ew with rewrite := none } } := by
  rw [State.statusGranted, hrw]
  exact dif_neg (by omega)

theorem State.statusGranted_next {rw : StatusRewrite} (hrw : s.ew.rewrite = some rw) (h : rw.next.val < 12) :
    s.statusGranted = { s with ew := { s.ew with rewrite := some { rw with next := rw.next + 1 } } } := by
  have hlt : rw.next.val + 1 < 13 := by omega
  have hsucc : (⟨rw.next.val + 1, hlt⟩ : Fin 13) = rw.next + 1 := Fin.ext (by
    rw [Fin.val_add]
    exact (Nat.mod_eq_of_lt hlt).symm)
  rw [State.statusGranted, hrw]
  dsimp only
  rw [dif_pos hlt, hsucc]

/-- EVT's order once no record is begun (R140). -/
theorem State.evtSource_between (h : s.ew.stage = 0) : s.evtSource =
    if s.ew.ringWordDue = true then some .ringWord
    else if (s.ew.rewrite.isSome && !(s.ew.recordFirst && s.recordReady)) = true then some .status
    else if s.recordReady = true then some .record
    else none := by
  rw [State.evtSource, if_neg (not_not.2 h)]

end EvtSource

/-- Settles O30. -/
theorem ringAndStatusGrants : Obligations.RingAndStatusGrants := by
  unfold Obligations.RingAndStatusGrants
  refine ⟨fun s hwf hgrant => ⟨fun hsource => ?_, fun rw hsource hrw => ?_⟩, fun s => ⟨fun hstage => if_pos hstage,
    fun hstage => ⟨fun hdue => ?_, fun hdue => ⟨fun hrewrite hfirst => ?_, fun hcase => ⟨fun hready => ?_, fun hnot => ?_⟩⟩⟩⟩⟩
  · obtain ⟨hword, hkeeps⟩ := State.granted_word hwf (State.evtAccess_ringWord hsource)
    refine ⟨_, congrArg Host.Outcome.next (ringWordGrantStep_granted hgrant hsource), ?_, ?_, fun hhead => ?_,
      fun h rest hhead hqueue => ?_, ?_⟩
    · rw [State.ringWordGranted_eq]
      exact hword
    · rw [State.ringWordGranted_eq]
      exact hkeeps
    · rw [State.ringWordGranted_idle (s := s.granted .evt) hhead]
      rfl
    · rw [State.ringWordGranted_waiting (s := s.granted .evt) hhead hqueue]
      rfl
    · rw [State.ringWordGranted_eq]
      rfl
  · obtain ⟨hword, hkeeps⟩ := State.granted_word hwf (State.evtAccess_status hsource hrw)
    refine ⟨_, congrArg Host.Outcome.next (statusZoneGrantStep_granted hgrant hsource), ⟨fun hzero => ?_, fun i hi => ?_, ?_⟩,
      fun hlast => ?_, fun hmore => ?_, ?_⟩
    · rw [State.statusGranted_eq]
      refine hword.trans ?_
      exact if_pos hzero
    · rw [State.statusGranted_eq]
      exact hword.trans (State.statusWord_snapshot hi)
    · rw [State.statusGranted_eq]
      exact hkeeps
    · rw [State.statusGranted_last (s := s.granted .evt) hrw hlast]
      rfl
    · rw [State.statusGranted_next (s := s.granted .evt) hrw hmore]
      rfl
    · rw [State.statusGranted_eq]
      rfl
  · rw [State.evtSource_between hstage, if_pos hdue]
  · rw [← State.recordReady_iff] at hfirst
    rw [State.evtSource_between hstage, hdue, if_neg Bool.false_ne_true, if_pos]
    rw [Bool.and_eq_true, Bool.not_eq_true', Option.isSome_iff_ne_none, ← Bool.not_eq_true, Bool.and_eq_true]
    exact ⟨hrewrite, hfirst⟩
  all_goals
    rw [← State.recordReady_iff] at hcase
    have hstatus : ¬ (s.ew.rewrite.isSome && !(s.ew.recordFirst && s.recordReady)) = true := by
      rw [Bool.and_eq_true, Bool.not_eq_true', Option.isSome_iff_ne_none, ← Bool.not_eq_true, Bool.and_eq_true]
      exact fun h => hcase.elim h.1 h.2
    rw [State.evtSource_between hstage, hdue, if_neg Bool.false_ne_true, if_neg hstatus]
  · exact if_pos (s.recordReady_iff.2 hready)
  · exact if_neg (mt s.recordReady_iff.1 hnot)

end Sys2Proof.Machine

/-! XCH's grants (O33, O35), the tick's expiry (O38), the check interval and the LOS lines (O45). -/

namespace Sys2Proof.Machine

theorem State.emit_of {s t : State} (h : t.ew = s.ew) (kind : RecordKind) (reason : Nat) (subject : BitVec 16) (a b : Word) :
    t.emit kind reason subject a b = { t with ew := (s.emit kind reason subject a b).ew } := by
  rw [State.emit_eq, State.emit_ew_congr h]

/-! ### The exchange's grants (R114) -/

theorem RunningExchange.advance_next {x : RunningExchange} {i : Fin 16} (h : i.val = x.step.val + 1) :
    x.advance = { x with step := i, stage := .header } := by
  have hlt : x.step.val + 1 < 16 := h ▸ i.isLt
  have hi : (⟨x.step.val + 1, hlt⟩ : Fin 16) = i := Fin.ext h.symm
  rw [RunningExchange.advance, dif_pos hlt, hi]

theorem RunningExchange.advance_last {x : RunningExchange} (h : x.step.val = 15) : x.advance = { x with stage := .final } := by
  rw [RunningExchange.advance, dif_neg (by omega)]

section Exchange
variable {s : State} {x : RunningExchange}

theorem State.xchAccess_exchange (hadoption : s.pu.adoption = none) (hrunning : s.xe.running = some x) :
    s.xchAccess = s.exchangeAccess x := by
  rw [State.xchAccess, hadoption]
  dsimp only
  rw [hrunning]

theorem exchangeAccessGrantStep_granted (hadoption : s.pu.adoption = none) (hrunning : s.xe.running = some x)
    (hgrant : s.nextGrant = some .xch) : exchangeAccessGrantStep s =
      (s.granted .xch).exchangeStep x (wordOfBytes (s.readBytes s.xchAccess)) := by
  rw [exchangeAccessGrantStep, hadoption, hrunning]
  exact State.grant_granted hgrant

/-- A word read by the exchange. -/
theorem exchangeAccessGrantStep_read (hadoption : s.pu.adoption = none) (hrunning : s.xe.running = some x)
    (hgrant : s.nextGrant = some .xch) {offset : Nat} (haccess : s.exchangeAccess x = some (s.wordRead offset)) :
    exchangeAccessGrantStep s = State.exchangeStep { s with tmp := (s.movePointers .xch).tmp } x (s.loadWord offset) := by
  have hxch := (s.xchAccess_exchange hadoption hrunning).trans haccess
  have hread : s.access .xch = some (s.wordRead offset) := hxch
  rw [exchangeAccessGrantStep_granted hadoption hrunning hgrant, State.granted_read hread, hxch]
  rfl

/-- A word written by the exchange. -/
theorem exchangeAccessGrantStep_write (hadoption : s.pu.adoption = none) (hrunning : s.xe.running = some x)
    (hgrant : s.nextGrant = some .xch) {offset : Nat} {w : Word} (hwf : Memory.wf s.mem)
    (haccess : s.exchangeAccess x = some (s.wordWrite offset w)) :
    (∃ v, exchangeAccessGrantStep s = (s.granted .xch).exchangeStep x v) ∧
      memReadWord (s.granted .xch).mem (windowAddr s.pu.params offset) = w ∧
      keepsOutside s.mem (s.granted .xch).mem (windowAddr s.pu.params offset) 4 :=
  ⟨⟨_, exchangeAccessGrantStep_granted hadoption hrunning hgrant⟩,
    State.granted_word hwf ((s.xchAccess_exchange hadoption hrunning).trans haccess)⟩

/-- An entry skipped once CTL's pointers have moved. -/
theorem State.skipEntry_moved (s : State) (tmp : MemoryPort) (x : RunningExchange) (reason : SkipReason) (b : Word) :
    State.skipEntry { s with tmp := tmp } x reason b = { s.emit .planEntrySkipped reason.code
      (BitVec.ofNat 16 (keyDest x.keyWord)) (entryDetail x.request.plan x.step.val) b with
        tmp := tmp, xe := { s.xe with running := some { x with skipped := x.skipped + 1 }.advance } } := by
  rw [State.skipEntry, State.emit_of (s := s) (t := { s with tmp := tmp }) rfl, State.emit_eq s]
  rfl

end Exchange

/-- Settles O33: stage by stage. -/
theorem exchangeSequence : Obligations.ExchangeSequence := by
  unfold Obligations.ExchangeSequence
  refine ⟨fun x => ⟨fun i => RunningExchange.advance_next, RunningExchange.advance_last⟩,
    fun s x hwf hadoption hrunning hgrant => ⟨fun hstage => ?_, fun hstage => ?_, fun d hstage hkey => ?_,
      fun w hstage => ?_, fun hstage => ?_⟩⟩
  · have haccess : s.exchangeAccess x = some (s.wordWrite (planHeaderOffset x.request.plan)
        (planHeader 1 x.step.val x.swapped x.skipped)) := by rw [State.exchangeAccess, hstage]
    obtain ⟨⟨v, he⟩, hword, hkeeps⟩ := exchangeAccessGrantStep_write hadoption hrunning hgrant hwf haccess
    refine ⟨(s.granted .xch).setRunning (some { x with stage := .key }), congrArg Host.Outcome.next (he.trans ?_), hword,
      hkeeps, rfl⟩
    rw [State.exchangeStep, hstage]
  · have haccess : s.exchangeAccess x = some (s.wordRead (planKeyOffset x.request.plan x.step.val)) := by
      rw [State.exchangeAccess, hstage]
    have he := exchangeAccessGrantStep_read hadoption hrunning hgrant haccess
    rw [State.exchangeStep, hstage] at he
    refine ⟨fun hvalid => congrArg Host.Outcome.next (he.trans ?_), fun hvalid hdest => congrArg Host.Outcome.next (he.trans ?_),
      fun hvalid hdest => congrArg Host.Outcome.next (he.trans ?_)⟩
    · exact if_pos hvalid
    · exact (if_neg (fun h => Bool.noConfusion (h.symm.trans hvalid))).trans (if_pos hdest)
    · refine (if_neg (fun h => Bool.noConfusion (h.symm.trans hvalid))).trans ((if_neg (not_lt.2 hdest)).trans ?_)
      exact s.skipEntry_moved _ _ _ _
  · have haccess : s.exchangeAccess x = some (s.wordRead (planPathOffset x.request.plan x.step.val)) := by
      rw [State.exchangeAccess, hstage]
    have he := exchangeAccessGrantStep_read hadoption hrunning hgrant haccess
    have hdest : destOfNat (keyDest x.keyWord) = some d := by
      have hval : keyDest x.keyWord = d.val := hkey
      rw [hval, destOfNat, dif_pos d.isLt]
    rw [State.exchangeStep, hstage] at he
    dsimp only at he
    rw [State.planPathRead, hdest] at he
    have hload : s.loadWord (planPathOffset x.request.plan x.step.val) = memReadWord s.mem
        (windowAddr s.pu.params (0x1000 + 0x80 * x.request.plan.val + 8 * x.step.val) + 4) := by
      rw [← windowAddr_add]
      rfl
    dsimp only at he
    rw [hload] at he
    refine ⟨fun hnone => congrArg Host.Outcome.next ?_, fun src hsrc => ⟨fun hturn => congrArg Host.Outcome.next ?_,
      fun hturn => congrArg Host.Outcome.next ?_⟩⟩
    · rw [he, hnone]
      exact s.skipEntry_moved _ _ _ _
    · rw [he, hsrc]
      exact (if_pos hturn).trans (s.skipEntry_moved _ _ _ _)
    · rw [he, hsrc]
      exact if_neg (by rw [hturn]; exact Bool.false_ne_true)
  · have haccess : s.exchangeAccess x = some (s.wordWrite (planPathOffset x.request.plan x.step.val) w) := by
      rw [State.exchangeAccess, hstage]
    obtain ⟨⟨v, he⟩, hword, hkeeps⟩ := exchangeAccessGrantStep_write hadoption hrunning hgrant hwf haccess
    rw [planPathOffset, windowAddr_add] at hword hkeeps
    refine ⟨(s.granted .xch).setRunning (some x.advance), congrArg Host.Outcome.next (he.trans ?_), hword, hkeeps, rfl⟩
    rw [State.exchangeStep, hstage]
  · have haccess : s.exchangeAccess x = some (s.wordWrite (planHeaderOffset x.request.plan)
        (planHeader 0 0 x.swapped x.skipped)) := by rw [State.exchangeAccess, hstage]
    obtain ⟨⟨v, he⟩, hword, hkeeps⟩ := exchangeAccessGrantStep_write hadoption hrunning hgrant hwf haccess
    refine ⟨{ s.granted .xch with
      ew := (s.emit .exchangeDone 0 (BitVec.ofNat 16 x.request.plan.val) (originDetail x.request.origin)
        (countsDetail x.swapped x.skipped)).ew, xe := { s.xe with running := none } },
      congrArg Host.Outcome.next (he.trans ?_), hword, hkeeps, rfl, rfl⟩
    rw [State.exchangeStep, hstage]
    dsimp only
    rw [State.endExchange, State.emit_of (s := s) (t := s.granted .xch) rfl]
    rfl

/-! ### Adoption's grants of masks and headers (R150, R151) -/

section Adopt
variable {s : State} {a : Adoption}

theorem State.xchAccess_adoption (h : s.pu.adoption = some a) : s.xchAccess = s.adoptionAccess a := by
  rw [State.xchAccess, h]

theorem adoptionAccessGrantStep_granted (h : s.pu.adoption = some a) (hgrant : s.nextGrant = some .xch) :
    adoptionAccessGrantStep s = (s.granted .xch).adoptionStep a (wordOfBytes (s.readBytes s.xchAccess)) := by
  rw [adoptionAccessGrantStep, h]
  exact State.grant_granted hgrant

/-- A word read by the adoption. -/
theorem adoptionAccessGrantStep_read (h : s.pu.adoption = some a) (hgrant : s.nextGrant = some .xch) {offset : Nat}
    (haccess : s.adoptionAccess a = some (s.wordRead offset)) : adoptionAccessGrantStep s =
      State.adoptionStep { s with tmp := (s.movePointers .xch).tmp } a (s.loadWord offset) := by
  have hxch := (s.xchAccess_adoption h).trans haccess
  have hread : s.access .xch = some (s.wordRead offset) := hxch
  rw [adoptionAccessGrantStep_granted h hgrant, State.granted_read hread, hxch]
  rfl

/-- A word written by the adoption. -/
theorem adoptionAccessGrantStep_write (h : s.pu.adoption = some a) (hgrant : s.nextGrant = some .xch) {offset : Nat}
    {w : Word} (hwf : Memory.wf s.mem) (haccess : s.adoptionAccess a = some (s.wordWrite offset w)) :
    (∃ v, adoptionAccessGrantStep s = (s.granted .xch).adoptionStep a v) ∧
      memReadWord (s.granted .xch).mem (windowAddr s.pu.params offset) = w ∧
      keepsOutside s.mem (s.granted .xch).mem (windowAddr s.pu.params offset) 4 :=
  ⟨⟨_, adoptionAccessGrantStep_granted h hgrant⟩, State.granted_word hwf ((s.xchAccess_adoption h).trans haccess)⟩

theorem State.afterHeader_next {p q : Plan} (h : q.val = p.val + 1) (a : Adoption) :
    s.afterHeader a p = s.setAdoption (some { a with stage := .header q }) := by
  have hlt : p.val + 1 < 8 := h ▸ q.isLt
  have hq : (⟨p.val + 1, hlt⟩ : Plan) = q := Fin.ext h.symm
  rw [State.afterHeader, dif_pos hlt, hq]

end Adopt

section HeaderWords
variable (w : Word)

theorem field_lt (lo len : Nat) : field w lo len < 2 ^ len := Nat.mod_lt _ (Nat.two_pow_pos len)

theorem tornHeaderWord_toNat : (tornHeaderWord w).toNat =
    2 + field w 4 4 * 2 ^ 4 + field w 8 8 * 2 ^ 8 + field w 16 8 * 2 ^ 16 := by
  have h4 := field_lt w 4 4
  have h8 := field_lt w 8 8
  have h16 := field_lt w 16 8
  rw [tornHeaderWord, planHeader, BitVec.toNat_ofNat, Nat.mod_eq_of_lt (by omega)]

/-- A torn header carries TORN, the step and the counts found, and 0 elsewhere (R151). -/
theorem field_tornHeaderWord : field (tornHeaderWord w) 0 2 = 2 ∧ field (tornHeaderWord w) 4 4 = field w 4 4 ∧
    field (tornHeaderWord w) 8 8 = field w 8 8 ∧ field (tornHeaderWord w) 16 8 = field w 16 8 ∧
    field (tornHeaderWord w) 2 2 = 0 ∧ field (tornHeaderWord w) 24 8 = 0 := by
  have h := tornHeaderWord_toNat w
  have h4 := field_lt w 4 4
  have h8 := field_lt w 8 8
  have h16 := field_lt w 16 8
  have hfield : ∀ lo len, field (tornHeaderWord w) lo len = (tornHeaderWord w).toNat / 2 ^ lo % 2 ^ len := fun _ _ => rfl
  generalize tornHeaderWord w = v at h hfield ⊢
  generalize field w 4 4 = x at *
  generalize field w 8 8 = y at *
  generalize field w 16 8 = z at *
  simp only [hfield]
  omega

end HeaderWords

/-- Settles O35. -/
theorem adoptionMasksAndHeaders : Obligations.AdoptionMasksAndHeaders := by
  unfold Obligations.AdoptionMasksAndHeaders
  refine ⟨fun s a hwf hgrant ha => ⟨fun m hstage => congrArg Host.Outcome.next ?_,
    fun p q hstage hq hcondition => congrArg Host.Outcome.next ?_, fun p hstage hcondition => congrArg Host.Outcome.next ?_,
    fun p q w hstage hq => ?_⟩, field_tornHeaderWord⟩
  · have haccess : s.adoptionAccess a = some (s.wordRead (0x700 + 4 * m.val)) := by rw [State.adoptionAccess, hstage]
    rw [adoptionAccessGrantStep_read ha hgrant haccess, State.adoptionStep, hstage]
    rfl
  · have haccess : s.adoptionAccess a = some (s.wordRead (planHeaderOffset p)) := by rw [State.adoptionAccess, hstage]
    rw [adoptionAccessGrantStep_read ha hgrant haccess, State.adoptionStep, hstage]
    dsimp only
    unfold State.adoptHeader
    rw [State.afterHeader_next hq, State.afterHeader_next hq]
    rw [show s.loadWord (planHeaderOffset p) = s.loadWord (0x1400 + 4 * p.val) from rfl]
    obtain h | h := hcondition <;> rw [h] <;> rfl
  · have haccess : s.adoptionAccess a = some (s.wordRead (planHeaderOffset p)) := by rw [State.adoptionAccess, hstage]
    have hfield : field (s.loadWord (planHeaderOffset p)) 0 2 = 1 ∨ field (s.loadWord (planHeaderOffset p)) 0 2 = 3 :=
      hcondition
    rw [adoptionAccessGrantStep_read ha hgrant haccess, State.adoptionStep, hstage]
    dsimp only
    rw [State.adoptHeader, if_neg (by omega), if_neg (by omega),
      show s.loadWord (planHeaderOffset p) = s.loadWord (0x1400 + 4 * p.val) from rfl, State.emit_of (s := s)
      (t := State.setCondition { s with tmp := (s.movePointers .xch).tmp } p .torn) rfl, State.emit_eq s]
    rfl
  · have haccess : s.adoptionAccess a = some (s.wordWrite (planHeaderOffset p) w) := by rw [State.adoptionAccess, hstage]
    obtain ⟨⟨v, he⟩, hword, hkeeps⟩ := adoptionAccessGrantStep_write ha hgrant hwf haccess
    refine ⟨(s.granted .xch).setAdoption (some { a with stage := .header q }), congrArg Host.Outcome.next (he.trans ?_), hword,
      hkeeps, rfl⟩
    rw [State.adoptionStep, hstage]
    exact State.afterHeader_next hq a

/-! ### The tick (R66, R67) -/

theorem State.startTick_passesDue (s : State) (w : Way) :
    s.startTick.re.passesDue[w] = s.re.passesDue[w] + (if s.slotsOfWay w = [] then 0 else 1) := by
  refine (Vector.getElem_ofFn _).trans ?_
  simp only [List.isEmpty_iff]

theorem State.slotWay_eq_some_iff (s : State) (n : SlotNo) (w : Way) :
    s.slotWay n = some w ↔ ∃ sl, s.re.slots[n] = some sl ∧ wayOf sl.dest = w := Option.map_eq_some_iff

theorem State.slotsOfWay_eq_nil_iff (s : State) (w : Way) :
    s.slotsOfWay w = [] ↔ ¬ ∃ n ∈ s.re.list, ∃ sl, s.re.slots[n] = some sl ∧ wayOf sl.dest = w := by
  simp only [State.slotsOfWay, List.filter_eq_nil_iff, beq_iff_eq, s.slotWay_eq_some_iff, not_exists, not_and]

/-- Settles O38. -/
theorem rampTickRunsOrWaits : Obligations.RampTickRunsOrWaits := by
  unfold Obligations.RampTickRunsOrWaits
  refine fun s htimer => ⟨fun hempty => ⟨s.startTick, congrArg Host.Outcome.next ?_, fun w => ?_, rfl⟩,
    fun hlisted => congrArg Host.Outcome.next ?_⟩
  · rw [rampTickExpiryStep, if_neg (by rw [htimer]; exact Bool.noConfusion), if_pos (List.isEmpty_iff.2 hempty)]
  · rw [s.startTick_passesDue]
    by_cases h : ∃ n ∈ s.re.list, ∃ sl, s.re.slots[n] = some sl ∧ wayOf sl.dest = w
    · rw [if_pos h, if_neg (fun hnil => (s.slotsOfWay_eq_nil_iff w).1 hnil h)]
    · rw [if_neg h, if_pos ((s.slotsOfWay_eq_nil_iff w).2 h)]
  · rw [rampTickExpiryStep, if_neg (by rw [htimer]; exact Bool.noConfusion), if_neg (mt List.isEmpty_iff.1 hlisted)]

/-! ### The check interval and the LOS lines (R94, R95, R143) -/

/-- A change of a line in the terms of its mode (R94). -/
theorem latchAfter_eq (mode : LosMode) (latch before now : Bool) : latchAfter mode latch before now =
    (latch || (match mode with | .level => now | .edge => now && !before)) := by cases mode <;> rfl

theorem checkIntervalExpiryStep_running {s : State} (h : s.lm.checkTimer = true) :
    checkIntervalExpiryStep s = s.oweEvaluations.beginRewrite := if_pos h

theorem losChangeStep_watching {s : State} (h : s.lm.watching = true) (w : Way) (level : Bool) : losChangeStep w level s =
    State.setWay { s with los := s.los.set w level } w { s.lm.ways[w] with
      latch := s.lm.ways[w].latch || (match s.pu.params.losMode[w] with
        | .level => level != s.pu.params.losActiveLow[w]
        | .edge => (level != s.pu.params.losActiveLow[w]) && !(s.los[w] != s.pu.params.losActiveLow[w])) } := by
  have hset : (s.los.set w level)[w] = level := Vector.getElem_set_self _
  rw [losChangeStep, if_pos h]
  simp only [latchAfter_eq, State.losActive, hset]

/-- Settles O45. -/
theorem checkIntervalAndLosChange : Obligations.CheckIntervalAndLosChange := by
  unfold Obligations.CheckIntervalAndLosChange
  refine ⟨fun s htimer => ⟨s.oweEvaluations.beginRewrite, congrArg Host.Outcome.next (checkIntervalExpiryStep_running htimer),
    fun w => ⟨Vector.getElem_ofFn _, Vector.getElem_replicate _⟩, rfl,
    ⟨{ snapshot := s.statusSnapshot, next := 0 }, rfl, rfl, ?_, congrArg (BitVec.ofNat 32) rfl, rfl, rfl, fun w => ?_,
      fun w => ?_⟩, ?_, rfl⟩, fun w level s => ?_⟩
  · change partStateWord s.cbp.lock s.pu.outcome (s.xe.running.map fun x => x.request.plan) s.xe.list.length = _
    cases s.xe.running with
    | none => rfl
    | some x => exact congrArg (BitVec.ofNat 32) (by dsimp only; ring)
  · fin_cases w <;> rfl
  · fin_cases w <;> rfl
  · change (s.ew.rewrite.isSome && s.recordReady) = true ↔ _
    rw [Bool.and_eq_true, Option.isSome_iff_ne_none, s.recordReady_iff]
  · by_cases hwatching : s.lm.watching = true
    · refine ⟨_, congrArg Host.Outcome.next (losChangeStep_watching hwatching w level), rfl, fun hnot => ?_, fun _ => rfl, rfl⟩
      exact absurd (hwatching.symm.trans hnot) Bool.noConfusion
    · exact ⟨_, congrArg Host.Outcome.next (if_neg hwatching), rfl, fun _ => rfl, fun h => absurd h hwatching, rfl⟩

end Sys2Proof.Machine

/-! Evaluations of ways that serve (O46) or await release (O49), and the start of an exchange (O32). -/

namespace Sys2Proof.Machine

/-! ### Records raised -/

section Raised
variable {s t u : State}

theorem State.onlyRaises_of_ew (h : t.ew = s.ew) : s.onlyRaises t := (State.raises_of_ew h).toonlyRaises

theorem State.onlyRaises_of_emit {kind : RecordKind} {reason : Nat} {subject : BitVec 16} {a b : Word}
    (h : u.ew = (s.emit kind reason subject a b).ew) : s.onlyRaises u :=
  (s.emit_onlyRaises kind reason subject a b).trans (State.onlyRaises_of_ew h)

/-- A record raised first stays first whatever is raised behind it. -/
theorem State.raisesFirst_of_emit {kind : RecordKind} {reason : Nat} {subject : BitVec 16} {a b : Word}
    (hu : u.ew = (s.emit kind reason subject a b).ew) (h : u.onlyRaises t) : s.raisesFirst t kind reason subject a b := by
  intro hroom
  have hqueue := h.queue
  rw [hu, State.emit, if_pos hroom] at hqueue
  exact hqueue

end Raised

theorem State.emitWayState_of {s t : State} (h : t.ew = s.ew) (w : Way) (old : WayState) (r : WayRecord) :
    t.emitWayState w old r = { t with ew := (s.emit .wayState 0 (BitVec.ofNat 16 w.val) (stateDetail old r.state)
      (counterDetail r.counter r.recovery)).ew } := State.emit_of h _ _ _ _ _

/-! ### One evaluation taken (R95) -/

section Evaluation
variable {s : State} {w : Way}

theorem State.latchCleared_eq (s : State) (w : Way) : s.latchCleared w =
    (s.pu.params.losMode[w] == .level && (s.los[w] != s.pu.params.losActiveLow[w])) := by
  unfold State.latchCleared
  cases s.pu.params.losMode[w] <;> rfl

theorem exec_wayEvaluation (htimer : s.lm.checkTimer = true) (hdue : 0 < s.lm.evalsDue[w] ∨ s.lm.evalAhead[w] = false) :
    exec (.wayEvaluation w) s = .next ((s.takeEvaluation w).evaluateWay w) :=
  congrArg Host.Outcome.next (wayEvaluationStep_of_due htimer hdue)

theorem State.evaluateWay_serving (h : (s.lm.ways[w]).state.holdsDark = false) : s.evaluateWay w =
    s.evaluateServing w { s.lm.ways[w] with latch := s.latchCleared w } (s.lm.ways[w]).latch := by
  unfold State.evaluateWay
  dsimp only
  split
  · rfl
  · rfl
  · rfl
  · next hst => rw [hst] at h; exact Bool.noConfusion h
  · next hst => rw [hst] at h; exact Bool.noConfusion h

theorem State.evaluateWay_isolated (h : (s.lm.ways[w]).state = .isolated) : s.evaluateWay w =
    s.evaluateIsolated w { s.lm.ways[w] with latch := s.latchCleared w } (s.lm.ways[w]).latch := by
  unfold State.evaluateWay
  dsimp only
  rw [h]

theorem State.evaluateWay_awaiting (h : (s.lm.ways[w]).state = .awaitRelease) : s.evaluateWay w =
    s.evaluateAwaiting w { s.lm.ways[w] with latch := s.latchCleared w } (s.lm.ways[w]).latch := by
  unfold State.evaluateWay
  dsimp only
  rw [h]

theorem State.setWay_other (s : State) {w k : Way} (h : k ≠ w) (r : WayRecord) :
    (s.setWay w r).lm.ways[k] = s.lm.ways[k] := by
  have hval : w.val ≠ k.val := fun e => h (Fin.ext e.symm)
  simp only [State.setWay_lm, Fin.getElem_fin, Vector.getElem_set_ne _ _ hval]

/-- The record of a way as its evaluation finds it, the latch cleared (R94). -/
def State.evaluated (s : State) (w : Way) : WayRecord :=
  { s.lm.ways[w] with latch := s.pu.params.losMode[w] == .level && (s.los[w] != s.pu.params.losActiveLow[w]) }

theorem exec_wayEvaluation_awaiting (htimer : s.lm.checkTimer = true) (hdue : 0 < s.lm.evalsDue[w] ∨ s.lm.evalAhead[w] = false)
    (h : (s.lm.ways[w]).state = .awaitRelease) : exec (.wayEvaluation w) s =
      .next ((s.takeEvaluation w).evaluateAwaiting w (s.evaluated w) (s.lm.ways[w]).latch) := by
  rw [exec_wayEvaluation htimer hdue, State.evaluateWay_awaiting (s := s.takeEvaluation w) h, State.latchCleared_eq]
  rfl

theorem exec_wayEvaluation_serving (htimer : s.lm.checkTimer = true) (hdue : 0 < s.lm.evalsDue[w] ∨ s.lm.evalAhead[w] = false)
    (h : (s.lm.ways[w]).state.holdsDark = false) : exec (.wayEvaluation w) s =
      .next ((s.takeEvaluation w).evaluateServing w (s.evaluated w) (s.lm.ways[w]).latch) := by
  rw [exec_wayEvaluation htimer hdue, State.evaluateWay_serving (s := s.takeEvaluation w) h, State.latchCleared_eq]
  rfl

theorem exec_wayEvaluation_isolated (htimer : s.lm.checkTimer = true) (hdue : 0 < s.lm.evalsDue[w] ∨ s.lm.evalAhead[w] = false)
    (h : (s.lm.ways[w]).state = .isolated) : exec (.wayEvaluation w) s =
      .next ((s.takeEvaluation w).evaluateIsolated w (s.evaluated w) (s.lm.ways[w]).latch) := by
  rw [exec_wayEvaluation htimer hdue, State.evaluateWay_isolated (s := s.takeEvaluation w) h, State.latchCleared_eq]
  rfl

/-! ### AWAIT_RELEASE (R101, R103) -/

theorem State.wayLaw.awaiting (h : s.wayLaw) (hstate : (s.lm.ways[w]).state = .awaitRelease) :
    (s.lm.ways[w]).counter = 200 ∧ (s.lm.ways[w]).recovery = 150 := by
  have hrange := (h w).1
  unfold WayRecord.inRange at hrange
  rw [hstate] at hrange
  exact hrange

theorem State.wayLaw.isolated (h : s.wayLaw) (hstate : (s.lm.ways[w]).state = .isolated) :
    (s.lm.ways[w]).counter = 200 ∧ (s.lm.ways[w]).recovery < 150 := by
  have hrange := (h w).1
  unfold WayRecord.inRange at hrange
  rw [hstate] at hrange
  exact hrange

theorem cmdReleaseStep_awaiting {h : PostedWrite} (hc : s.commandToTake 3 = some h) (hv : h.data.toNat = w.val)
    (hstate : (s.lm.ways[w]).state = .awaitRelease) : cmdReleaseStep s =
      ((((s.setWay w s.lm.ways[w].cleared).emitWayState w .awaitRelease s.lm.ways[w].cleared).release w
        (some h.tag)).mailbox h false) := by
  have hlt : h.data.toNat < 4 := hv ▸ w.isLt
  have hw : (⟨h.data.toNat, hlt⟩ : Way) = w := Fin.ext hv
  rw [cmdReleaseStep, hc]
  dsimp only
  rw [State.manualRelease, dif_pos hlt]
  have hget : s.lm.ways[h.data.toNat] = s.lm.ways[w] := by simp only [hv, Fin.getElem_fin]
  dsimp only
  rw [hget, if_pos hstate, hw]

end Evaluation

/-- Settles O49. -/
theorem awaitReleaseWaitsForTheHost : Obligations.AwaitReleaseWaitsForTheHost := by
  unfold Obligations.AwaitReleaseWaitsForTheHost
  refine ⟨fun w s hlaw htimer hdue hstate => ?_, fun w s h hc hv hstate => ?_⟩
  · obtain ⟨hcounter, hrecovery⟩ := hlaw.awaiting hstate
    have hexec := exec_wayEvaluation_awaiting htimer hdue hstate
    cases hlatch : (s.lm.ways[w]).latch with
    | false =>
      rw [hlatch] at hexec
      refine ⟨_, hexec, fun k hk => State.setWay_other _ hk _, rfl, fun _ => ⟨State.setWay_getElem _ _ _, ?_, ?_, rfl⟩,
        fun h => Bool.noConfusion h⟩
      · exact (congrArg WayRecord.counter (State.setWay_getElem _ _ _)).trans hcounter
      · exact (congrArg WayRecord.recovery (State.setWay_getElem _ _ _)).trans hrecovery
    | true =>
      rw [hlatch] at hexec
      have hrecord : (s.takeEvaluation w).evaluateAwaiting w (s.evaluated w) true = { s.takeEvaluation w with
          lm := ((s.takeEvaluation w).setWay w { s.evaluated w with state := .isolated, recovery := 0 }).lm
          ew := (s.emit .wayState 0 (BitVec.ofNat 16 w.val) 0x304#32 200#32).ew } := by
        refine (if_pos rfl).trans ((State.emitWayState_of (s := s)
          (t := (s.takeEvaluation w).setWay w { s.evaluated w with state := .isolated, recovery := 0 }) rfl _ _ _).trans ?_)
        dsimp only [State.evaluated]
        rw [hcounter]
        rfl
      rw [hrecord] at hexec
      exact ⟨_, hexec, fun k hk => State.setWay_other _ hk _, rfl, fun h => Bool.noConfusion h,
        fun _ => ⟨State.setWay_getElem _ _ _, rfl⟩⟩
  · refine ⟨_, congrArg Host.Outcome.next (cmdReleaseStep_awaiting hc hv hstate), ?_⟩
    have hlm := (State.release_ways ((s.setWay w s.lm.ways[w].cleared).emitWayState w .awaitRelease s.lm.ways[w].cleared) w
      (some h.tag)).1
    change (((((s.setWay w s.lm.ways[w].cleared).emitWayState w .awaitRelease s.lm.ways[w].cleared).release w
      (some h.tag)).lm.ways[w])).state = .clear
    rw [hlm, State.emitWayState_lm, State.setWay_getElem]
    rfl

end Sys2Proof.Machine

/-! Evaluations of ways that serve (O46). -/

namespace Sys2Proof.Machine

theorem State.keepsOutsideTable.frame {s t : State} (h : s.keepsOutsideTable t) :
    t = { s with csa := t.csa, dt := t.dt, re := t.re, ew := t.ew } := by
  obtain ⟨hpending, hcbp, hmasks, hlm, hxe, htmp, hpu, hlos, hmem, hfree⟩ := h
  rw [← hpending, ← hcbp, ← hmasks, ← hlm, ← hxe, ← htmp, ← hpu, ← hlos, ← hmem, ← hfree]

/-! ### The fault request, case by case (R111) -/

section FaultRequest
variable {s : State} {w : Way} {p : Plan}

theorem ExchangeRequest.isFault_eq_true_iff (q : ExchangeRequest) : q.isFault = true ↔ q.origin ≠ .controller := by
  unfold ExchangeRequest.isFault
  split
  · next h => simp [h]
  · next h => simp [h]

theorem insertFault_append {q : ExchangeRequest} {faults rest : List ExchangeRequest}
    (hfaults : ∀ r ∈ faults, r.origin ≠ .controller) (hrest : ∀ r, rest.head? = some r → r.origin = .controller) :
    insertFault q (faults ++ rest) = faults ++ q :: rest := by
  have hall : ∀ r ∈ faults, r.isFault = true := fun r hr => r.isFault_eq_true_iff.2 (hfaults r hr)
  have hnone : rest.takeWhile ExchangeRequest.isFault = [] ∧ rest.dropWhile ExchangeRequest.isFault = rest := by
    cases rest with
    | nil => exact ⟨rfl, rfl⟩
    | cons r l =>
      have hr : r.isFault = false :=
        Bool.eq_false_iff.2 fun h => (r.isFault_eq_true_iff.1 h) (hrest r rfl)
      exact ⟨List.takeWhile_cons_of_neg (by rw [hr]; exact Bool.false_ne_true),
        List.dropWhile_cons_of_neg (by rw [hr]; exact Bool.false_ne_true)⟩
  rw [insertFault, List.takeWhile_append_of_pos hall, List.dropWhile_append_of_pos hall, hnone.1, hnone.2,
    List.append_nil, List.append_assoc]
  rfl

theorem State.listedFor_append {q : ExchangeRequest} {before after : List ExchangeRequest}
    (hlist : s.xe.list = before ++ q :: after) (hbefore : ∀ b ∈ before, b.plan ≠ p) (hq : q.plan = p) :
    s.listedFor p = some q := by
  have hnone : before.find? (fun r => r.plan == p) = none :=
    List.find?_eq_none.2 fun b hb h => hbefore b hb (beq_iff_eq.1 h)
  rw [State.listedFor, hlist, List.find?_append, hnone, List.find?_cons_of_pos (p := fun r : ExchangeRequest => r.plan == p) (beq_iff_eq.2 hq)]
  rfl

theorem State.listedFor_eq_none (h : ∀ q ∈ s.xe.list, q.plan ≠ p) : s.listedFor p = none :=
  List.find?_eq_none.2 fun q hq he => h q hq (beq_iff_eq.1 he)

theorem State.faultRequest_listed {q : ExchangeRequest} (h : s.listedFor p = some q) : s.faultRequest w p =
    s.emit .exchangeMerged 0 (planSubject p) (originDetail (.fault w)) (mergedDetail false q.origin) := by
  rw [State.faultRequest, h]

theorem State.faultRequest_running {x : RunningExchange} (hlist : s.listedFor p = none) (hx : s.xe.running = some x)
    (hp : x.request.plan = p) : s.faultRequest w p =
    s.emit .exchangeMerged 0 (planSubject p) (originDetail (.fault w)) (mergedDetail true x.request.origin) := by
  have hrun : s.runningFor p = some x.request := by
    rw [State.runningFor, hx]
    exact if_pos hp
  rw [State.faultRequest, hlist, hrun]

theorem State.faultRequest_free (hlist : s.listedFor p = none) (hrun : ∀ x, s.xe.running = some x → x.request.plan ≠ p) :
    s.faultRequest w p = if s.xe.conditions[p] = .torn then
        s.emit .exchangeRefused 2 (planSubject p) (originDetail (.fault w)) 0#32
      else s.setExchangeList (insertFault { origin := .fault w, plan := p } s.xe.list) := by
  have hnone : s.runningFor p = none := by
    unfold State.runningFor
    split
    · next x hx => exact if_neg (hrun x hx)
    · rfl
  rw [State.faultRequest, hlist, hnone]

/-- A fault request changes nothing outside the XE and the event queue. -/
theorem State.faultRequest_frame (s : State) (w : Way) (p : Plan) : s.faultRequest w p =
    { s with xe := (s.faultRequest w p).xe, ew := (s.faultRequest w p).ew } := by
  have hemit : ∀ kind reason subject a b, s.emit kind reason subject a b =
      { s with xe := (s.emit kind reason subject a b).xe, ew := (s.emit kind reason subject a b).ew } := fun _ _ _ _ _ => by
    rw [State.emit_xe]
    exact State.emit_of rfl _ _ _ _ _
  unfold State.faultRequest
  split
  · exact hemit _ _ _ _ _
  · split
    · exact hemit _ _ _ _ _
    · split
      · exact hemit _ _ _ _ _
      · rfl

end FaultRequest

/-! ### Evaluation in CLEAR, WARNING or DEGRADED (R97, R98, R102) -/

section Serving
variable {s t : State} {w : Way}

theorem stateDetail_eq (old new : WayState) : stateDetail old new = BitVec.ofNat 32 (old.code + new.code * 256) := rfl

theorem counterDetail_zero (c : Nat) : counterDetail c 0 = BitVec.ofNat 32 c := by
  rw [counterDetail, Nat.zero_mul, Nat.add_zero]

/-- The state after an interval that a serving way's counter has carried into another state: the record is served and
its WAY_STATE raised. -/
theorem State.serving_takeEvaluation (s : State) (w : Way) (lossy : Bool) :
    (s.takeEvaluation w).serving w (s.evaluated w) lossy = { s.takeEvaluation w with
      lm := ((s.takeEvaluation w).setWay w ((s.evaluated w).served lossy)).lm
      ew := (s.emit .wayState 0 (BitVec.ofNat 16 w.val)
        (BitVec.ofNat 32 ((s.lm.ways[w]).state.code + (stateOfCounter (nextCounter lossy (s.lm.ways[w]).counter)).code * 256))
        (BitVec.ofNat 32 (nextCounter lossy (s.lm.ways[w]).counter))).ew } := by
  rw [← stateDetail_eq, ← counterDetail_zero]
  exact State.emitWayState_of (s := s) (t := (s.takeEvaluation w).setWay w ((s.evaluated w).served lossy)) rfl _ _ _

theorem State.callPlan_none (h : s.pu.params.plan[w] = none) : s.callPlan w = s := by
  rw [State.callPlan, h]

theorem State.callPlan_requested (h : (s.lm.ways[w]).planRequested = true) : s.callPlan w = s := by
  unfold State.callPlan
  split
  · rfl
  · exact if_pos h

theorem State.callPlan_some {p : Plan} (hp : s.pu.params.plan[w] = some p) (h : (s.lm.ways[w]).planRequested = false) :
    s.callPlan w = (s.faultRequest w p).setWay w { s.lm.ways[w] with planRequested := true } := by
  rw [State.callPlan, hp]
  exact if_neg (by rw [h]; exact Bool.false_ne_true)

variable {r : WayRecord} {lossy : Bool}

/-- The plan-requested indication of a record served: entry to CLEAR clears it (R98). -/
theorem WayRecord.served_planRequested (r : WayRecord) (lossy : Bool) : (r.served lossy).planRequested =
    if stateOfCounter (nextCounter lossy r.counter) = .clear then false else r.planRequested := by
  show (r.planRequested && stateOfCounter (nextCounter lossy r.counter) != .clear) = _
  split
  · next h => rw [h]; exact Bool.and_false _
  · next h => rw [bne_iff_ne.2 h, Bool.and_true]

theorem State.evaluateServing_isolates (h : stateOfCounter (nextCounter lossy r.counter) ≠ r.state)
    (hst : stateOfCounter (nextCounter lossy r.counter) = .isolated) :
    s.evaluateServing w r lossy = (s.serving w r lossy).isolate w := by
  rw [State.evaluateServing_changed h, hst]

theorem State.evaluateServing_calls (h : stateOfCounter (nextCounter lossy r.counter) ≠ r.state)
    (hst : stateOfCounter (nextCounter lossy r.counter) = .degraded) :
    s.evaluateServing w r lossy = (s.serving w r lossy).callPlan w := by
  rw [State.evaluateServing_changed h, hst]

theorem State.evaluateServing_records (h : stateOfCounter (nextCounter lossy r.counter) ≠ r.state)
    (hiso : stateOfCounter (nextCounter lossy r.counter) ≠ .isolated)
    (hdeg : stateOfCounter (nextCounter lossy r.counter) ≠ .degraded) :
    s.evaluateServing w r lossy = s.serving w r lossy := by
  rw [State.evaluateServing_changed h]
  split
  · next hst => exact absurd hst hiso
  · next hst => exact absurd hst hdeg
  all_goals rfl

/-- The state with the way's new state and its WAY_STATE. -/
structure State.recordsChange (s u : State) (w : Way) (lossy : Bool) : Prop where
  way : u.lm.ways[w] = (s.evaluated w).served lossy
  other : ∀ k : Way, k ≠ w → u.lm.ways[k] = s.lm.ways[k]
  taken : s.takesEvaluation u w
  raised : u.ew = (s.emit .wayState 0 (BitVec.ofNat 16 w.val)
    (BitVec.ofNat 32 ((s.lm.ways[w]).state.code + (stateOfCounter (nextCounter lossy (s.lm.ways[w]).counter)).code * 256))
    (BitVec.ofNat 32 (nextCounter lossy (s.lm.ways[w]).counter))).ew
  frame : u = { s with lm := u.lm, ew := u.ew }

theorem State.serving_recordsChange (s : State) (w : Way) (lossy : Bool) :
    s.recordsChange ((s.takeEvaluation w).serving w (s.evaluated w) lossy) w lossy := by
  rw [s.serving_takeEvaluation w lossy]
  exact ⟨State.setWay_getElem _ _ _, fun k hk => State.setWay_other (s.takeEvaluation w) hk _, rfl, rfl, rfl⟩

/-- The state in which a fault request of a way that enters DEGRADED has been made. -/
structure State.callsPlan (u t : State) (w : Way) (p : Plan) : Prop where
  way : t.lm.ways[w] = { u.lm.ways[w] with planRequested := true }
  other : ∀ k : Way, k ≠ w → t.lm.ways[k] = u.lm.ways[k]
  lm : t.lm = { u.lm with ways := t.lm.ways }
  xe : t.xe = (u.faultRequest w p).xe
  ew : t.ew = (u.faultRequest w p).ew
  frame : t = { u with lm := t.lm, xe := t.xe, ew := t.ew }

theorem State.callPlan_callsPlan {u : State} {p : Plan} (hp : u.pu.params.plan[w] = some p)
    (h : (u.lm.ways[w]).planRequested = false) : u.callsPlan (u.callPlan w) w p := by
  rw [State.callPlan_some hp h, u.faultRequest_frame w p]
  exact ⟨State.setWay_getElem _ _ _, fun k hk => State.setWay_other _ hk _, rfl, rfl, rfl, rfl⟩

end Serving

/-- A fault request raises records alone beside the request list. -/
theorem State.faultRequest_onlyRaises (s : State) (w : Way) (p : Plan) : s.onlyRaises (s.faultRequest w p) := by
  unfold State.faultRequest
  split
  · exact s.emit_onlyRaises _ _ _ _ _
  · split
    · exact s.emit_onlyRaises _ _ _ _ _
    · split
      · exact s.emit_onlyRaises _ _ _ _ _
      · exact State.onlyRaises_of_ew rfl

theorem State.callsPlan.merges {u t raised : State} {w : Way} {p : Plan} {running : Bool} {o : Origin} (h : u.callsPlan t w p)
    (hew : u.ew = raised.ew) (hreq : u.faultRequest w p =
      u.emit .exchangeMerged 0 (planSubject p) (originDetail (.fault w)) (mergedDetail running o)) :
    t.xe = u.xe ∧ t.ew = (raised.emit .exchangeMerged 0 (BitVec.ofNat 16 p.val) (originDetail (.fault w))
      (mergedDetail running o)).ew := by
  rw [h.xe, h.ew, hreq, State.emit_xe, State.emit_of (s := raised) (t := u) hew]
  exact ⟨rfl, rfl⟩

/-- What calling the plan of a way does with a plan that no request lists and no exchange runs (R111). -/
theorem State.callsPlan.free {u t raised : State} {w : Way} {p : Plan} (h : u.callsPlan t w p) (hew : u.ew = raised.ew)
    (hlist : ∀ q ∈ u.xe.list, q.plan ≠ p) (hrun : ∀ x, u.xe.running = some x → x.request.plan ≠ p) :
    (u.xe.conditions[p] = .torn → t.xe = u.xe ∧ t.ew = (raised.emit .exchangeRefused 2 (BitVec.ofNat 16 p.val)
      (originDetail (.fault w)) 0#32).ew) ∧
    (u.xe.conditions[p] = .idle → t.ew = raised.ew ∧
      t.xe = { u.xe with list := insertFault { origin := .fault w, plan := p } u.xe.list }) := by
  have hreq := State.faultRequest_free (w := w) (State.listedFor_eq_none hlist) hrun
  refine ⟨fun htorn => ?_, fun hidle => ?_⟩
  · rw [if_pos htorn] at hreq
    rw [h.xe, h.ew, hreq, State.emit_xe, State.emit_of (s := raised) (t := u) hew]
    exact ⟨rfl, rfl⟩
  · rw [if_neg (by rw [hidle]; decide)] at hreq
    rw [h.xe, h.ew, hreq]
    exact ⟨hew, rfl⟩

/-- Settles O46: the counter carries the way into the state whose range holds it, and entry to DEGRADED calls its plan. -/
theorem servingWayFollowsItsCounter : Obligations.ServingWayFollowsItsCounter := by
  unfold Obligations.ServingWayFollowsItsCounter
  intro w s hlaw htimer hdue hdark r c st
  have hexec := exec_wayEvaluation_serving htimer hdue hdark
  by_cases hsame : st = r.state
  · rw [State.evaluateServing_same (r := s.evaluated w) hsame] at hexec
    refine ⟨_, hexec, ?_, fun k hk => State.setWay_other _ hk _, fun h => absurd hsame h, fun _ => rfl,
      State.onlyRaises_of_ew rfl, rfl, fun _ => ⟨rfl, rfl, rfl⟩, ⟨fun _ _ => ⟨rfl, ?_⟩, fun p _ h => absurd hsame h⟩, fun _ => rfl, rfl⟩
    · rw [State.setWay_getElem, if_pos hsame, hsame]
      rfl
    · rw [if_pos hsame]
      rfl
  simp only [if_neg hsame]
  have hplan : ((s.evaluated w).served r.latch).planRequested = if st = .clear then false else r.planRequested :=
    WayRecord.served_planRequested (s.evaluated w) r.latch
  have hrecord : ∀ b, b = ((s.evaluated w).served r.latch).planRequested → (s.evaluated w).served r.latch =
      { latch := s.pu.params.losMode[w] == .level && (s.los[w] != s.pu.params.losActiveLow[w])
        state := st, counter := c, recovery := 0, planRequested := b } := by
    rintro b rfl
    rfl
  have hu := s.serving_recordsChange w r.latch
  have hcalls := State.evaluateServing_calls (s := s.takeEvaluation w) (w := w) (r := s.evaluated w) (lossy := r.latch) hsame
  have hisolates := State.evaluateServing_isolates (s := s.takeEvaluation w) (w := w) (r := s.evaluated w) (lossy := r.latch) hsame
  have hrecords := State.evaluateServing_records (s := s.takeEvaluation w) (w := w) (r := s.evaluated w) (lossy := r.latch) hsame
  generalize (s.takeEvaluation w).serving w (s.evaluated w) r.latch = u at hu hcalls hisolates hrecords
  by_cases hiso : st = .isolated
  · rw [hisolates hiso] at hexec
    have hreq := u.isolate_requested w
    have hout : (u.setIsolated w true).keepsOutsideTable (u.isolate w) := hreq.outside
    have hraise : u.onlyRaises (u.isolate w) := (State.onlyRaises_of_ew (s := u) (t := u.setIsolated w true) rfl).trans hreq.raised.toonlyRaises
    have hlm : (u.isolate w).lm = u.lm := hout.lm
    refine ⟨_, hexec, ?_, ?_, fun _ => State.raisesFirst_of_emit hu.raised hraise, fun h => absurd h hsame,
      (State.onlyRaises_of_emit hu.raised).trans hraise, ?_, fun h => absurd hiso h, ⟨fun h => absurd hiso h, ?_⟩, fun _ => ?_, ?_⟩
    · refine (congrArg (·.ways[w]) hlm).trans (hu.way.trans (hrecord _ ?_))
      rw [hplan, hiso]
      exact Bool.or_false _
    · rw [hlm]
      exact hu.other
    · unfold State.takesEvaluation
      rw [hlm]
      exact hu.taken
    · exact fun p h => by rw [hiso] at h; cases h
    · rw [hout.xe, hu.frame]
      rfl
    · generalize u.isolate w = t at hout hlm
      have hxe := hout.xe
      rw [hu.frame] at hout hxe
      rw [hlm, hxe]
      exact hout.frame
  by_cases hcall : st = .degraded ∧ (∃ p, s.pu.params.plan[w] = some p) ∧ r.planRequested = false
  · obtain ⟨hdeg, ⟨p, hp⟩, hfirst⟩ := hcall
    rw [hcalls hdeg] at hexec
    have hup : u.pu.params.plan[w] = some p := by rw [hu.frame]; exact hp
    have hureq : (u.lm.ways[w]).planRequested = false := by
      rw [hu.way, hplan, hdeg]
      exact hfirst
    have hxe : u.xe = s.xe := by rw [hu.frame]
    have ht := State.callPlan_callsPlan hup hureq
    have hraise : u.onlyRaises (u.callPlan w) :=
      (u.faultRequest_onlyRaises w p).trans (State.onlyRaises_of_ew ht.ew)
    refine ⟨_, hexec, ?_, fun k hk => (ht.other k hk).trans (hu.other k hk), fun _ => State.raisesFirst_of_emit hu.raised hraise, fun h => absurd h hsame,
      (State.onlyRaises_of_emit hu.raised).trans hraise, ?_, fun _ => ?_, ⟨fun _ h => ?_, ?_⟩, fun h => absurd h hiso, ?_⟩
    · rw [ht.way, hu.way, hrecord _ rfl, hdeg, hp]
      exact congrArg (fun b => ({ latch := _, state := _, counter := c, recovery := 0, planRequested := b } : WayRecord))
        (Bool.or_true _).symm
    · unfold State.takesEvaluation
      rw [ht.lm, hu.taken]
    · rw [ht.frame, hu.frame]
      exact ⟨rfl, rfl, rfl⟩
    · obtain h | h | h | h := h
      · exact absurd h hsame
      · exact absurd hdeg h
      · exact absurd (hp.symm.trans h) (by simp)
      · exact absurd (hfirst.symm.trans h) (by simp)
    · intro p' _ _ hp' _
      obtain rfl : p = p' := Option.some.inj (hp.symm.trans hp')
      rw [← hxe]
      refine ⟨fun before q after hlist hbefore hq => ht.merges hu.raised (State.faultRequest_listed (State.listedFor_append hlist hbefore hq)),
        fun hfree => ⟨fun x hx hxp => ht.merges hu.raised (State.faultRequest_running (State.listedFor_eq_none hfree) hx hxp),
          fun hidle => ⟨(ht.free hu.raised hfree hidle).1, fun h => ?_⟩⟩⟩
      obtain ⟨hew, hlist⟩ := (ht.free hu.raised hfree hidle).2 h
      exact ⟨hew, fun faults rest hsplit hfaults hrest => by rw [hlist, hsplit, insertFault_append hfaults hrest]⟩
    · rw [ht.frame, hu.frame]
  · have hexec' : exec (.wayEvaluation w) s = .next u := by
      by_cases hdeg : st = .degraded
      · rw [hexec, hcalls hdeg]
        cases hp : s.pu.params.plan[w] with
        | none => rw [State.callPlan_none (by rw [hu.frame]; exact hp)]
        | some p =>
          have hreq : r.planRequested = true := Bool.of_not_eq_false fun h => hcall ⟨hdeg, ⟨p, hp⟩, h⟩
          rw [State.callPlan_requested (by rw [hu.way, hplan, hdeg]; exact hreq)]
      · rw [hexec, hrecords hiso hdeg]
    refine ⟨u, hexec', ?_, hu.other, fun _ => State.raisesFirst_of_emit hu.raised (State.onlyRaises_of_ew rfl), fun h => absurd h hsame,
      State.onlyRaises_of_emit hu.raised, hu.taken, fun _ => ?_, ⟨fun _ _ => ⟨?_, hu.raised⟩, fun p hdeg _ hp hfirst => absurd ⟨hdeg, ⟨p, hp⟩, hfirst⟩ hcall⟩, fun h => absurd h hiso, ?_⟩
    · refine hu.way.trans (hrecord _ ?_)
      rw [hplan]
      split
      · rfl
      · cases hdeg : st == .degraded with
        | false => simp
        | true =>
          cases hfirst : r.planRequested with
          | true => rfl
          | false =>
            cases hp : s.pu.params.plan[w] with
            | none => rfl
            | some p => exact absurd ⟨beq_iff_eq.1 hdeg, ⟨p, hp⟩, hfirst⟩ hcall
    · rw [hu.frame]
      exact ⟨rfl, rfl, rfl⟩
    · rw [hu.frame]
    · rw [hu.frame]
end Sys2Proof.Machine

/-! The start of an exchange (O32). -/

namespace Sys2Proof.Machine

section Start
variable {s : State} {r : ExchangeRequest} {l : List ExchangeRequest}

/-! ### The reads under way withdrawn (R132, R133) -/

theorem ReadSlot.withdraw_issued {q : ReadSlot} {got : List Byte} (h : q.state = .issued got) :
    q.withdraw = { q with state := .latched } := by
  rw [ReadSlot.withdraw, h]
  rfl

theorem ReadSlot.withdraw_of_ne {q : ReadSlot} (h : ∀ got, q.state ≠ .issued got) : q.withdraw = q := by
  unfold ReadSlot.withdraw
  split
  · next got hq => exact absurd hq (h got)
  all_goals rfl

theorem State.withdrawReads_slot (s : State) (i : ReadSlotNo) :
    s.withdrawReads.cbp.slots[i] = (s.cbp.slots[i]).map ReadSlot.withdraw := by
  rw [State.withdrawReads_cbp, Fin.getElem_fin, Vector.getElem_map]
  rfl

theorem State.freeReadSlotNo_congr {t : State} (h : ∀ i : ReadSlotNo, (t.cbp.slots[i]).isNone = (s.cbp.slots[i]).isNone) :
    t.freeReadSlotNo = s.freeReadSlotNo := by
  unfold State.freeReadSlotNo
  exact congrArg (List.find? · _) (funext h)

theorem State.withdrawReads_freeReadSlotNo (s : State) : s.withdrawReads.freeReadSlotNo = s.freeReadSlotNo :=
  State.freeReadSlotNo_congr fun i => by rw [State.withdrawReads_slot, Option.isNone_map]

theorem State.withdrawDirect_none (h : ∀ a size got, s.cbp.held ≠ some (.read a size got)) : s.withdrawDirect = s := by
  unfold State.withdrawDirect
  split
  · next a size got hheld => exact absurd hheld (h a size got)
  all_goals rfl

theorem State.withdrawDirect_held {a : Addr} {size : Size} {got : List Byte} (h : s.cbp.held = some (.read a size got)) :
    s.withdrawDirect = match s.freeReadSlotNo with
      | some i => ({ s with cbp := { s.cbp with held := none, response := .retry } } : State).latchRead i a size
      | none => { s with cbp := { s.cbp with held := none, response := .retry } } := by
  rw [State.withdrawDirect, h] <;> rfl

/-! ### The list considered (R113, R123) -/

theorem State.startFrom_torn {rest : List ExchangeRequest} (h : s.xe.conditions[r.plan] = .torn) :
    State.startFrom (r :: rest) s = State.startFrom rest
      (s.emit .exchangeRefused 2 (exchangeSubject r.plan) (originDetail r.origin) (refusedDetail r)) := by
  rw [State.startFrom, if_pos h]

theorem State.startFrom_idle {rest : List ExchangeRequest} (h : s.xe.conditions[r.plan] ≠ .torn) :
    State.startFrom (r :: rest) s = State.beginExchange { s with xe := { s.xe with list := rest } } r := by
  rw [State.startFrom, if_neg h]

theorem State.emit_setExchangeList (s : State) (l : List ExchangeRequest) (kind : RecordKind) (reason : Nat)
    (subject : BitVec 16) (a b : Word) :
    (s.setExchangeList l).emit kind reason subject a b = (s.emit kind reason subject a b).setExchangeList l := by
  rw [State.emit_of (s := s) (t := s.setExchangeList l) rfl, State.emit_of (s := s) (t := s) rfl]
  rfl

/-- The list that stood in the XE does not matter to the list considered. -/
theorem State.startFrom_setExchangeList (l m : List ExchangeRequest) (s : State) :
    State.startFrom l (s.setExchangeList m) = State.startFrom l s := by
  induction l generalizing s with
  | nil => rfl
  | cons r rest ih =>
    by_cases h : s.xe.conditions[r.plan] = .torn
    · rw [State.startFrom_torn h, State.startFrom_torn (s := s.setExchangeList m) h, State.emit_setExchangeList, ih]
    · rw [State.startFrom_idle h, State.startFrom_idle (s := s.setExchangeList m) h]
      rfl

/-- Every request of a TORN plan: all are refused in one event. -/
theorem State.startFrom_all_torn (h : ∀ r ∈ l, s.xe.conditions[r.plan] = .torn) : State.startFrom l s =
    (l.foldl (fun u r => u.emit .exchangeRefused 2 (exchangeSubject r.plan) (originDetail r.origin) (refusedDetail r))
      s).setExchangeList [] := by
  induction l generalizing s with
  | nil => rfl
  | cons r rest ih =>
    rw [State.startFrom_torn (h r List.mem_cons_self), ih, List.foldl_cons]
    intro q hq
    rw [State.emit_xe]
    exact h q (List.mem_cons_of_mem _ hq)

theorem State.mayStart_iff (s : State) : s.mayStart = true ↔
    s.xe.running = none ∧ s.pu.adoption = none ∧ s.cbp.head = .waiting := by
  unfold State.mayStart
  rw [Bool.and_eq_true, Bool.and_eq_true, Option.isNone_iff_eq_none, Option.isNone_iff_eq_none, beq_iff_eq, and_assoc]

theorem exec_exchangeStart (hrun : s.xe.running = none) (hadopt : s.pu.adoption = none) (hhead : s.cbp.head = .waiting)
    (hlist : s.xe.list = l) : exec .exchangeStart s = .next (State.startFrom l s) :=
  congrArg Host.Outcome.next (by rw [exchangeStartStep, if_pos (s.mayStart_iff.2 ⟨hrun, hadopt, hhead⟩), hlist])

theorem State.foldl_emit_xe (f : State → ExchangeRequest → State) (hf : ∀ u r, (f u r).xe = u.xe) (l : List ExchangeRequest)
    (s : State) : (l.foldl f s).xe = s.xe := by
  induction l generalizing s with
  | nil => rfl
  | cons r rest ih => rw [List.foldl_cons, ih, hf]

theorem State.freeReadSlotNo_some {i : ReadSlotNo} (h : s.freeReadSlotNo = some i) : s.cbp.slots[i] = none :=
  Option.isNone_iff_eq_none.1 (List.find?_some (p := fun i : ReadSlotNo => (s.cbp.slots[i]).isNone) h)

theorem State.latchRead_slot {i j : ReadSlotNo} (h : i ≠ j) (a : Addr) (size : Size) :
    (s.latchRead i a size).cbp.slots[j] = s.cbp.slots[j] :=
  Vector.getElem_set_ne i.isLt j.isLt fun he => h (Fin.ext he)

/-- A direct read withdrawn is latched in no slot that held a read. -/
theorem State.withdrawDirect_slot {i : ReadSlotNo} (h : s.cbp.slots[i] = none → s.freeReadSlotNo ≠ some i) :
    s.withdrawDirect.cbp.slots[i] = s.cbp.slots[i] := by
  unfold State.withdrawDirect
  split
  · dsimp only
    split
    · next j hj =>
      have hne : j ≠ i := fun he => h (he ▸ State.freeReadSlotNo_some (s := s) hj) (he ▸ hj)
      exact State.latchRead_slot hne _ _
    · rfl
  all_goals rfl

end Start

/-- Settles O32. -/
theorem exchangeStarts : Obligations.ExchangeStarts := by
  unfold Obligations.ExchangeStarts
  intro s refusedValue refused
  refine ⟨fun hidle => congrArg Host.Outcome.next (if_neg fun h => hidle (s.mayStart_iff.1 h)), fun hrun hadopt hhead => ?_⟩
  have hexec := fun l => exec_exchangeStart (l := l) hrun hadopt hhead
  have hrefused : ∀ r l, ({ refused r with xe := { s.xe with list := l } } : State) = (refused r).setExchangeList l :=
    fun r l => by rw [State.setExchangeList, State.emit_xe]
  refine ⟨fun hlist => ?_, fun r hlist htorn => ?_, fun r rest hlist htorn => ?_, fun htorn => ?_, fun r rest hlist hidle => ?_⟩
  · rw [hexec _ hlist, State.startFrom, ← hlist]
  · rw [hexec _ hlist, State.startFrom_torn htorn, hrefused]
    rfl
  · have hnext : exec .exchangeStart ((refused r).setExchangeList rest) =
        .next (State.startFrom rest ((refused r).setExchangeList rest)) := by
      refine exec_exchangeStart ?_ ?_ ?_ rfl
      · rw [State.setExchangeList_xe, State.emit_xe]
        exact hrun
      · rw [State.setExchangeList_pu, State.emit_pu]
        exact hadopt
      · rw [State.setExchangeList_cbp, State.emit_cbp]
        exact hhead
    rw [hexec _ hlist, State.startFrom_torn htorn, hrefused, hnext, State.startFrom_setExchangeList]
    rfl
  · rw [hexec _ rfl, State.startFrom_all_torn htorn, State.setExchangeList,
      State.foldl_emit_xe _ (fun u r => State.emit_xe _ _ _ _ _ _)]
    rfl
  · have hnot : s.xe.conditions[r.plan] ≠ .torn := by rw [hidle]; decide
    have hstart := (hexec _ hlist).trans (congrArg Host.Outcome.next (State.startFrom_idle (rest := rest) hnot))
    rw [State.beginExchange] at hstart
    generalize hv : State.setRunning _ _ = v at hstart
    have hcbp : v.cbp = s.cbp := by rw [← hv]; rfl
    have hfree : v.withdrawReads.freeReadSlotNo = s.freeReadSlotNo :=
      v.withdrawReads_freeReadSlotNo.trans (State.freeReadSlotNo_congr fun i => by rw [hcbp])
    have hslot : ∀ i : ReadSlotNo, (s.cbp.slots[i] = none → s.freeReadSlotNo ≠ some i) →
        v.withdrawReads.withdrawDirect.cbp.slots[i] = (s.cbp.slots[i]).map ReadSlot.withdraw := fun i hi => by
      rw [State.withdrawDirect_slot, State.withdrawReads_slot, hcbp]
      rw [hfree, State.withdrawReads_slot, hcbp, Option.map_eq_none_iff]
      exact hi
    have hframe : v.withdrawReads.withdrawDirect = { v with cbp := v.withdrawReads.withdrawDirect.cbp } := by
      rw [State.withdrawDirect_eq]
      rfl
    have hheld : v.withdrawReads.cbp.held = s.cbp.held := (rfl : _ = v.cbp.held).trans (congrArg BusPort.held hcbp)
    refine ⟨_, hstart, ?_, fun i q hq hnot => ?_, fun i q got hq hgot => ?_, fun hno => ?_, fun a size got hread => ?_, ?_⟩
    · rw [hframe, ← hv]
      rfl
    · rw [hslot i fun h => absurd (h.symm.trans hq) (by simp), hq, Option.map_some, ReadSlot.withdraw_of_ne hnot]
    · rw [hslot i fun h => absurd (h.symm.trans hq) (by simp), hq, Option.map_some, ReadSlot.withdraw_issued hgot]
    · have hsame : v.withdrawReads.withdrawDirect = v.withdrawReads :=
        State.withdrawDirect_none fun a size got h => hno a size got (hheld.symm.trans h)
      refine ⟨?_, fun i hi => ?_⟩
      · rw [hsame, State.withdrawReads_cbp, hcbp]
      · rw [hsame, State.withdrawReads_slot, hcbp, hi]
        rfl
    · have hdirect := State.withdrawDirect_held (hheld.trans hread)
      rw [hfree] at hdirect
      refine ⟨?_, fun i hi => ?_, fun i hi hne => ?_, fun hnone => ?_⟩
      · rw [hdirect]
        cases s.freeReadSlotNo with
        | none => rw [← hcbp]; rfl
        | some i => rw [← hcbp]; rfl
      · rw [hi] at hdirect
        rw [hdirect]
        refine ⟨(Vector.getElem_set_self _).trans ?_, ?_⟩
        · have htag : v.latestTag = s.latestTag := by unfold State.latestTag; rw [hcbp]
          exact congrArg (fun b => some ({ addr := a, size := size, state := .latched, barrier := b } : ReadSlot)) htag
        · exact (rfl : _ = v.cbp.latchOrder ++ [i]).trans (by rw [hcbp])
      · rw [hslot i fun _ => hne, hi]
        rfl
      · rw [hnone] at hdirect
        rw [hdirect]
        exact (rfl : _ = v.cbp.latchOrder).trans (congrArg BusPort.latchOrder hcbp)
    · rw [hframe, ← hv]
      rfl

end Sys2Proof.Machine

/-! The arbiter (O31): what its rings give, and how long a requester can wait (R136, R137). -/

namespace Sys2Proof.Machine

/-! ### Rings read from a pointer on -/

section Rings
variable {α : Type} [DecidableEq α] {p q x : α} {ring before after first rest l : List α}

theorem rotateFrom_append (h : p ∉ before) : rotateFrom p (before ++ p :: after) = p :: after ++ before := by
  have hall : ∀ y ∈ before, decide (y ≠ p) = true := fun y hy => decide_eq_true fun he => h (he ▸ hy)
  have hstop : ¬ decide (p ≠ p) = true := by simp
  rw [rotateFrom, List.dropWhile_append_of_pos hall, List.takeWhile_append_of_pos hall,
    List.dropWhile_cons_of_neg (p := fun x => decide (x ≠ p)) hstop,
    List.takeWhile_cons_of_neg (p := fun x => decide (x ≠ p)) hstop, List.append_nil]

theorem rotateFrom_perm (p : α) (ring : List α) : (rotateFrom p ring).Perm ring :=
  List.perm_append_comm.trans (by rw [List.takeWhile_append_dropWhile])

theorem positionAfter_append (h : q ∉ before) : positionAfter q (before ++ q :: after) = (after ++ before).headD q := by
  rw [positionAfter, rotateFrom_append h, List.cons_append]
  cases after ++ before <;> rfl

/-- The ring as it splits at a position that the ring read from some pointer reaches. -/
theorem ring_eq_of_rotateFrom (h : rotateFrom p ring = first ++ q :: rest) :
    ∃ before after, ring = before ++ q :: after ∧ after ++ before = rest ++ first := by
  have hring := List.takeWhile_append_dropWhile (p := fun x => decide (x ≠ p)) (l := ring)
  rw [rotateFrom] at h
  generalize ring.dropWhile (fun x => decide (x ≠ p)) = d at h hring
  generalize ring.takeWhile (fun x => decide (x ≠ p)) = t at h hring
  obtain ⟨m, hfirst, ht⟩ | ⟨m, hd, hrest⟩ := List.append_eq_append_iff.1 h
  · exact ⟨m, rest ++ d, by rw [← hring, ht, List.append_assoc, List.cons_append], by rw [hfirst, List.append_assoc]⟩
  · cases m with
    | nil =>
      rw [List.append_nil] at hd
      exact ⟨[], rest ++ d, by rw [← hring, ← show q :: rest = t from hrest]; rfl, by rw [hd, List.append_nil]⟩
    | cons y m =>
      obtain ⟨rfl, hm⟩ := List.cons.inj hrest
      exact ⟨t ++ first, m, by rw [← hring, hd, List.append_assoc], (List.append_assoc m t first).symm.trans (by rw [hm]; rfl)⟩

/-- The ring read from the position after one granted ends with the one granted. -/
theorem rotateFrom_positionAfter (hnodup : ring.Nodup) (h : rotateFrom p ring = first ++ q :: rest) :
    rotateFrom (positionAfter q ring) ring = rest ++ first ++ [q] := by
  obtain ⟨before, after, rfl, hsplit⟩ := ring_eq_of_rotateFrom h
  have hbefore : q ∉ before := fun hq =>
    (List.disjoint_of_nodup_append hnodup) hq List.mem_cons_self
  rw [positionAfter_append hbefore, ← hsplit, List.append_assoc]
  cases after with
  | cons y after =>
    have hy : y ∉ before ++ [q] := fun hy => by
      rw [List.append_cons] at hnodup
      exact List.disjoint_of_nodup_append hnodup hy List.mem_cons_self
    rw [List.append_cons before q (y :: after), List.cons_append, List.headD_cons, rotateFrom_append hy]
  | nil =>
    cases before with
    | nil => exact rotateFrom_append (p := q) (before := []) List.not_mem_nil
    | cons y before => exact (rotateFrom_append (p := y) (before := []) List.not_mem_nil).trans (List.append_nil _)

theorem rotateFrom_of_split (hnodup : ring.Nodup) (h : ring = before ++ p :: after) :
    rotateFrom p ring = p :: after ++ before := by
  subst h
  exact rotateFrom_append fun hp => List.disjoint_of_nodup_append hnodup hp List.mem_cons_self

theorem positionAfter_of_split (hnodup : ring.Nodup) (h : ring = before ++ p :: after) :
    positionAfter p ring = (after ++ before).headD p := by
  subst h
  exact positionAfter_append fun hp => List.disjoint_of_nodup_append hnodup hp List.mem_cons_self

/-! ### How many positions come ahead of one -/

/-- The positions ahead of `x` that can have a request. -/
def aheadOf (can : α → Bool) (x : α) (l : List α) : Nat := (l.takeWhile fun y => decide (y ≠ x)).countP can

theorem aheadOf_append {can : α → Bool} (h : x ∉ first) : aheadOf can x (first ++ x :: rest) = first.countP can := by
  have hall : ∀ y ∈ first, decide (y ≠ x) = true := fun y hy => decide_eq_true fun he => h (he ▸ hy)
  rw [aheadOf, List.takeWhile_append_of_pos hall, List.takeWhile_cons_of_neg (p := fun y => decide (y ≠ x)) (by simp), List.append_nil]

theorem aheadOf_lt {can : α → Bool} (hx : x ∈ l) (hcan : can x = true) : aheadOf can x l < l.countP can := by
  obtain ⟨first, rest, rfl, hfirst⟩ := List.eq_append_cons_of_mem hx
  rw [aheadOf_append hfirst, List.countP_append, List.countP_cons_of_pos hcan]
  omega

/-- A grant to another position brings one that has a request nearer. -/
theorem aheadOf_positionAfter {can request : α → Bool} (hnodup : ring.Nodup) (hx : x ∈ ring) (hreq : request x = true)
    (hq : (rotateFrom p ring).find? request = some q) (hcan : can q = true) (hne : x ≠ q) :
    aheadOf can x (rotateFrom (positionAfter q ring) ring) < aheadOf can x (rotateFrom p ring) := by
  obtain ⟨-, first, rest, hl, hfirst⟩ := List.find?_eq_some_iff_append.1 hq
  have hxfirst : x ∉ first := fun h => by
    have := hfirst x h
    rw [hreq] at this
    exact Bool.noConfusion this
  have hxrest : x ∈ rest := by
    have hmem := (rotateFrom_perm p ring).mem_iff.2 hx
    rw [hl, List.mem_append, List.mem_cons] at hmem
    exact (hmem.resolve_left hxfirst).resolve_left hne
  obtain ⟨pre, post, rfl, hpre⟩ := List.eq_append_cons_of_mem hxrest
  have hnow : x ∉ first ++ q :: pre := by
    rw [List.mem_append, List.mem_cons]
    exact not_or.2 ⟨hxfirst, not_or.2 ⟨hne, hpre⟩⟩
  rw [rotateFrom_positionAfter hnodup hl, hl, List.append_assoc, List.append_assoc, List.cons_append, aheadOf_append hpre,
    ← List.cons_append, ← List.append_assoc, aheadOf_append hnow, List.countP_append, List.countP_cons_of_pos hcan]
  omega

end Rings

/-! ### The arbiter (R136) -/

section Arbiter
variable {g : Groups} {s : State} {q r : Requester}

theorem upperRing_nodup (g : Groups) : (upperRing g).Nodup := by
  obtain ⟨a, b, c, d⟩ := g
  revert a b c d
  decide

theorem lowerRing_nodup (g : Groups) : (lowerRing g).Nodup := List.Nodup.filter _ (by decide)

theorem mem_lowerRing_iff : q ∈ lowerRing g ↔ g.isHigh q = false := by
  rw [lowerRing, List.mem_filter, Bool.not_eq_true']
  exact ⟨And.right, fun h => ⟨by cases q <;> decide, h⟩⟩

theorem requester_mem_upperRing_iff : .requester q ∈ upperRing g ↔ g.isHigh q = true := by
  rw [upperRing, List.mem_append, List.mem_map]
  constructor
  · rintro (⟨r, hr, he⟩ | h)
    · rw [← UpperPosition.requester.inj he]
      exact (List.mem_filter.1 hr).2
    · cases List.mem_singleton.1 h
  · exact fun h => .inl ⟨q, List.mem_filter.2 ⟨by cases q <;> decide, h⟩, rfl⟩

theorem low_mem_upperRing (g : Groups) : .low ∈ upperRing g := List.mem_append_right _ (List.mem_singleton.2 rfl)

theorem headD_congr {α : Type} {l : List α} {a b : α} (h : l ≠ []) : l.headD a = l.headD b := by
  cases l with
  | nil => exact absurd rfl h
  | cons x l => rfl

theorem low_mem_others {before after : List UpperPosition} (h : upperRing g = before ++ .requester q :: after) :
    .low ∈ after ++ before := by
  have hlow := low_mem_upperRing g
  rw [h, List.mem_append, List.mem_cons] at hlow
  obtain hlow | hlow | hlow := hlow
  · exact List.mem_append_right _ hlow
  · cases hlow
  · exact List.mem_append_left _ hlow

theorem positionAfter_low (g : Groups) : positionAfter .low (upperRing g) = (upperRing g).headD .low := by
  rw [positionAfter_of_split (upperRing_nodup g) rfl, upperRing]
  cases (requesterOrder.filter g.isHigh).map UpperPosition.requester <;> rfl

theorem State.movePointers_high (h : s.pu.params.groups.isHigh q = true) : (s.movePointers q).tmp =
    { s.tmp with upper := positionAfter (.requester q) (upperRing s.pu.params.groups) } := by
  rw [State.movePointers, if_pos h]

theorem State.movePointers_low (h : s.pu.params.groups.isHigh q = false) : (s.movePointers q).tmp =
    { upper := positionAfter .low (upperRing s.pu.params.groups)
      lower := positionAfter q (lowerRing s.pu.params.groups) } := by
  rw [State.movePointers, if_neg (by rw [h]; exact Bool.false_ne_true)]

/-- What a grant is: a high requester from the upper ring, or at the low position one of the lower ring. -/
theorem State.nextGrant_cases (h : s.nextGrant = some q) :
    (s.pu.params.groups.isHigh q = true ∧
      (rotateFrom s.tmp.upper (upperRing s.pu.params.groups)).find? s.upperRequest = some (.requester q)) ∨
    (s.pu.params.groups.isHigh q = false ∧ s.lowGrant = some q ∧
      (rotateFrom s.tmp.upper (upperRing s.pu.params.groups)).find? s.upperRequest = some .low) := by
  unfold State.nextGrant at h
  split at h
  · next r hr =>
    cases h
    exact .inl ⟨requester_mem_upperRing_iff.1 ((rotateFrom_perm _ _).mem_iff.1 (List.mem_of_find?_eq_some hr)), hr⟩
  · next hlow =>
    exact .inr ⟨mem_lowerRing_iff.1 ((rotateFrom_perm _ _).mem_iff.1 (List.mem_of_find?_eq_some h)), h, hlow⟩
  · cases h

theorem State.lowGrant_isSome (hr : (s.access r).isSome = true) (hlow : s.pu.params.groups.isHigh r = false) :
    s.lowGrant.isSome = true := by
  rw [State.lowGrant, List.find?_isSome]
  exact ⟨r, (rotateFrom_perm _ _).mem_iff.2 (mem_lowerRing_iff.2 hlow), hr⟩

/-- The position at which a requester stands in the upper ring. -/
def Groups.positionOf (g : Groups) (r : Requester) : UpperPosition := if g.isHigh r then .requester r else .low

theorem Groups.positionOf_mem (g : Groups) (r : Requester) : g.positionOf r ∈ upperRing g := by
  unfold Groups.positionOf
  split
  · next h => exact requester_mem_upperRing_iff.2 h
  · exact low_mem_upperRing g

theorem State.upperRequest_positionOf (hr : (s.access r).isSome = true) :
    s.upperRequest (s.pu.params.groups.positionOf r) = true := by
  unfold Groups.positionOf
  split
  · exact hr
  · next h => exact State.lowGrant_isSome hr (Bool.eq_false_iff.2 h)

/-- While some requester presents an access, one is granted. -/
theorem State.nextGrant_exists (hr : (s.access r).isSome = true) : ∃ q, s.nextGrant = some q := by
  have hfind : ((rotateFrom s.tmp.upper (upperRing s.pu.params.groups)).find? s.upperRequest).isSome = true := by
    rw [List.find?_isSome]
    exact ⟨_, (rotateFrom_perm _ _).mem_iff.2 (Groups.positionOf_mem _ r), State.upperRequest_positionOf hr⟩
  obtain ⟨x, hx⟩ := Option.isSome_iff_exists.1 hfind
  rw [State.nextGrant, hx]
  cases x with
  | requester q => exact ⟨q, rfl⟩
  | low => exact Option.isSome_iff_exists.1 (List.find?_some (p := s.upperRequest) hx)

/-- The first of a ring that has a request is found. -/
theorem find?_first {α : Type} {f : α → Bool} {first rest : List α} {x : α} (hfirst : ∀ y ∈ first, f y = false)
    (hx : f x = true) : (first ++ x :: rest).find? f = some x := by
  rw [List.find?_append, List.find?_eq_none.2 fun y hy => by rw [hfirst y hy]; exact Bool.false_ne_true,
    List.find?_cons_of_pos hx]
  rfl

theorem State.nextGrant_upper (h : (rotateFrom s.tmp.upper (upperRing s.pu.params.groups)).find? s.upperRequest =
    some (.requester q)) : s.nextGrant = some q := by
  rw [State.nextGrant, h]

theorem State.nextGrant_low (h : (rotateFrom s.tmp.upper (upperRing s.pu.params.groups)).find? s.upperRequest =
    some .low) : s.nextGrant = s.lowGrant := by
  rw [State.nextGrant, h]

theorem State.lowGrant_eq_none (h : ∀ r ∈ lowerRing s.pu.params.groups, ¬ (s.access r).isSome = true) :
    s.lowGrant = none :=
  List.find?_eq_none.2 fun r hr => h r ((rotateFrom_perm _ _).mem_iff.1 hr)

theorem State.nextGrant_eq_none (h : ∀ r, ¬ (s.access r).isSome = true) : s.nextGrant = none := by
  have hnone : (rotateFrom s.tmp.upper (upperRing s.pu.params.groups)).find? s.upperRequest = none := by
    refine List.find?_eq_none.2 fun x _ => ?_
    cases x with
    | requester r => exact h r
    | low =>
      show ¬ s.lowGrant.isSome = true
      rw [State.lowGrant_eq_none fun r _ => h r]
      exact Bool.false_ne_true
  rw [State.nextGrant, hnone]

/-! ### How long a requester can wait (R137) -/

/-- The positions of the upper ring that can have a request: the low one only where some requester is low. -/
def Groups.canRequest (g : Groups) : UpperPosition → Bool
  | .requester _ => true
  | .low => !(lowerRing g).isEmpty

/-- The grants at most that go to others ahead of a requester: at the upper ring those ahead of its position, and for a low
requester a round of the upper ring for each low one ahead of it. -/
def State.waitOf (s : State) (g : Groups) (r : Requester) : Nat :=
  aheadOf g.canRequest (g.positionOf r) (rotateFrom s.tmp.upper (upperRing g)) +
    if g.isHigh r then 0
    else aheadOf (fun _ => true) r (rotateFrom s.tmp.lower (lowerRing g)) * (upperRing g).countP g.canRequest

theorem Groups.canRequest_low (h : g.isHigh q = false) : g.canRequest .low = true := by
  have hmem := mem_lowerRing_iff.2 h
  show (!(lowerRing g).isEmpty) = true
  rw [Bool.not_eq_true', Bool.eq_false_iff, ne_eq, List.isEmpty_iff]
  exact List.ne_nil_of_mem hmem

theorem Groups.canRequest_positionOf (g : Groups) (r : Requester) : g.canRequest (g.positionOf r) = true := by
  unfold Groups.positionOf
  split
  · rfl
  · next h => exact Groups.canRequest_low (Bool.eq_false_iff.2 h)

theorem countP_rotateFrom {α : Type} [DecidableEq α] (can : α → Bool) (p : α) (ring : List α) :
    (rotateFrom p ring).countP can = ring.countP can := (rotateFrom_perm p ring).countP_eq can

/-- A grant to another requester brings one that presents an access nearer. -/
theorem State.waitOf_lt {t : State} (hg : s.pu.params.groups = g) (hr : (s.access r).isSome = true)
    (hgrant : s.nextGrant = some q) (hne : q ≠ r) (ht : t.tmp = (s.movePointers q).tmp) : t.waitOf g r < s.waitOf g r := by
  have hposition : s.upperRequest (g.positionOf r) = true := hg ▸ State.upperRequest_positionOf hr
  have hmem := g.positionOf_mem r
  have hnodup := upperRing_nodup g
  obtain ⟨hq, hfind⟩ | ⟨hq, hlowGrant, hfind⟩ := State.nextGrant_cases hgrant
  · rw [State.movePointers_high hq] at ht
    rw [hg] at hfind ht hq
    have hpne : g.positionOf r ≠ .requester q := by
      unfold Groups.positionOf
      split
      · exact fun he => hne (UpperPosition.requester.inj he).symm
      · exact nofun
    have hup := aheadOf_positionAfter hnodup hmem hposition hfind (can := g.canRequest) rfl hpne
    unfold State.waitOf
    rw [ht]
    dsimp only
    omega
  · rw [State.movePointers_low hq] at ht
    rw [hg] at hfind ht hq
    have hcan := Groups.canRequest_low hq
    unfold State.waitOf
    rw [ht]
    dsimp only
    by_cases hhigh : g.isHigh r = true
    · have hpne : g.positionOf r ≠ .low := by
        rw [Groups.positionOf, if_pos hhigh]
        exact nofun
      have hup := aheadOf_positionAfter hnodup hmem hposition hfind hcan hpne
      rw [if_pos hhigh]
      omega
    · have hlow : g.isHigh r = false := Bool.eq_false_iff.2 hhigh
      rw [State.lowGrant, hg] at hlowGrant
      have hdown := aheadOf_positionAfter (lowerRing_nodup g) (mem_lowerRing_iff.2 hlow) hr hlowGrant
        (can := fun _ => true) rfl hne.symm
      have hround : aheadOf g.canRequest (g.positionOf r) (rotateFrom (positionAfter .low (upperRing g)) (upperRing g)) <
          (upperRing g).countP g.canRequest := by
        rw [← countP_rotateFrom g.canRequest (positionAfter .low (upperRing g))]
        exact aheadOf_lt ((rotateFrom_perm _ _).mem_iff.2 hmem) (g.canRequest_positionOf r)
      rw [if_neg hhigh, if_neg hhigh]
      have hmul := Nat.mul_le_mul_right ((upperRing g).countP g.canRequest) (Nat.succ_le_of_lt hdown)
      rw [Nat.succ_mul] at hmul
      omega

theorem State.waitOf_bound (s : State) (g : Groups) (r : Requester) : s.waitOf g r <
    (upperRing g).countP g.canRequest * if g.isHigh r then 1 else (lowerRing g).length := by
  have hup : aheadOf g.canRequest (g.positionOf r) (rotateFrom s.tmp.upper (upperRing g)) <
      (upperRing g).countP g.canRequest := by
    rw [← countP_rotateFrom g.canRequest s.tmp.upper]
    exact aheadOf_lt ((rotateFrom_perm _ _).mem_iff.2 (g.positionOf_mem r)) (g.canRequest_positionOf r)
  unfold State.waitOf
  by_cases hhigh : g.isHigh r = true
  · rw [if_pos hhigh, if_pos hhigh]
    omega
  · have hdown : aheadOf (fun _ => true) r (rotateFrom s.tmp.lower (lowerRing g)) < (lowerRing g).length := by
      rw [← congrFun (List.countP_true (α := Requester)) (lowerRing g), ← countP_rotateFrom (fun _ => true) s.tmp.lower]
      exact aheadOf_lt ((rotateFrom_perm _ _).mem_iff.2 (mem_lowerRing_iff.2 (Bool.eq_false_iff.2 hhigh))) rfl
    rw [if_neg hhigh, if_neg hhigh]
    have hmul := Nat.mul_le_mul_right ((upperRing g).countP g.canRequest) (Nat.succ_le_of_lt hdown)
    rw [Nat.succ_mul, Nat.mul_comm (lowerRing g).length] at hmul
    omega

/-- A round of the rings is at most six grants, and four with all requesters in one group. -/
theorem ring_rounds (g : Groups) (r : Requester) :
    ((upperRing g).countP g.canRequest * if g.isHigh r then 1 else (lowerRing g).length) ≤ 6 ∧
      ((∀ q q', g.isHigh q = g.isHigh q') →
        ((upperRing g).countP g.canRequest * if g.isHigh r then 1 else (lowerRing g).length) ≤ 4) := by
  obtain ⟨a, b, c, d⟩ := g
  refine ⟨by cases r <;> revert a b c d <;> decide, fun h => ?_⟩
  obtain rfl : a = b := h .ctl .tbl
  obtain rfl : a = c := h .ctl .xch
  obtain rfl : a = d := h .ctl .evt
  clear h
  cases r <;> revert a <;> decide

/-- What keeps coming nearer until it is there comes in as many steps as it was away. -/
theorem exists_lt_of_descent {P : Nat → Prop} (wait : Nat → Nat) (h : ∀ i, P i ∨ wait (i + 1) < wait i) {n : Nat}
    (hn : wait 0 < n) : ∃ i < n, P i := by
  induction n generalizing P wait with
  | zero => exact absurd hn (Nat.not_lt_zero _)
  | succ n ih =>
    obtain h0 | h0 := h 0
    · exact ⟨0, Nat.succ_pos n, h0⟩
    · obtain ⟨i, hi, hP⟩ := ih (P := fun i => P (i + 1)) (fun i => wait (i + 1)) (fun i => h (i + 1)) (by omega)
      exact ⟨i + 1, Nat.succ_lt_succ hi, hP⟩

end Arbiter

/-- Settles O31: each grant to another requester brings the one that waits nearer. -/
theorem requesterServedWithinSixGrants : Obligations.RequesterServedWithinSixGrants := by
  unfold Obligations.RequesterServedWithinSixGrants
  refine ⟨fun s => ?_, fun r g run hrun hmoves => ?_⟩
  · intro g presents order lower upper
    have hupper : upper = upperRing g := rfl
    have hlower : lower = lowerRing g := rfl
    have hno : ∀ r, ¬ presents r → s.upperRequest (.requester r) = false := fun r h => Bool.eq_false_iff.2 h
    rw [hupper, hlower]
    refine ⟨fun before after first q rest hring hfrom hfirst hlow hq => ?_,
      fun before after first rest lowBefore lowAfter lowFirst q lowRest hring hfrom hfirst hlowRing hlowFrom hlowFirst hq => ?_,
      State.nextGrant_eq_none, fun q before after hring => ?_, fun q before after hring => ?_⟩
    · refine State.nextGrant_upper ?_
      rw [rotateFrom_of_split (upperRing_nodup g) hring, hfrom]
      refine find?_first (fun x hx => ?_) hq
      cases x with
      | requester r => exact hno r (hfirst r hx)
      | low =>
        show s.lowGrant.isSome = false
        rw [State.lowGrant_eq_none (hlow hx)]
        rfl
    · have hgrant : s.lowGrant = some q := by
        rw [State.lowGrant, rotateFrom_of_split (lowerRing_nodup g) hlowRing, hlowFrom]
        exact find?_first (fun r hr => Bool.eq_false_iff.2 (hlowFirst r hr)) hq
      rw [← hgrant]
      refine State.nextGrant_low ?_
      rw [rotateFrom_of_split (upperRing_nodup g) hring, hfrom]
      refine find?_first (fun x hx => ?_) (by rw [State.upperRequest, hgrant]; rfl)
      cases x with
      | requester r => exact hno r (hfirst r hx)
      | low =>
        have hnodup := (rotateFrom_perm s.tmp.upper (upperRing g)).nodup_iff.2 (upperRing_nodup g)
        rw [rotateFrom_of_split (upperRing_nodup g) hring, hfrom] at hnodup
        exact absurd List.mem_cons_self (List.disjoint_of_nodup_append hnodup hx)
    · have hhigh : g.isHigh q = true :=
        requester_mem_upperRing_iff.1 (by rw [hring]; exact List.mem_append_right _ List.mem_cons_self)
      rw [State.movePointers_high hhigh, positionAfter_of_split (upperRing_nodup g) hring,
        headD_congr (List.ne_nil_of_mem (low_mem_others hring))]
    · have hlow : g.isHigh q = false :=
        mem_lowerRing_iff.1 (by rw [hring]; exact List.mem_append_right _ List.mem_cons_self)
      rw [State.movePointers_low hlow, positionAfter_of_split (lowerRing_nodup g) hring, positionAfter_low]
  · have hdescent : ∀ i, (run i).nextGrant = some r ∨ (run (i + 1)).waitOf g r < (run i).waitOf g r := fun i => by
      obtain ⟨hg, hr⟩ := hrun i
      obtain ⟨q, hq⟩ := State.nextGrant_exists hr
      by_cases hqr : q = r
      · exact .inl (hqr ▸ hq)
      · exact .inr (State.waitOf_lt hg hr hq hqr (hmoves i q hq))
    have hbound := (run 0).waitOf_bound g r
    obtain ⟨hsix, hfour⟩ := ring_rounds g r
    exact ⟨exists_lt_of_descent (fun i => (run i).waitOf g r) hdescent (hbound.trans_le hsix),
      fun hgroup => exists_lt_of_descent (fun i => (run i).waitOf g r) hdescent (hbound.trans_le (hfour hgroup))⟩

end Sys2Proof.Machine

/-! The start and the end of an adoption (O37). -/

namespace Sys2Proof.Machine

section AdoptionEnd
variable {s t : State} {a : Adoption}

theorem State.postHeld_head_lock (s : State) : s.postHeld.cbp.head = s.cbp.head ∧ s.postHeld.cbp.lock = s.cbp.lock := by
  obtain ⟨-, he⟩ | ⟨a, size, data, -, ⟨-, he⟩ | ⟨-, he⟩⟩ := s.postHeld_spec <;> rw [he] <;> exact ⟨rfl, rfl⟩

theorem State.retireHead_head_lock (s : State) : s.retireHead.cbp.head = .waiting ∧ s.retireHead.cbp.lock = s.cbp.lock :=
  s.popHead.postHeld_head_lock

/-- The state at the end of an adoption on which the arbiter's occasion runs (R151). -/
def State.adoptionDone (s : State) (a : Adoption) : State :=
  { s with
    ew := (s.emit .adoptionDone 0 0#16 (BitVec.ofNat 32 a.adopted) (BitVec.ofNat 32 a.fixed)).ew
    cbp := { s.cbp with lock := lockAfterAdoption s.pu.lockout }
    re := { s.re with tickTimer := true, occasionDue := true }
    pu := { s.pu with adoption := none } }

theorem State.endAdoption_eq (s : State) (a : Adoption) : s.endAdoption a =
    if (s.adoptionDone a).occasion.cbp.head = .restarting then (s.adoptionDone a).occasion.retireHead
    else (s.adoptionDone a).occasion := by
  rw [State.endAdoption, State.emit_of (s := s) (t := s) rfl]
  rfl

/-- What the end of an adoption leaves, whether or not a CMD_RESTART ends with it. -/
structure State.adoptionEnds (s t : State) (a : Adoption) : Prop where
  pu : t.pu = { s.pu with adoption := none }
  lock : t.cbp.lock = if s.pu.lockout then .held else .opened
  tickTimer : t.re.tickTimer = true
  occasionDue : t.re.occasionDue = false
  first : s.raisesFirst t .adoptionDone 0 0#16 (BitVec.ofNat 32 a.adopted) (BitVec.ofNat 32 a.fixed)
  raises : s.onlyRaises t
  mem : t.mem = s.mem
  tmp : t.tmp = s.tmp
  xe : t.xe = s.xe
  lm : t.lm = s.lm
  masks : t.masks = s.masks
  los : t.los = s.los
  head : s.cbp.head ≠ .restarting → t.cbp.head = s.cbp.head ∧ t.cbp.queue = s.cbp.queue
  restarted : s.cbp.head = .restarting → t.cbp.head = .waiting

theorem State.endAdoption_adoptionEnds (s : State) (a : Adoption) : s.adoptionEnds (s.endAdoption a) a := by
  rw [s.endAdoption_eq a]
  have hreq := (s.adoptionDone a).occasion_requested
  have hdue : (s.adoptionDone a).occasion.re.occasionDue = false := rfl
  have hdone : (s.adoptionDone a).onlyRaises (s.adoptionDone a).occasion := hreq.raised.toonlyRaises
  have htimer : (s.adoptionDone a).occasion.re.tickTimer = true := by rw [hreq.re]; rfl
  have hout := hreq.outside
  generalize (s.adoptionDone a).occasion = u at hreq hdue hdone htimer hout
  have hfirst : s.raisesFirst u .adoptionDone 0 0#16 (BitVec.ofNat 32 a.adopted) (BitVec.ofNat 32 a.fixed) :=
    State.raisesFirst_of_emit (u := s.adoptionDone a) rfl hdone
  have hraises : s.onlyRaises u := (State.onlyRaises_of_emit (u := s.adoptionDone a) rfl).trans hdone
  have hhead : u.cbp.head = s.cbp.head := by rw [hout.cbp]; rfl
  have hlock : u.cbp.lock = if s.pu.lockout then .held else .opened := by rw [hout.cbp]; rfl
  split
  · next hrestarting =>
    obtain ⟨hwaiting, hkept⟩ := u.retireHead_head_lock
    exact {
      pu := u.retireHead_pu.trans hout.pu
      lock := hkept.trans hlock
      tickTimer := by rw [State.retireHead_re]; exact htimer
      occasionDue := by rw [State.retireHead_re]; exact hdue
      first := by unfold State.raisesFirst; rw [State.retireHead_ew]; exact hfirst
      raises := hraises.trans (State.onlyRaises_of_ew u.retireHead_ew)
      mem := u.retireHead_mem.trans hout.mem
      tmp := u.retireHead_tmp.trans hout.tmp
      xe := u.retireHead_xe.trans hout.xe
      lm := u.retireHead_lm.trans hout.lm
      masks := u.retireHead_masks.trans hout.masks
      los := u.retireHead_los.trans hout.los
      head := fun h => absurd (hhead.symm.trans hrestarting) h
      restarted := fun _ => hwaiting }
  · next hnot =>
    exact {
      pu := hout.pu, lock := hlock, tickTimer := htimer, occasionDue := hdue, first := hfirst, raises := hraises
      mem := hout.mem, tmp := hout.tmp, xe := hout.xe, lm := hout.lm, masks := hout.masks, los := hout.los
      head := fun _ => ⟨hhead, by rw [hout.cbp]; rfl⟩
      restarted := fun h => absurd (hhead.trans h) hnot }

theorem exec_arbiterOccasion (hdue : s.re.occasionDue = true) (hidle : s.pu.adoption = none) :
    exec .arbiterOccasion s = .next s.occasion := congrArg Host.Outcome.next (if_pos ⟨hdue, hidle⟩)

theorem State.afterHeader_last (s : State) (a : Adoption) : s.afterHeader a 7 = s.endAdoption a := rfl

end AdoptionEnd

/-- Settles O37. -/
theorem adoptionStartsAndEnds : Obligations.AdoptionStartsAndEnds := by
  unfold Obligations.AdoptionStartsAndEnds
  refine ⟨fun s a ha hstage => ⟨fun hempty => congrArg Host.Outcome.next ?_, fun hlisted => congrArg Host.Outcome.next ?_⟩, ?_⟩
  · rw [adoptionStartStep, ha]
    exact if_pos ⟨hstage, hempty⟩
  · rw [adoptionStartStep, ha]
    exact if_neg fun h => hlisted h.2
  intro s a hwf hgrant ha header done ended ends
  have hends : ∀ mem conditions, (∃ g : State, g = { s with
      mem := mem, tmp := (s.movePointers .xch).tmp, xe := { s.xe with conditions := conditions } } ∧
      adoptionAccessGrantStep s = g.endAdoption a) → ends mem conditions := by
    rintro mem conditions ⟨g, hg, hstep⟩
    have hdone : done = { s with ew := done.ew } := State.emit_of (s := s) (t := s) rfl _ _ _ _ _
    have hended : ended mem conditions = g.adoptionDone a := by
      change ({ done with
        mem := mem, tmp := (s.movePointers .xch).tmp, xe := { s.xe with conditions := conditions }
        cbp := { s.cbp with lock := lockAfterAdoption s.pu.lockout }
        re := { s.re with tickTimer := true, occasionDue := true }, pu := { s.pu with adoption := none } } : State) = _
      rw [State.adoptionDone, State.emit_of (s := s) (t := g) (by rw [hg]), hg, hdone]
    have heq := g.endAdoption_eq a
    have hmany := g.endAdoption_adoptionEnds a
    have hexec : exec .arbiterOccasion (ended mem conditions) = .next (g.adoptionDone a).occasion := by
      rw [hended]
      exact exec_arbiterOccasion rfl rfl
    rw [heq] at hmany hstep
    refine ⟨_, _, hexec, congrArg Host.Outcome.next hstep, fun h => if_neg h, fun h => if_pos h, ?_⟩
    generalize (if (g.adoptionDone a).occasion.cbp.head = .restarting then (g.adoptionDone a).occasion.retireHead
      else (g.adoptionDone a).occasion) = t at hmany ⊢
    rw [hg] at hmany
    exact ⟨hmany.pu, hmany.lock, hmany.tickTimer, hmany.occasionDue, hmany.first,
      ⟨hmany.raises.writer, hmany.raises.queue, hmany.raises.dropped⟩, hmany.mem, hmany.tmp,
      hmany.xe, hmany.lm, hmany.masks, hmany.los, hmany.head, hmany.restarted⟩
  refine ⟨fun hstage hfield => ?_, fun hstage hfield => ?_, fun w hstage => ?_⟩
  · replace hfield : field (s.loadWord (planHeaderOffset 7)) 0 2 = _ := hfield
    have haccess : s.adoptionAccess a = some (s.wordRead (planHeaderOffset 7)) := by rw [State.adoptionAccess, hstage]
    refine hends _ _ ⟨_, rfl, ?_⟩
    rw [adoptionAccessGrantStep_read ha hgrant haccess, State.adoptionStep, hstage]
    dsimp only
    rw [State.adoptHeader, if_pos hfield, State.afterHeader_last]
    rfl
  · replace hfield : field (s.loadWord (planHeaderOffset 7)) 0 2 = _ := hfield
    have haccess : s.adoptionAccess a = some (s.wordRead (planHeaderOffset 7)) := by rw [State.adoptionAccess, hstage]
    refine hends _ _ ⟨_, rfl, ?_⟩
    rw [adoptionAccessGrantStep_read ha hgrant haccess, State.adoptionStep, hstage]
    dsimp only
    rw [State.adoptHeader, hfield, if_neg (by decide), if_pos rfl, State.afterHeader_last]
    rfl
  · have haccess : s.adoptionAccess a = some (s.wordWrite (planHeaderOffset 7) w) := by rw [State.adoptionAccess, hstage]
    obtain ⟨⟨v, he⟩, hword, hkeeps⟩ := adoptionAccessGrantStep_write ha hgrant hwf haccess
    refine ⟨_, hword, hkeeps, hends _ _ ⟨_, rfl, he.trans ?_⟩⟩
    rw [State.adoptionStep, hstage]
    rfl

end Sys2Proof.Machine

/-! The budget of a pass (O39). -/

namespace Sys2Proof.Machine

/-! ### Attenuations through a visit -/

section Attenuation
variable {s t : State}

/-- Every destination keeps its current attenuation. -/
def State.keepsAttn (s t : State) : Prop := ∀ d, (t.record d).curAttn = (s.record d).curAttn

theorem State.keepsAttn.trans {u : State} (h : s.keepsAttn t) (k : t.keepsAttn u) : s.keepsAttn u :=
  fun d => (k d).trans (h d)

theorem State.keepsAttn_of_records (h : t.dt.records = s.dt.records) : s.keepsAttn t :=
  fun d => by rw [State.record_congr h d]

theorem State.setRecord_keepsAttn {d : Dest} {r : DestRecord} (h : r.curAttn = (s.record d).curAttn) :
    s.keepsAttn (s.setRecord d r) := fun e => by
  by_cases he : e = d
  · rw [he, State.record_setRecord_same, h]
  · rw [State.record_setRecord_other s r he]

theorem Work.settleSlot_keepsAttn (w : Work) (n : SlotNo) : w.st.keepsAttn (w.settleSlot n).st := by
  unfold Work.settleSlot
  split
  · exact fun _ => rfl
  · next sl hsl =>
    unfold Work.freeSlot
    rw [show ({ w with st := w.st.releaseSet sl.serves false } : Work).st.re.slots[n] = some sl by
      dsimp only; rw [State.releaseSet_re]; exact hsl]
    exact (State.keepsAttn_of_records (congrArg DestTable.records (State.releaseSet_dt w.st sl.serves false))).trans
      (State.setRecord_keepsAttn rfl)

theorem Work.setPhase_keepsAttn (w : Work) (n : SlotNo) (phase : Phase) (goal : Attn) :
    w.st.keepsAttn (w.setPhase n phase goal).st := State.keepsAttn_of_records (w.setPhase_records n phase goal)

theorem Work.writeCurrent_keepsAttn {w : Work} {d : Dest} {attn : Attn} (h : (w.st.record d).curAttn = attn) (src : Source) :
    w.st.keepsAttn (w.writeCurrent d src attn).st := fun e => by
  rw [Work.writeCurrent_record]
  split
  · next he => rw [he, h]
  · rfl

theorem Work.evaluateGoal_keepsAttn (w : Work) (n : SlotNo) (d : Dest) : w.st.keepsAttn (w.evaluateGoal n d).st := by
  unfold Work.evaluateGoal
  dsimp only
  split
  · exact w.settleSlot_keepsAttn n
  · split <;> exact w.setPhase_keepsAttn n _ _

/-- Phase evaluation moves no light: it switches sources in the dark alone (R54, R72). -/
theorem Work.evaluate_keepsAttn (w : Work) (n : SlotNo) : w.st.keepsAttn (w.evaluate n).st := by
  unfold Work.evaluate
  split
  · exact fun _ => rfl
  · dsimp only
    split
    · exact w.evaluateGoal_keepsAttn n _
    · split
      · exact w.setPhase_keepsAttn n _ _
      · next hdark =>
        have hdark := not_not.1 hdark
        split
        · unfold Work.enterPortWait
          split
          · exact w.setPhase_keepsAttn n _ _
          · exact (Work.writeCurrent_keepsAttn hdark _).trans (Work.setPhase_keepsAttn _ n _ _)
        · exact (Work.writeCurrent_keepsAttn hdark _).trans (Work.evaluateGoal_keepsAttn _ n _)

theorem Work.finish_keepsAttn (w : Work) (tag : Option Nat) : w.st.keepsAttn (w.finish tag) := fun _ => rfl

theorem Work.rampStep_curAttn (w : Work) (n : SlotNo) (sl : RampSlot) (a : Attn) (d : Dest) :
    ((w.rampStep n sl a).st.record d).curAttn = if d = sl.dest then a else (w.st.record d).curAttn := by
  have hwrite : ((w.writeCurrent sl.dest (w.st.record sl.dest).curSrc a).st.record d).curAttn =
      if d = sl.dest then a else (w.st.record d).curAttn := by
    rw [Work.writeCurrent_record]
    split <;> rfl
  unfold Work.rampStep
  dsimp only
  split
  · rw [Work.evaluate_keepsAttn, hwrite]
  · exact hwrite

theorem findStep_cost {a g : Attn} {budget : Nat} {a' : Attn} : ∀ {delta : Nat}, findStep a g budget delta = some a' →
    cost a a' ≤ budget
  | 0, h => by cases h
  | delta + 1, h => by
    unfold findStep at h
    split at h
    · next hfits =>
      cases h
      exact hfits
    · exact findStep_cost h

/-- What one visit does to the attenuations and the budget: nothing, or one destination is moved and its cost paid. -/
theorem State.visit_attn (maxStep : Nat) (s : State) (left : Nat) (n : SlotNo) :
    (s.keepsAttn (State.visit maxStep (s, left) n).1 ∧ (State.visit maxStep (s, left) n).2 = left) ∨
    ∃ d a, (∀ e, ((State.visit maxStep (s, left) n).1.record e).curAttn = if e = d then a else (s.record e).curAttn) ∧
      (State.visit maxStep (s, left) n).2 + cost (s.record d).curAttn a = left := by
  unfold State.visit
  dsimp only
  split
  · exact .inl ⟨fun _ => rfl, rfl⟩
  · next sl hsl =>
    split
    · exact .inl ⟨(s.begin.evaluate_keepsAttn n).trans (Work.finish_keepsAttn _ none), rfl⟩
    · split
      · next a' ha =>
        refine .inr ⟨sl.dest, a', fun e => ?_, Nat.sub_add_cancel (findStep_cost ha)⟩
        rw [Work.finish_keepsAttn]
        exact s.begin.rampStep_curAttn n sl a' e
      · exact .inl ⟨fun _ => rfl, rfl⟩

end Attenuation

/-! ### The sum of the changes (R62, R67) -/

theorem cost_triangle (a b c : Attn) : cost a c ≤ cost a b + cost b c := by
  unfold cost
  omega

theorem cost_self (a : Attn) : cost a a = 0 := by
  unfold cost
  omega

/-- The weight moved on a way between two states. -/
def State.moved (s t : State) (w : Way) : Nat :=
  ((List.finRange 96).map fun n => cost (s.record (lineDest w n)).curAttn (t.record (lineDest w n)).curAttn).sum

theorem lineDest_injective {w : Way} {n m : GridSlot} (h : lineDest w n = lineDest w m) : n = m :=
  Fin.ext (Nat.add_left_cancel (congrArg Fin.val h))

/-- A sum in which at most one term grows grows by that term's growth at most. -/
theorem sum_map_le_of_one {α : Type} {l : List α} (hl : l.Nodup) {f g : α → Nat} (c : Nat) {p : α → Prop}
    (hp : ∀ x y, p x → p y → x = y) (hsame : ∀ x, ¬ p x → g x ≤ f x) (hmove : ∀ x, p x → g x ≤ f x + c) :
    (l.map g).sum ≤ (l.map f).sum + c := by
  by_cases hany : ∃ x ∈ l, p x
  · obtain ⟨x, hx, hpx⟩ := hany
    obtain ⟨l1, l2, rfl⟩ := List.append_of_mem hx
    have hrest : ∀ y ∈ l1 ++ l2, g y ≤ f y := fun y hy => hsame y fun hpy => by
      obtain rfl := hp x y hpx hpy
      exact (List.nodup_middle.1 hl |> List.nodup_cons.1).1 hy
    have h1 := List.sum_le_sum (f := g) (g := f) fun y hy => hrest y (List.mem_append_left l2 hy)
    have h2 := List.sum_le_sum (f := g) (g := f) fun y hy => hrest y (List.mem_append_right l1 hy)
    have h3 := hmove x hpx
    simp only [List.map_append, List.map_cons, List.sum_append, List.sum_cons]
    omega
  · exact (List.sum_le_sum fun y hy => hsame y fun hpy => hany ⟨y, hy, hpy⟩).trans (Nat.le_add_right _ _)

/-- A visit adds to the weight moved no more than it takes from the budget. -/
theorem State.visit_moved (s t : State) (w : Way) (maxStep left : Nat) (n : SlotNo) :
    s.moved (State.visit maxStep (t, left) n).1 w + (State.visit maxStep (t, left) n).2 ≤ s.moved t w + left := by
  obtain ⟨hkeeps, hleft⟩ | ⟨d, a, hrecord, hleft⟩ := State.visit_attn maxStep t left n
  · refine Nat.le_of_eq ?_
    rw [hleft]
    unfold State.moved
    simp only [hkeeps _]
  · have hmove : s.moved (State.visit maxStep (t, left) n).1 w ≤ s.moved t w + cost (t.record d).curAttn a := by
      refine sum_map_le_of_one (List.nodup_finRange 96) (p := fun n => lineDest w n = d) _
        (fun x y hx hy => lineDest_injective (hx.trans hy.symm)) (fun x hx => ?_) fun x hx => ?_
      · rw [hrecord, if_neg hx]
      · rw [hrecord, if_pos hx, hx]
        exact cost_triangle _ _ _
    omega

/-- The pass as a whole keeps to its budget. -/
theorem State.visits_moved (s : State) (w : Way) (maxStep : Nat) (slots : List SlotNo) (acc : State × Nat) :
    s.moved (slots.foldl (State.visit maxStep) acc).1 w + (slots.foldl (State.visit maxStep) acc).2 ≤
      s.moved acc.1 w + acc.2 := by
  induction slots generalizing acc with
  | nil => exact Nat.le_refl _
  | cons n slots ih => exact (ih _).trans (s.visit_moved acc.1 w maxStep acc.2 n)

theorem exec_wayPass {s : State} {w : Way} (h : 0 < s.re.passesDue[w]) :
    exec (.wayPass w) s = .next ((s.takePass w).passWay w) :=
  congrArg Host.Outcome.next (if_neg (Nat.ne_of_gt h))

/-- Settles O39: what a visit moves it takes from the budget, and what is left of it is not negative. -/
theorem passStaysWithinBudget : Obligations.PassStaysWithinBudget := by
  unfold Obligations.PassStaysWithinBudget
  intro w s hdue
  refine ⟨_, exec_wayPass hdue, ?_⟩
  have hpass := s.visits_moved w s.pu.params.maxStep ((s.takePass w).slotsOfWay w)
    (s.takePass w, passBudget s.pu.params.budgetFloor s.pu.params.slewFraction s.re.loads[w])
  have hstart : s.moved (s.takePass w) w = 0 := by
    refine List.sum_eq_zero fun x hx => ?_
    obtain ⟨n, -, rfl⟩ := List.mem_map.1 hx
    exact cost_self _
  rw [hstart, Nat.zero_add] at hpass
  exact (Nat.le_add_right _ _).trans hpass

end Sys2Proof.Machine

/-! The table-update list after a marking (R16, R18). -/

namespace Sys2Proof.Machine

/-! ### One destination marked, and several -/

section Marking
variable {tag : Option Nat} {l : List UpdateEntry} {ds : List Dest} {d e : Dest}

theorem markUpdate_dests (tag : Option Nat) (l : List UpdateEntry) (d : Dest) : (markUpdate tag l d).map UpdateEntry.dest =
    if d ∈ l.map UpdateEntry.dest then l.map UpdateEntry.dest else l.map UpdateEntry.dest ++ [d] := by
  induction l with
  | nil => rfl
  | cons x l ih =>
    unfold markUpdate
    split
    · next h => rw [if_pos (by rw [List.map_cons, h]; exact List.mem_cons_self)]; rfl
    · next h =>
      have hmem : d ∈ (x :: l).map UpdateEntry.dest ↔ d ∈ l.map UpdateEntry.dest := by
        rw [List.map_cons, List.mem_cons]
        exact or_iff_right (Ne.symm h)
      by_cases hd : d ∈ l.map UpdateEntry.dest
      · rw [List.map_cons, ih, if_pos hd, if_pos (hmem.2 hd)]
        rfl
      · rw [List.map_cons, ih, if_neg hd, if_neg fun hc => hd (hmem.1 hc)]
        rfl

theorem mem_foldl_markUpdate_iff : e ∈ (ds.foldl (markUpdate tag) l).map UpdateEntry.dest ↔
    e ∈ l.map UpdateEntry.dest ∨ e ∈ ds := by
  induction ds generalizing l with
  | nil => simp
  | cons d ds ih =>
    rw [List.foldl_cons, ih, markUpdate_dests, List.mem_cons]
    split
    · next hd =>
      constructor
      · exact Or.imp_right .inr
      · rintro (h | rfl | h)
        · exact .inl h
        · exact .inl hd
        · exact .inr h
    · rw [List.mem_append, List.mem_singleton, or_assoc]

theorem foldl_markUpdate_nodup (h : (l.map UpdateEntry.dest).Nodup) :
    ((ds.foldl (markUpdate tag) l).map UpdateEntry.dest).Nodup := by
  induction ds generalizing l with
  | nil => exact h
  | cons d ds ih =>
    refine ih ?_
    rw [markUpdate_dests]
    split
    · exact h
    · next hd => exact List.nodup_append.2 ⟨h, List.nodup_singleton d, fun a ha b hb => by
        rw [List.mem_singleton.1 hb]
        exact fun he => hd (he ▸ ha)⟩

/-- Marking a destination leaves it listed under the marking's tag. -/
theorem markUpdate_listed {x : Nat} (h : e = d ∨ ∃ u ∈ l, u.dest = e ∧ u.tag = some x) :
    ∃ u ∈ markUpdate (some x) l d, u.dest = e ∧ u.tag = some x := by
  induction l with
  | nil =>
    obtain rfl | ⟨u, hu, -⟩ := h
    · exact ⟨_, List.mem_cons_self, rfl, rfl⟩
    · cases hu
  | cons y l ih =>
    unfold markUpdate
    split
    · next hy =>
      obtain rfl | ⟨u, hu, hd, ht⟩ := h
      · exact ⟨_, List.mem_cons_self, hy, rfl⟩
      · obtain rfl | hu := List.mem_cons.1 hu
        · exact ⟨_, List.mem_cons_self, hd, rfl⟩
        · exact ⟨u, List.mem_cons_of_mem _ hu, hd, ht⟩
    · obtain rfl | ⟨u, hu, hd, ht⟩ := h
      · obtain ⟨u, hu, hd⟩ := ih (.inl rfl)
        exact ⟨u, List.mem_cons_of_mem _ hu, hd⟩
      · obtain rfl | hu := List.mem_cons.1 hu
        · exact ⟨_, List.mem_cons_self, hd, ht⟩
        · obtain ⟨u, hu, hd⟩ := ih (.inr ⟨u, hu, hd, ht⟩)
          exact ⟨u, List.mem_cons_of_mem _ hu, hd⟩

theorem foldl_markUpdate_listed {x : Nat} (h : e ∈ ds ∨ ∃ u ∈ l, u.dest = e ∧ u.tag = some x) :
    ∃ u ∈ ds.foldl (markUpdate (some x)) l, u.dest = e ∧ u.tag = some x := by
  induction ds generalizing l with
  | nil => exact h.resolve_left List.not_mem_nil
  | cons d ds ih =>
    refine ih ?_
    obtain h | h := h
    · obtain rfl | h := List.mem_cons.1 h
      · exact .inr (markUpdate_listed (.inl rfl))
      · exact .inl h
    · exact .inr (markUpdate_listed (.inr h))

theorem markedUpdates_nil (l : List UpdateEntry) (tag : Option Nat) : markedUpdates l tag [] = l := by
  simp [markedUpdates]

theorem markedUpdates_cons (h : d ∉ ds) : markedUpdates (markedUpdates l tag [d]) tag ds = markedUpdates l tag (d :: ds) := by
  have hdests : (markedUpdates l tag [d]).map UpdateEntry.dest =
      l.map UpdateEntry.dest ++ [d].filter fun x => !(l.map UpdateEntry.dest).contains x := by
    unfold markedUpdates
    rw [List.map_append, List.map_map, List.map_map]
    refine congrArg₂ _ (List.map_congr_left fun u _ => ?_) (List.map_id _)
    rw [Function.comp_apply]
    split <;> rfl
  have hnew : (ds.filter fun x => !((markedUpdates l tag [d]).map UpdateEntry.dest).contains x) =
      ds.filter fun x => !(l.map UpdateEntry.dest).contains x := by
    refine List.filter_congr fun x hx => ?_
    have hne : x ≠ d := fun he => h (he ▸ hx)
    rw [hdests]
    by_cases hd : (l.map UpdateEntry.dest).contains d = true
    · simp [hd, hne]
    · simp [hd, hne]
  rw [markedUpdates, hnew]
  conv_lhs => rw [markedUpdates]
  conv_rhs => rw [markedUpdates]
  rw [List.map_append, List.map_map, List.map_map, List.append_assoc]
  refine congrArg₂ _ (List.map_congr_left fun u _ => ?_) ?_
  · rw [Function.comp_apply]
    cases tag with
    | none => simp
    | some x =>
      by_cases hd : u.dest = d
      · simp [hd]
      · simp [hd]
  · rw [← List.singleton_append (l := ds), List.filter_append, List.map_append]
    refine congrArg (· ++ _) (List.map_congr_left fun x hx => ?_)
    have hxd : x = d := List.mem_singleton.1 (List.mem_of_mem_filter hx)
    simp [hxd, h]

/-- A marking of several destinations is what the statements say of it. -/
theorem foldl_markUpdate_eq (hds : ds.Nodup) (hl : tag = none ∨ (l.map UpdateEntry.dest).Nodup) :
    ds.foldl (markUpdate tag) l = markedUpdates l tag ds := by
  induction ds generalizing l with
  | nil => exact (markedUpdates_nil l tag).symm
  | cons d ds ih =>
    obtain ⟨hd, hds⟩ := List.nodup_cons.1 hds
    have hnext : tag = none ∨ ((markUpdate tag l d).map UpdateEntry.dest).Nodup :=
      hl.imp_right fun h => foldl_markUpdate_nodup (ds := [d]) h
    rw [List.foldl_cons, ih hds hnext, markUpdate_eq tag l d hl, markedUpdates_cons hd]

end Marking

/-! ### The marks of a request -/

theorem mem_allDests (d : Dest) : d ∈ allDests := List.mem_finRange d

theorem allDests_sorted : allDests.Pairwise (· < ·) := List.pairwise_lt_finRange 432

/-- Ascending marks are the destinations meant, in the table's order. -/
theorem marks_eq_filter {marks : List Dest} {hit : Dest → Bool} (hsorted : marks.Pairwise (· < ·))
    (hmem : ∀ e, e ∈ marks ↔ hit e = true) : marks = allDests.filter hit := by
  refine hsorted.eq_of_mem_iff (allDests_sorted.filter hit) fun e => ?_
  rw [hmem, List.mem_filter]
  exact (and_iff_right (mem_allDests e)).symm

section Finish
variable {s : State} {w : Work} {tag : Option Nat} {hit : Dest → Bool}

theorem Work.finish_marksUpdates (hupdates : w.st.dt.updates = s.dt.updates) (hsorted : w.marks.Pairwise (· < ·))
    (hmem : ∀ e, e ∈ w.marks ↔ hit e = true) : s.marksUpdates (w.finish tag) tag hit := fun hl => by
  have hmarks := marks_eq_filter hsorted hmem
  rw [← hmarks, ← foldl_markUpdate_eq (hsorted.imp fun h => (ne_of_lt h)) hl, ← hupdates]
  rfl

theorem Work.finish_listed {e : Dest} (he : e ∈ w.marks) : ∃ u ∈ (w.finish tag).dt.updates, u.dest = e :=
  List.mem_map.1 (mem_foldl_markUpdate_iff.2 (.inr he))

theorem Work.finish_listed_tag {e : Dest} {x : Nat} (he : e ∈ w.marks) :
    ∃ u ∈ (w.finish (some x)).dt.updates, u.dest = e ∧ u.tag = some x := foldl_markUpdate_listed (.inl he)

end Finish

end Sys2Proof.Machine

/-! Path writes and the closing of change sets (O13, O14, O15). -/

namespace Sys2Proof.Machine

/-! ### The bytes that a path write merges (R24) -/

theorem getLsbD_byteAt (w : Word) (i : Nat) {j : Nat} (hj : j < 8) : (byteAt w i).getLsbD j = w.getLsbD (8 * i + j) := by
  rw [byteAt, BitVec.getLsbD_ofNat, decide_eq_true hj, Bool.true_and, Nat.testBit_div_two_pow, Nat.add_comm]
  rfl

theorem byteAt_merge (h : PostedWrite) (base : Word) {i : Nat} (hi : i < 4) :
    byteAt (mergeBytes base h.position h.bytes) i =
      if h.position ≤ i ∧ i < h.position + h.size.bytes then byteAt h.data (i - h.position) else byteAt base i := by
  refine BitVec.eq_of_getLsbD_eq fun j hj => ?_
  have hdiv : (8 * i + j) / 8 = i := by omega
  have hmod : (8 * i + j) % 8 = j := by omega
  have hbit : 8 * i + j < 32 := by omega
  rw [getLsbD_byteAt _ _ hj]
  split
  · next hin => rw [h.getLsbD_merge_of_writesBit base hbit (by unfold PostedWrite.writesBit; rwa [hdiv]), hdiv, hmod]
  · next hout =>
    rw [h.getLsbD_merge_of_not_writesBit base hbit (by unfold PostedWrite.writesBit; rwa [hdiv]), getLsbD_byteAt _ _ hj]

/-! ### The open set (R26) -/

section OpenSet
variable {l : List OpenEntry} {d e : Dest} {w : Word}

theorem openWord_eq_none_iff : openWord l d = none ↔ d ∉ l.map OpenEntry.dest := by
  rw [openWord, Option.map_eq_none_iff, List.find?_eq_none]
  constructor
  · rintro h hd
    obtain ⟨x, hx, rfl⟩ := List.mem_map.1 hd
    exact h x hx (beq_self_eq_true _)
  · exact fun h x hx he => h (List.mem_map.2 ⟨x, hx, beq_iff_eq.1 he⟩)

theorem openWord_cons (x : OpenEntry) : openWord (x :: l) d = if x.dest = d then some x.word else openWord l d := by
  unfold openWord
  split
  · next h => rw [List.find?_cons_of_pos (p := fun e : OpenEntry => e.dest == d) (beq_iff_eq.2 h)]; rfl
  · next h => rw [List.find?_cons_of_neg (p := fun e : OpenEntry => e.dest == d) (by rwa [beq_iff_eq])]

theorem openWord_takeOpen_same : openWord (takeOpen l d w) d = some w := by
  induction l with
  | nil => rw [takeOpen, openWord_cons, if_pos rfl]
  | cons x l ih =>
    unfold takeOpen
    split
    · next h => rw [openWord_cons, if_pos h]
    · next h => rw [openWord_cons, if_neg h, ih]

theorem openWord_takeOpen_other (h : e ≠ d) : openWord (takeOpen l d w) e = openWord l e := by
  induction l with
  | nil => rw [takeOpen, openWord_cons, if_neg fun he => h he.symm]
  | cons x l ih =>
    unfold takeOpen
    split
    · next hx =>
      rw [openWord_cons, openWord_cons]
      dsimp only
      rw [if_neg (hx ▸ h.symm), if_neg (hx ▸ h.symm)]
    · rw [openWord_cons, openWord_cons, ih]

theorem takeOpen_dests : (takeOpen l d w).map OpenEntry.dest =
    l.map OpenEntry.dest ++ if (openWord l d).isSome then [] else [d] := by
  induction l with
  | nil => rfl
  | cons x l ih =>
    unfold takeOpen
    rw [openWord_cons]
    split
    · simp
    · rw [List.map_cons, ih]
      rfl

end OpenSet

/-! ### What a path write makes of the change sets (R26, R27, R28) -/

section PathWrite
variable {s : State} {h : PostedWrite} {d : Dest}

theorem exec_pathWrite (hh : s.headToTake = some h) (hz : h.zone = .linePath ∨ h.zone = .dropPath)
    (hd : destOfOffset (offsetOf h.addr) = some d) : exec .pathWrite s = .next (if s.closeWaits d h then s
      else (s.takePathWord d (s.pathMerged d h) (s.closes d h) h.tag).retireHead) := by
  refine congrArg Host.Outcome.next ?_
  rw [pathWriteStep, hh]
  dsimp only
  rw [if_pos hz, hd]

theorem State.takePathWord_overflow {merged : Word} {close : Bool} {tag : Nat} (hnone : openWord s.csa.openSet d = none)
    (hfull : 4 ≤ s.csa.openSet.length) : s.takePathWord d merged close tag =
      s.emptyOpen.emit .setRejected 1 (BitVec.ofNat 16 d.val) (setDetail 0#4 4 false false) merged :=
  if_pos ⟨by rw [hnone]; rfl, hfull⟩

theorem State.takePathWord_room {merged : Word} {close : Bool} {tag : Nat}
    (hroom : (openWord s.csa.openSet d).isSome = true ∨ s.csa.openSet.length < 4) : s.takePathWord d merged close tag =
      if close then
        s.emptyOpen.closeSet (takeOpen s.csa.openSet d (storedWord merged)) (pathLabel merged) (pathTrial merged) tag
      else { s with csa := { s.csa with openSet := takeOpen s.csa.openSet d (storedWord merged) } } := by
  refine if_neg ?_
  rintro ⟨hnone, hfull⟩
  obtain hsome | hlt := hroom
  · rw [Option.isNone_iff_eq_none.1 hnone] at hsome
    exact Bool.noConfusion hsome
  · exact absurd hfull (Nat.not_le_of_lt hlt)

theorem State.closeWaits_eq_false_of_room (hroom : s.csa.queue.length < 4) : s.closeWaits d h = false := by
  rw [State.closeWaits, decide_eq_false (show ¬ Config.setQueueCapacity ≤ s.csa.queue.length from Nat.not_le_of_lt hroom),
    Bool.and_false]

theorem State.retireHead_withCsa (s : State) (csa : SetAssembler) :
    ({ s with csa := csa } : State).retireHead = { s.retireHead with csa := csa } :=
  (State.retireHead_of (s := s) (t := { s with csa := csa }) rfl rfl).trans
    (congrArg (fun u : State => ({ u with csa := csa } : State)) s.retireHead_eq).symm

end PathWrite

/-- Settles O13. -/
theorem pathWriteJoinsOpenSet : Obligations.PathWriteJoinsOpenSet := by
  unfold Obligations.PathWriteJoinsOpenSet
  intro s h d hh hz hd hwait base
  have hexec := exec_pathWrite hh hz hd
  rw [if_neg (by rw [hwait]; exact Bool.false_ne_true)] at hexec
  refine ⟨fun i hi => byteAt_merge h base hi, fun hopen hroom => ?_, fun hnone hfull => ?_⟩
  · rw [State.takePathWord_room hroom, hopen, if_neg Bool.false_ne_true] at hexec
    refine ⟨_, hexec, ?_, ?_, fun e he => ?_, ?_⟩
    · rw [State.retireHead_csa]
      exact State.retireHead_withCsa s _
    · rw [State.retireHead_csa]
      exact openWord_takeOpen_same
    · rw [State.retireHead_csa]
      exact openWord_takeOpen_other he
    · rw [State.retireHead_csa]
      exact takeOpen_dests
  · rw [hexec, State.takePathWord_overflow hnone hfull]
    rfl

/-! ### Queued marks (R10, R31, R34) -/

section Queued
variable {w : Work} {ds : List Dest}

theorem Work.changeQueued_record (w : Work) (d : Dest) (f : Nat → Nat) (e : Dest) : (w.changeQueued d f).st.record e =
    if e = d then { w.st.record e with queued := f (w.st.record e).queued } else w.st.record e := by
  split
  · next h =>
    subst h
    exact State.record_setRecord_same _ _ _
  · next h => exact State.record_setRecord_other _ _ h

/-- Marks that a list of destinations has added to those of a request. -/
structure Work.addsMarks (w v : Work) (ds : List Dest) : Prop where
  sorted : w.marks.Pairwise (· < ·) → v.marks.Pairwise (· < ·)
  mem : w.marks.Pairwise (· < ·) → ∀ e, e ∈ v.marks ↔ e ∈ w.marks ∨ e ∈ ds

theorem Work.addsMarks_cons {v u : Work} {d : Dest} (h : w.addsMarks v [d]) (k : v.addsMarks u ds) : w.addsMarks u (d :: ds) where
  sorted := k.sorted ∘ h.sorted
  mem := fun hs e => by
    rw [k.mem (h.sorted hs), h.mem hs, List.mem_singleton, List.mem_cons, or_assoc]

theorem Work.mark_addsMarks {v : Work} {d : Dest} (h : v.marks = insertDest d w.marks) : w.addsMarks v [d] where
  sorted := fun hs => by rw [h]; exact (insertDest_spec d w.marks hs).1
  mem := fun hs e => by rw [h, (insertDest_spec d w.marks hs).2, List.mem_singleton, or_comm]

/-- What changing the queued marks of destinations in turn does. -/
structure Work.requeues (w v : Work) (ds : List Dest) (f : Nat → Nat) : Prop where
  record : ∀ e, v.st.record e = { w.st.record e with queued := f^[ds.count e] (w.st.record e).queued }
  marks : w.addsMarks v ds
  frame : ∃ records, v.st = { w.st with dt := { w.st.dt with records := records } }
  flags : v.freed = w.freed ∧ v.raised = w.raised

theorem Work.foldl_changeQueued (w : Work) (ds : List Dest) (f : Nat → Nat) :
    w.requeues (ds.foldl (fun w d => w.changeQueued d f) w) ds f := by
  induction ds generalizing w with
  | nil => exact ⟨fun _ => rfl, ⟨id, fun _ e => by simp⟩, ⟨_, rfl⟩, rfl, rfl⟩
  | cons d ds ih =>
    have hrest := ih (w.changeQueued d f)
    rw [List.foldl_cons]
    refine ⟨fun e => ?_, Work.addsMarks_cons (Work.mark_addsMarks (w := w) (v := w.changeQueued d f) rfl) hrest.marks, ?_, hrest.flags⟩
    · rw [hrest.record, Work.changeQueued_record, List.count_cons]
      by_cases he : e = d
      · subst he
        simp [Function.iterate_succ_apply]
      · have hne : (d == e) = false := beq_eq_false_iff_ne.2 (Ne.symm he)
        simp [he, hne]
    · obtain ⟨records, hst⟩ := hrest.frame
      exact ⟨records, hst⟩

theorem iterate_pred (n q : Nat) : (· - 1)^[n] q = q - n := by
  induction n generalizing q with
  | zero => rfl
  | succ n ih => rw [Function.iterate_succ_apply, ih, Nat.sub_sub, Nat.add_comm]

theorem iterate_succ (n q : Nat) : (· + 1)^[n] q = q + n := by
  induction n generalizing q with
  | zero => rfl
  | succ n ih => rw [Function.iterate_succ_apply, ih, Nat.add_assoc, Nat.add_comm 1]

end Queued

/-! ### A set enters the set queue (R31) -/

theorem entryDests_decode (es : List OpenEntry) : entryDests (es.map decodeEntry) = es.map OpenEntry.dest := by
  rw [entryDests, List.map_map]
  rfl

section Enter
variable {s : State} {h : PostedWrite} {d : Dest} {label : BitVec 4} {es : List SetEntry} {tag : Nat}

/-- The state in which a set has entered the queue. -/
structure State.enters (s t : State) (label : BitVec 4) (es : List SetEntry) (tag : Nat) : Prop where
  csa : t.csa = { s.csa with queue := s.csa.queue ++ [{ label := label, entries := es }] }
  record : ∀ e, t.record e = { s.record e with queued := (s.record e).queued + (entryDests es).count e }
  listed : ∀ e ∈ entryDests es, ∃ u ∈ t.dt.updates, u.dest = e ∧ u.tag = some tag
  marks : s.marksUpdates t (some tag) fun e => (entryDests es).contains e
  dt : t.dt = { s.dt with records := t.dt.records, updates := t.dt.updates }
  re : t.re = { s.re with occasionDue := s.re.occasionDue || s.csa.queue.isEmpty }
  frame : t = { s with csa := t.csa, dt := t.dt, re := t.re }

theorem State.enterQueue_enters (s : State) (label : BitVec 4) (es : List SetEntry) (tag : Nat) :
    s.enters (s.enterQueue label es tag) label es tag := by
  have hqueued := Work.foldl_changeQueued
    ({ s with csa := { s.csa with queue := s.csa.queue ++ [{ label := label, entries := es }] } } : State).begin
    (entryDests es) (· + 1)
  rw [State.enterQueue]
  dsimp only
  generalize (entryDests es).foldl _ _ = v at hqueued ⊢
  obtain ⟨st, marks, freed, raised⟩ := v
  obtain ⟨hrecord, hmarks, ⟨records, hframe⟩, hfreed, hraised⟩ := hqueued
  dsimp only at hframe hfreed hraised
  subst hframe hfreed hraised
  have hmem : ∀ e, e ∈ marks ↔ e ∈ entryDests es := fun e =>
    (hmarks.mem List.Pairwise.nil e).trans (or_iff_right List.not_mem_nil)
  refine ⟨rfl, fun e => (hrecord e).trans ?_, fun e he => Work.finish_listed_tag ((hmem e).2 he),
    Work.finish_marksUpdates rfl (hmarks.sorted List.Pairwise.nil) fun e => ?_, rfl, ?_, rfl⟩
  · rw [iterate_succ]
    rfl
  · exact (hmem e).trans List.contains_iff_mem.symm
  · show ({ s.re with occasionDue := (s.re.occasionDue || false || false) || s.csa.queue.isEmpty } : RampEngine) = _
    rw [Bool.or_false, Bool.or_false]

end Enter

theorem State.retireHead_withTable (s : State) (csa : SetAssembler) (dt : DestTable) (re : RampEngine) :
    ({ s with csa := csa, dt := dt, re := re } : State).retireHead = { s.retireHead with csa := csa, dt := dt, re := re } :=
  (State.retireHead_of (s := s) (t := { s with csa := csa, dt := dt, re := re }) rfl rfl).trans
    (congrArg (fun u : State => ({ u with csa := csa, dt := dt, re := re } : State)) s.retireHead_eq).symm

theorem State.closeSet_failed {s : State} {es : List OpenEntry} {reason : RejectReason} {e : OpenEntry} {label : BitVec 4}
    {trial : Bool} {tag : Nat} (h : staticChecks [] es = some (reason, e)) : s.closeSet es label trial tag =
      s.emit .setRejected reason.code (destSubject e.dest) (setDetail label es.length trial false) e.word := by
  rw [State.closeSet, h]

theorem State.closeSet_passed {s : State} {es : List OpenEntry} {label : BitVec 4} {trial : Bool} {tag : Nat}
    (h : staticChecks [] es = none) : s.closeSet es label trial tag =
      if trial then s.trial label (es.map decodeEntry) else s.enterQueue label (es.map decodeEntry) tag := by
  rw [State.closeSet, h]

/-- Settles O14. -/
theorem closeEntersQueue : Obligations.CloseEntersQueue := by
  unfold Obligations.CloseEntersQueue
  refine ⟨fun s tag ds hds hl => by rw [State.markAll, foldl_markUpdate_eq hds hl], ?_⟩
  intro s h d hh hz hd hcloses htrial hroom hopen entries hpassed
  have hexec := exec_pathWrite hh hz hd
  rw [State.closeWaits_eq_false_of_room hroom, if_neg Bool.false_ne_true, State.takePathWord_room hopen, hcloses, if_pos rfl,
    State.closeSet_passed hpassed, htrial, if_neg Bool.false_ne_true] at hexec
  have hdests : entryDests (entries.map decodeEntry) = entries.map OpenEntry.dest := entryDests_decode entries
  obtain ⟨hcsa, hrecord, hlisted, hmarks, hdt, hre, hframe⟩ := s.emptyOpen.enterQueue_enters (pathLabel (s.pathMerged d h))
    (entries.map decodeEntry) h.tag
  rw [hdests] at hrecord hlisted hmarks
  generalize s.emptyOpen.enterQueue (pathLabel (s.pathMerged d h)) (entries.map decodeEntry) h.tag = u at *
  refine ⟨_, hexec, ?_, fun e => ?_, fun e he => ?_, ?_, ?_, ?_, ?_⟩
  · rw [State.retireHead_csa, hcsa]
    rfl
  · exact (State.record_congr (by rw [State.retireHead_dt]) e).trans (hrecord e)
  · rw [State.retireHead_dt]
    exact hlisted e.dest (List.mem_map_of_mem he)
  · unfold State.marksUpdates
    rw [State.retireHead_dt]
    exact hmarks
  · rw [State.retireHead_dt]
    exact hdt
  · rw [State.retireHead_re]
    exact hre
  · rw [State.retireHead_csa, State.retireHead_dt, State.retireHead_re]
    conv_lhs => rw [hframe]
    exact s.retireHead_withTable _ _ _

/-! ### The checks spelled (R25, R29, R36) -/

section Checks
variable {d : Dest} {w : Word} {e : OpenEntry} {before after : List OpenEntry} {earlier : List Port} {p : Port}

theorem staticChecks_append (h : staticChecks earlier before = none) : staticChecks earlier (before ++ after) =
    staticChecks (earlier ++ before.flatMap entryPort) after := by
  induction before generalizing earlier with
  | nil => rw [List.nil_append, List.flatMap_nil, List.append_nil]
  | cons x before ih =>
    rw [staticChecks] at h
    rw [List.cons_append, staticChecks]
    split at h
    · cases h
    · rw [ih h, List.flatMap_cons, List.append_assoc]

theorem mem_entryPort_iff : p ∈ entryPort e ↔ pathSource e.dest e.word = some (.port p) := by
  unfold entryPort
  split
  · next q hq =>
    rw [hq, List.mem_singleton, Option.some.injEq, Source.port.injEq]
    exact eq_comm
  all_goals next hq => simp [hq]

theorem mem_flatMap_entryPort_iff : p ∈ before.flatMap entryPort ↔ ∃ b ∈ before, pathSource b.dest b.word = some (.port p) := by
  rw [List.mem_flatMap]
  exact exists_congr fun b => and_congr_right fun _ => mem_entryPort_iff

theorem isUturn_iff {src : Source} : isUturn d src = true ↔ isLine d = true ∧ src = .express (wayOf d) := by
  rw [isUturn, Bool.and_eq_true, beq_iff_eq]

theorem staticCheck_source (h : pathSource e.dest e.word = none) : staticCheck earlier e = some .badSource := by
  rw [staticCheck, h]

theorem staticCheck_uturn {src : Source} (h : pathSource e.dest e.word = some src) (hu : isUturn e.dest src = true) :
    staticCheck earlier e = some .uturn := by
  rw [staticCheck, h]
  exact if_pos hu

theorem staticCheck_port (h : pathSource e.dest e.word = some (.port p)) :
    staticCheck earlier e = if p ∈ earlier then some .portTwice else none := by
  rw [staticCheck, h]
  have hu : isUturn e.dest (.port p) = false := by simp [isUturn]
  exact if_neg (by rw [hu]; exact Bool.false_ne_true)

theorem staticCheck_other {src : Source} (h : pathSource e.dest e.word = some src) (hu : ¬ isUturn e.dest src = true)
    (hp : ∀ p, src ≠ .port p) : staticCheck earlier e = none := by
  rw [staticCheck, h]
  refine (if_neg hu).trans ?_
  cases src with
  | port p => exact absurd rfl (hp p)
  | none | express k | drop k n => rfl

theorem staticChecks_of_check (h : staticChecks [] before = none) : staticChecks [] (before ++ e :: after) =
    match staticCheck (before.flatMap entryPort) e with
    | some reason => some (reason, e)
    | none => staticChecks (before.flatMap entryPort ++ entryPort e) after := by
  rw [staticChecks_append h, List.nil_append, staticChecks] <;> rfl

theorem lineSource_port_of_codes (h : (field w 8 3 = 5 ∧ field w 11 7 < 24 ∧ p.val = field w 11 7) ∨
    (field w 8 3 = 6 ∧ field w 11 7 < 24 ∧ p.val = 24 + field w 11 7)) : lineSource w = some (.port p) := by
  obtain ⟨hsrc, hindex, hp⟩ | ⟨hsrc, hindex, hp⟩ := h
  · rw [lineSource, hsrc]
    exact (dif_pos hindex).trans (congrArg (fun q => some (Source.port q)) (Fin.ext hp.symm))
  · rw [lineSource, hsrc]
    exact (dif_pos hindex).trans (congrArg (fun q => some (Source.port q)) (Fin.ext hp.symm))

theorem lineSource_badSource (h : field w 8 3 = 7 ∨ ((field w 8 3 = 5 ∨ field w 8 3 = 6) ∧ 24 ≤ field w 11 7)) :
    lineSource w = none := by
  obtain hsrc | ⟨hsrc | hsrc, hindex⟩ := h
  · rw [lineSource, hsrc] <;> rfl
  · rw [lineSource, hsrc]
    exact dif_neg (Nat.not_lt.2 hindex)
  · rw [lineSource, hsrc]
    exact dif_neg (Nat.not_lt.2 hindex)

theorem dropSource_badSource (h : field w 8 3 = 5 ∨ field w 8 3 = 6 ∨ field w 8 3 = 7 ∨
    (1 ≤ field w 8 3 ∧ field w 8 3 ≤ 4 ∧ 96 ≤ field w 11 7)) : dropSource w = none := by
  rw [dropSource, if_neg (by omega)]
  obtain hsrc | hsrc | hsrc | ⟨hlo, hup, hindex⟩ := h
  · rw [hsrc]; rfl
  · rw [hsrc]; rfl
  · rw [hsrc]; rfl
  · have hway : dropWay (field w 8 3) = some ⟨field w 8 3 - 1, by omega⟩ := by
      rw [← dropWay_srcCode]
      exact congrArg dropWay (by dsimp only; omega)
    rw [hway]
    exact dif_neg (Nat.not_lt.2 hindex)

end Checks

section Dynamic
variable {s : State} {named : List Dest} {e : SetEntry} {p : Port} {c : Dest}

/-- An entry fails the dynamic check on the destination outside the set whose intent source is its port (R36, R48). -/
theorem State.conflictOf_eq_some_iff (hlaw : s.tableLaw) (hidle : s.pu.adoption = none) :
    s.conflictOf named e = some (p, c) ↔ e.src = .port p ∧ (s.record c).intentSrc = .port p ∧ c ∉ named := by
  have hstands : s.mapStands := fun a ha => absurd (hidle.symm.trans ha) nofun
  have hbuilt : ∀ d, s.isBuilt d = true := fun d => by rw [State.isBuilt, hidle]
  have hclaim : ∀ q d, s.dt.ports[q].claimant = some d ↔ (s.record d).intentSrc = .port q := fun (q : Port) d =>
    (hlaw.claimants hstands q d).trans (and_iff_right (hbuilt d))
  unfold State.conflictOf
  split
  · next q hq =>
    rw [hq, Source.port.injEq]
    cases hholder : s.dt.ports[q].claimant with
    | none =>
      refine ⟨nofun, ?_⟩
      rintro ⟨rfl, hc, -⟩
      exact absurd (hholder.symm.trans ((hclaim q c).2 hc)) nofun
    | some b =>
      dsimp only
      split
      · next hb =>
        refine ⟨nofun, ?_⟩
        rintro ⟨rfl, hc, hnot⟩
        have hbc : b = c := Option.some.inj (hholder.symm.trans ((hclaim q c).2 hc))
        exact absurd hb (hbc ▸ hnot)
      · next hb =>
        rw [Option.some.injEq, Prod.mk.injEq]
        constructor
        · rintro ⟨rfl, rfl⟩
          exact ⟨rfl, (hclaim q b).1 hholder, hb⟩
        · rintro ⟨rfl, hc, -⟩
          exact ⟨rfl, Option.some.inj (hholder.symm.trans ((hclaim q c).2 hc))⟩
  all_goals next hq => simp [hq]

/-- The check looks at the port map alone. -/
theorem State.dynamicCheck_congr {t : State} (h : t.dt.ports = s.dt.ports) (es : List SetEntry) :
    t.dynamicCheck es = s.dynamicCheck es := by
  have hconflict : ∀ named e, t.conflictOf named e = s.conflictOf named e := fun named e => by
    unfold State.conflictOf
    rw [h]
  have hfrom : ∀ named l, t.dynamicFrom named l = s.dynamicFrom named l := fun named l => by
    induction l with
    | nil => rfl
    | cons e l ih => rw [State.dynamicFrom, State.dynamicFrom, hconflict, ih]
  exact hfrom _ _

theorem State.dynamicFrom_first {before after : List SetEntry} (hbefore : ∀ b ∈ before, s.conflictOf named b = none)
    (he : s.conflictOf named e = some (p, c)) : s.dynamicFrom named (before ++ e :: after) = some (e, p, c) := by
  induction before with
  | nil => rw [List.nil_append, State.dynamicFrom, he]
  | cons b before ih =>
    rw [List.cons_append, State.dynamicFrom, hbefore b List.mem_cons_self]
    exact ih fun x hx => hbefore x (List.mem_cons_of_mem _ hx)

theorem State.dynamicFrom_none {es : List SetEntry} (h : ∀ b ∈ es, s.conflictOf named b = none) :
    s.dynamicFrom named es = none := by
  induction es with
  | nil => rfl
  | cons b es ih =>
    rw [State.dynamicFrom, h b List.mem_cons_self]
    exact ih fun x hx => h x (List.mem_cons_of_mem _ hx)

end Dynamic

/-- Settles O15. -/
theorem closeRejectedTriedOrWaiting : Obligations.CloseRejectedTriedOrWaiting := by
  unfold Obligations.CloseRejectedTriedOrWaiting
  refine ⟨fun d w => ⟨fun hline => ?_, fun hdrop => ?_⟩, fun before after e hbefore => ?_, ⟨rfl, rfl, rfl, rfl⟩,
    fun s entries hlaw hidle => ?_, fun s h d hh hz hd hcloses => ?_⟩
  · have hsource : pathSource d w = lineSource w := if_pos hline
    rw [hsource]
    refine ⟨fun h => ?_, fun k h => lineSource_express (h.trans (Nat.add_comm _ _)), fun p h => lineSource_port_of_codes h, fun h => lineSource_badSource h⟩
    exact lineSource_none h
  · have hsource : pathSource d w = dropSource w := if_neg (by rw [hdrop]; exact Bool.false_ne_true)
    rw [hsource]
    exact ⟨fun h => if_pos h, fun k n h hn => dropSource_drop (h.trans (Nat.add_comm _ _)) hn, fun h => dropSource_badSource h⟩
  · have hcheck := fun after => staticChecks_of_check (e := e) (after := after) hbefore
    refine ⟨fun h => ?_, fun src hsrc => ⟨fun hu => ?_, ?_, fun hu htwice => ?_⟩⟩
    · show staticChecks [] (before ++ e :: after) = _
      rw [hcheck, staticCheck_source h]
    · show staticChecks [] (before ++ e :: after) = _
      rw [hcheck, staticCheck_uturn hsrc (isUturn_iff.2 hu)]
    · rintro hu ⟨p, rfl, hp⟩
      show staticChecks [] (before ++ e :: after) = _
      rw [hcheck, staticCheck_port hsrc, if_pos (mem_flatMap_entryPort_iff.2 hp)]
    · have hnone : staticCheck (before.flatMap entryPort) e = none := by
        by_cases hport : ∃ p, src = .port p
        · obtain ⟨p, rfl⟩ := hport
          rw [staticCheck_port hsrc, if_neg fun hp => htwice ⟨p, rfl, mem_flatMap_entryPort_iff.1 hp⟩]
        · exact staticCheck_other hsrc (fun h => hu (isUturn_iff.1 h)) fun p hp => hport ⟨p, hp⟩
      rw [hcheck, hnone]
      rfl
  · intro clash
    have hconflict : ∀ e p c, s.conflictOf (entryDests entries) e = some (p, c) ↔ clash e p c := fun e p c =>
      State.conflictOf_eq_some_iff hlaw hidle
    have hfree : ∀ e, (∀ p c, ¬ clash e p c) → s.conflictOf (entryDests entries) e = none := fun e he =>
      Option.eq_none_iff_forall_ne_some.2 fun ⟨p, c⟩ h => he p c ((hconflict e p c).1 h)
    refine ⟨fun before e after p c hes hbefore he => ?_, fun hnone => ?_⟩
    · have hfirst := State.dynamicFrom_first (after := after) (fun b hb => hfree b (hbefore b hb)) ((hconflict e p c).2 he)
      rwa [← hes] at hfirst
    · exact State.dynamicFrom_none fun b hb => hfree b (hnone b hb)
  · intro merged entries emptied
    have hexec := exec_pathWrite hh hz hd
    refine ⟨fun htrial hfull => ?_, fun hgoes hopen => ?_⟩
    · have hwait : s.closeWaits d h = true := by
        rw [State.closeWaits, hcloses, htrial, decide_eq_true (show Config.setQueueCapacity ≤ s.csa.queue.length from hfull)]
        rfl
      rw [hexec, if_pos hwait]
    · have hwait : s.closeWaits d h = false := by
        obtain htrial | hroom := hgoes
        · rw [State.closeWaits, htrial, Bool.not_true, Bool.and_false, Bool.false_and]
        · exact State.closeWaits_eq_false_of_room hroom
      rw [hwait, if_neg Bool.false_ne_true, State.takePathWord_room hopen, hcloses, if_pos rfl] at hexec
      refine ⟨fun reason e hfails => ?_, fun hpassed htrial => ?_⟩
      · rw [hexec, State.closeSet_failed hfails]
        rfl
      · have hlength : (entries.map decodeEntry).length = entries.length := List.length_map _
        rw [State.closeSet_passed hpassed, if_pos htrial, State.trial] at hexec
        refine ⟨fun hcheck => ?_, fun e p c hcheck => ?_⟩
        · rw [State.dynamicCheck_congr (s := s) (t := s.emptyOpen) rfl, hcheck] at hexec
          dsimp only at hexec
          rw [hlength] at hexec
          exact hexec
        · rw [State.dynamicCheck_congr (s := s) (t := s.emptyOpen) rfl, hcheck] at hexec
          dsimp only at hexec
          rw [hlength, ← htrial] at hexec
          rw [← htrial]
          exact hexec

end Sys2Proof.Machine

/-! Destinations, their ramp slots and their add ports: what each operation of a request does to one destination, and the
law that keeps slots, ramp list and port map in step with the records (R48, R70). -/

namespace Sys2Proof.Machine

/-! ### The slot of a destination -/

/-- The content of the ramp slot that a destination's record names. -/
def State.slotOf (s : State) (d : Dest) : Option RampSlot :=
  match (s.record d).slot with
  | some n => s.re.slots[n]
  | none => none

/-- Slots and records name each other, the ramp list holds the occupied slots, and the port map names as holder of a port
the destination whose current source it is. -/
structure State.coreLaw (s : State) : Prop where
  slots : ∀ (n : SlotNo) (sl : RampSlot), s.re.slots[n] = some sl → isLine sl.dest = true ∧ (s.record sl.dest).slot = some n
  slotNames : ∀ d n, (s.record d).slot = some n → ∃ sl, s.re.slots[n] = some sl ∧ sl.dest = d
  list : s.re.list.Nodup ∧ ∀ n : SlotNo, n ∈ s.re.list ↔ (s.re.slots[n]).isSome = true
  holders : s.mapStands → ∀ (p : Port) (d : Dest), s.dt.ports[p].holder = some d ↔
    s.isBuilt d = true ∧ (s.record d).curSrc = .port p

section SlotOf
variable {s t : State} {d : Dest} {n : SlotNo} {sl : RampSlot}

theorem State.slotOf_some (h : (s.record d).slot = some n) : s.slotOf d = s.re.slots[n] := by
  rw [State.slotOf, h]

theorem State.slotOf_none (h : (s.record d).slot = none) : s.slotOf d = none := by
  rw [State.slotOf, h]

theorem State.slotOf_congr (hslot : (t.record d).slot = (s.record d).slot)
    (hslots : ∀ n, (s.record d).slot = some n → t.re.slots[n] = s.re.slots[n]) : t.slotOf d = s.slotOf d := by
  cases h : (s.record d).slot with
  | none => rw [State.slotOf_none h, State.slotOf_none (hslot.trans h)]
  | some n => rw [State.slotOf_some h, State.slotOf_some (hslot.trans h), hslots n h]

/-- A destination's STATE code and current word depend on its record and its slot alone. -/
theorem State.currentWord_congr (hrecord : t.record d = s.record d) (hslot : t.slotOf d = s.slotOf d) :
    t.currentWord d = s.currentWord d := by
  have hphase : ∀ u : State, u.slotPhase (u.record d) = (u.slotOf d).map RampSlot.phase := fun u => by
    unfold State.slotPhase State.slotOf
    cases (u.record d).slot <;> rfl
  have hcode : t.stateCode d = s.stateCode d := by
    unfold State.stateCode
    rw [hphase, hphase, hrecord, hslot]
  rw [State.currentWord, State.currentWord, hcode, hrecord]

theorem State.coreLaw.slotOf_of_slots (h : s.coreLaw) (hsl : s.re.slots[n] = some sl) : s.slotOf sl.dest = some sl := by
  rw [State.slotOf_some (h.slots n sl hsl).2, hsl]

/-- The law depends on the records, the slots and their list, the holders and the adoption alone. -/
theorem State.coreLaw.congr (h : s.coreLaw) (hrecords : t.dt.records = s.dt.records) (hslots : t.re.slots = s.re.slots)
    (hlist : t.re.list = s.re.list) (hports : t.dt.ports = s.dt.ports) (hpu : t.pu = s.pu) : t.coreLaw := by
  have hrec := State.record_congr hrecords
  have hstands : t.mapStands → s.mapStands := fun hm => by unfold State.mapStands at hm ⊢; rwa [hpu] at hm
  refine ⟨fun n sl hsl => ?_, fun d n hn => ?_, ?_, fun hm p d => ?_⟩
  · rw [hrec]
    exact h.slots n sl (hslots ▸ hsl)
  · rw [hrec] at hn
    rw [hslots]
    exact h.slotNames d n hn
  · rw [hlist, hslots]
    exact h.list
  · unfold State.isBuilt
    rw [hrec, hports, hpu]
    exact h.holders (hstands hm) p d

end SlotOf

/-! ### Operations on one destination -/

/-- What an operation of a request on destination `d` keeps: the other destinations' records and slots, the claimants, and the
law of slots and holders; and it marks no other destination. -/
structure Work.acts (w v : Work) (d : Dest) : Prop where
  core : v.st.coreLaw
  outside : w.st.keepsOutsideTable v.st
  others : ∀ e, e ≠ d → v.st.record e = w.st.record e
  slotOf : ∀ e, e ≠ d → v.st.slotOf e = w.st.slotOf e
  claims : ∀ p : Port, (v.st.dt.ports[p]).claimant = (w.st.dt.ports[p]).claimant
  sorted : w.marks.Pairwise (· < ·) → v.marks.Pairwise (· < ·)
  mono : ∀ e ∈ w.marks, e ∈ v.marks
  only : ∀ e ∈ v.marks, e ∈ w.marks ∨ e = d

section Acts
variable {w v u : Work} {d : Dest} {n : SlotNo} {sl : RampSlot} {src : Source} {attn : Attn}

theorem Work.acts.trans (h : w.acts v d) (k : v.acts u d) : w.acts u d where
  core := k.core
  outside := h.outside.trans k.outside
  others := fun e he => (k.others e he).trans (h.others e he)
  slotOf := fun e he => (k.slotOf e he).trans (h.slotOf e he)
  claims := fun p => (k.claims p).trans (h.claims p)
  sorted := k.sorted ∘ h.sorted
  mono := fun e he => k.mono e (h.mono e he)
  only := fun e he => (k.only e he).elim (h.only e) .inr

theorem Work.acts.refl (h : w.st.coreLaw) (d : Dest) : w.acts w d where
  core := h
  outside := .refl _
  others := fun _ _ => rfl
  slotOf := fun _ _ => rfl
  claims := fun _ => rfl
  sorted := id
  mono := fun _ => id
  only := fun _ => .inl

theorem mem_insertDest {e : Dest} {l : List Dest} : e ∈ insertDest d l ↔ e = d ∨ e ∈ l := by
  induction l with
  | nil => simp [insertDest]
  | cons x l ih =>
    unfold insertDest
    split
    · rw [List.mem_cons]
    · split
      · next hx => rw [hx, List.mem_cons, ← or_assoc, or_self]
      · rw [List.mem_cons, ih, List.mem_cons]
        tauto

theorem Work.mark_acts (h : w.st.coreLaw) (d : Dest) : w.acts (w.mark d) d where
  core := h
  outside := .refl _
  others := fun _ _ => rfl
  slotOf := fun _ _ => rfl
  claims := fun _ => rfl
  sorted := fun hs => (insertDest_spec d w.marks hs).1
  mono := fun _ he => mem_insertDest.2 (.inr he)
  only := fun _ he => (mem_insertDest.1 he).symm

theorem State.slotOf_setRecord_other (s : State) {d e : Dest} (h : e ≠ d) (r : DestRecord) :
    (s.setRecord d r).slotOf e = s.slotOf e :=
  State.slotOf_congr (congrArg DestRecord.slot (State.record_setRecord_other s r h)) fun _ _ => rfl

/-- A record replaced by one with the same slot and the same current source. -/
theorem Work.setRecord_acts {r : DestRecord} (h : w.st.coreLaw) (hslot : r.slot = (w.st.record d).slot)
    (hsrc : r.curSrc = (w.st.record d).curSrc) : w.acts (w.setRecord d r) d := by
  have hrec : ∀ e, ((w.st.setRecord d r).record e).slot = (w.st.record e).slot ∧
      ((w.st.setRecord d r).record e).curSrc = (w.st.record e).curSrc := fun e => by
    by_cases he : e = d
    · subst he
      rw [State.record_setRecord_same]
      exact ⟨hslot, hsrc⟩
    · rw [State.record_setRecord_other _ _ he]
      exact ⟨rfl, rfl⟩
  exact {
    core := {
      slots := fun n sl hsl => by
        rw [Work.setRecord_st, (hrec sl.dest).1]
        exact h.slots n sl hsl
      slotNames := fun e n hn => by
        rw [Work.setRecord_st, (hrec e).1] at hn
        exact h.slotNames e n hn
      list := h.list
      holders := fun hm p e => by
        rw [Work.setRecord_st, (hrec e).2]
        exact h.holders hm p e }
    outside := w.st.setRecord_keepsOutsideTable d r
    others := fun e he => State.record_setRecord_other _ _ he
    slotOf := fun e he => State.slotOf_setRecord_other _ he _
    claims := fun _ => rfl
    sorted := id
    mono := fun _ => id
    only := fun _ => .inl }

/-! ### A current written (R4, R50) -/

theorem getElem_set_ite {α : Type} {n : Nat} (v : Vector α n) (i j : Fin n) (x : α) :
    (v.set i x)[j] = if i = j then x else v[j] := by
  split
  · next h => subst h; exact Vector.getElem_set_self _
  · next h => exact Vector.getElem_set_ne _ _ fun he => h (Fin.ext he)

theorem Work.writeCurrent_port (w : Work) (d : Dest) (src : Source) (attn : Attn) (p : Port) :
    (w.writeCurrent d src attn).st.dt.ports[p] = { w.st.dt.ports[p] with
      holder := if src = .port p then some d else if (w.st.record d).curSrc = .port p then none
        else (w.st.dt.ports[p]).holder } := by
  have hclear : ∀ (s : State) (old : Source), (s.clearHolder old).dt.ports[p] = { s.dt.ports[p] with
      holder := if old = .port p then none else (s.dt.ports[p]).holder } := fun s old => by
    cases old with
    | port q =>
      refine (getElem_set_ite _ _ _ _).trans ?_
      by_cases hq : q = p
      · subst hq
        rw [if_pos rfl, if_pos rfl]
      · rw [if_neg hq, if_neg fun he => hq (Source.port.inj he)]
    | none | express k | drop k m => rfl
  have htake : ∀ (s : State) (new : Source), (s.takeHolder d new).dt.ports[p] = { s.dt.ports[p] with
      holder := if new = .port p then some d else (s.dt.ports[p]).holder } := fun s new => by
    cases new with
    | port q =>
      refine (getElem_set_ite _ _ _ _).trans ?_
      by_cases hq : q = p
      · subst hq
        rw [if_pos rfl, if_pos rfl]
      · rw [if_neg hq, if_neg fun he => hq (Source.port.inj he)]
    | none | express k | drop k m => rfl
  rw [Work.writeCurrent]
  dsimp only [Work.mark_st]
  rw [htake, hclear, State.reportLoad_dt]
  rfl

theorem State.otherHolder_eq_none_iff {s : State} {src : Source} : s.otherHolder d src = none ↔
    ∀ p e, src = .port p → (s.dt.ports[p]).holder = some e → e = d := by
  unfold State.otherHolder
  split
  · next q =>
    constructor
    · rintro h p e hp he
      obtain rfl := Source.port.inj hp
      rw [he] at h
      dsimp only at h
      by_contra hne
      rw [if_neg hne] at h
      cases h
    · intro h
      split
      · next e he => rw [if_pos (h q e rfl he)]
      · rfl
  all_goals exact ⟨fun _ _ _ hp => Source.noConfusion hp, fun _ => rfl⟩

/-- A write of a current to a source whose port no other destination holds. -/
theorem Work.writeCurrent_acts (h : w.st.coreLaw) (hbuilt : w.st.isBuilt d = true)
    (hfree : w.st.otherHolder d src = none) (attn : Attn) : w.acts (w.writeCurrent d src attn) d := by
  have hrecord := w.writeCurrent_record d src attn
  obtain ⟨hslots, hlist⟩ := w.writeCurrent_slots d src attn
  have hout := w.writeCurrent_keepsOutsideTable d src attn
  have hbuilt' : ∀ e, (w.writeCurrent d src attn).st.isBuilt e = w.st.isBuilt e := fun e => by
    unfold State.isBuilt
    rw [hout.pu]
  have hslot : ∀ e, ((w.writeCurrent d src attn).st.record e).slot = (w.st.record e).slot := fun e => by
    rw [hrecord]
    split
    · next he => rw [he]
    · rfl
  have hport := w.writeCurrent_port d src attn
  exact {
    core := {
      slots := fun n sl hsl => by
        rw [hslot]
        exact h.slots n sl (hslots ▸ hsl)
      slotNames := fun e n hn => by
        rw [hslots]
        exact h.slotNames e n (hslot e ▸ hn)
      list := by
        rw [hslots, hlist]
        exact h.list
      holders := fun hm p e => by
        have hm' : w.st.mapStands := by unfold State.mapStands at hm ⊢; rwa [hout.pu] at hm
        have hold := h.holders hm' p
        have hnone := State.otherHolder_eq_none_iff.1 hfree
        rw [hport, hrecord, hbuilt']
        dsimp only
        by_cases hsrc : src = .port p
        · rw [if_pos hsrc, Option.some.injEq]
          constructor
          · rintro rfl
            rw [if_pos rfl]
            exact ⟨hbuilt, hsrc⟩
          · rintro ⟨hb, hcur⟩
            by_contra hne
            rw [if_neg fun he => hne he.symm] at hcur
            exact hne (hnone p e hsrc ((hold e).2 ⟨hb, hcur⟩)).symm
        · rw [if_neg hsrc]
          by_cases hcur : (w.st.record d).curSrc = .port p
          · rw [if_pos hcur]
            refine ⟨nofun, ?_⟩
            rintro ⟨hb, he⟩
            by_cases hed : e = d
            · rw [if_pos hed] at he
              exact absurd he hsrc
            · rw [if_neg hed] at he
              exact absurd (Option.some.inj (((hold e).2 ⟨hb, he⟩).symm.trans ((hold d).2 ⟨hbuilt, hcur⟩))) hed
          · rw [if_neg hcur, hold e]
            by_cases hed : e = d
            · subst hed
              rw [if_pos rfl]
              exact ⟨fun hx => absurd hx.2 hcur, fun hx => absurd hx.2 hsrc⟩
            · rw [if_neg hed] }
    outside := hout
    others := fun e he => by rw [hrecord, if_neg he]
    slotOf := fun e _ => State.slotOf_congr (hslot e) fun n _ => by rw [hslots]
    claims := fun p => by rw [hport]
    sorted := fun hs => (insertDest_spec d w.marks hs).1
    mono := fun _ he => mem_insertDest.2 (.inr he)
    only := fun _ he => (mem_insertDest.1 he).symm }

/-! ### Slots freed, given a phase, occupied and retargeted (R70, R71, R72) -/

theorem Work.freeSlot_eq (hs : w.st.re.slots[n] = some sl) : w.freeSlot n = Work.mark
    { w with
      st := State.setRecord { w.st with re := { w.st.re with slots := w.st.re.slots.set n none, list := w.st.re.list.erase n } }
        sl.dest { w.st.record sl.dest with slot := none }
      freed := true } sl.dest := by
  rw [Work.freeSlot, hs]
  rfl

theorem Work.freeSlot_acts (h : w.st.coreLaw) (hs : w.st.re.slots[n] = some sl) : w.acts (w.freeSlot n) sl.dest := by
  have hrecord : ∀ e, (w.freeSlot n).st.record e =
      if e = sl.dest then { w.st.record sl.dest with slot := none } else w.st.record e := fun e => by
    rw [Work.freeSlot_eq hs]
    split
    · next he => rw [he]; exact State.record_setRecord_same _ _ _
    · next he => exact State.record_setRecord_other _ _ he
  have hslots : ∀ k : SlotNo, (w.freeSlot n).st.re.slots[k] = if n = k then none else w.st.re.slots[k] := fun k => by
    rw [Work.freeSlot_eq hs]
    exact getElem_set_ite _ _ _ _
  have hnamed : ∀ (k : SlotNo) (q : RampSlot), w.st.re.slots[k] = some q → n ≠ k → q.dest ≠ sl.dest := fun k q hq hne hd =>
    hne (Option.some.inj ((h.slots n sl hs).2.symm.trans (hd ▸ (h.slots k q hq).2)))
  exact {
    core := {
      slots := fun k q hq => by
        rw [hslots] at hq
        split at hq
        · cases hq
        · next hne =>
          rw [hrecord, if_neg (hnamed k q hq hne)]
          exact h.slots k q hq
      slotNames := fun e k hk => by
        rw [hrecord] at hk
        split at hk
        · cases hk
        · next hne =>
          obtain ⟨q, hq, hd⟩ := h.slotNames e k hk
          refine ⟨q, ?_, hd⟩
          rw [hslots, if_neg, hq]
          rintro rfl
          exact hne (hd ▸ congrArg RampSlot.dest (Option.some.inj (hq.symm.trans hs)))
      list := by
        have hlist : (w.freeSlot n).st.re.list = w.st.re.list.erase n := by rw [Work.freeSlot_eq hs]; rfl
        rw [hlist]
        refine ⟨h.list.1.erase n, fun k => ?_⟩
        rw [h.list.1.mem_erase_iff, h.list.2, hslots]
        split
        · next hk => simp [hk]
        · next hk => simp [Ne.symm hk]
      holders := fun hm p e => by
        have hcur : ((w.freeSlot n).st.record e).curSrc = (w.st.record e).curSrc := by
          rw [hrecord]
          split
          · next he => rw [he]
          · rfl
        rw [hcur]
        rw [Work.freeSlot_eq hs] at hm ⊢
        exact h.holders hm p e }
    outside := w.freeSlot_keepsOutsideTable n
    others := fun e he => by rw [hrecord, if_neg he]
    slotOf := fun e he => by
      refine State.slotOf_congr (by rw [hrecord, if_neg he]) fun k hk => ?_
      rw [hslots, if_neg]
      rintro rfl
      obtain ⟨q, hq, hd⟩ := h.slotNames e n hk
      exact he (hd ▸ congrArg RampSlot.dest (Option.some.inj (hq.symm.trans hs)))
    claims := fun p => by rw [Work.freeSlot_eq hs]; rfl
    sorted := fun hsort => by rw [Work.freeSlot_eq hs]; exact (insertDest_spec _ w.marks hsort).1
    mono := fun _ he => by rw [Work.freeSlot_eq hs]; exact mem_insertDest.2 (.inr he)
    only := fun _ he => by rw [Work.freeSlot_eq hs] at he; exact (mem_insertDest.1 he).symm }

/-- A change of the change sets and the event writer alone. -/
theorem Work.acts_of_sets {st : State} (h : w.st.coreLaw) (hdt : st.dt = w.st.dt) (hre : st.re = w.st.re)
    (hout : w.st.keepsOutsideTable st) (d : Dest) : w.acts { w with st := st } d where
  core := h.congr (by rw [hdt]) (by rw [hre]) (by rw [hre]) (by rw [hdt]) hout.pu
  outside := hout
  others := fun e _ => State.record_congr (by rw [hdt]) e
  slotOf := fun e _ => State.slotOf_congr (congrArg DestRecord.slot (State.record_congr (by rw [hdt]) e)) fun n _ => by
    dsimp only
    rw [hre]
  claims := fun p => by dsimp only; rw [hdt]
  sorted := id
  mono := fun _ => id
  only := fun _ => .inl

theorem Work.releaseSet_acts (h : w.st.coreLaw) (serves : Option Nat) (interrupted : Bool) (d : Dest) :
    w.acts { w with st := w.st.releaseSet serves interrupted } d :=
  Work.acts_of_sets h (State.releaseSet_dt _ _ _) (State.releaseSet_re _ _ _) (State.releaseSet_keepsOutsideTable _ _ _) d

theorem Work.settleSlot_acts (h : w.st.coreLaw) (hs : w.st.re.slots[n] = some sl) : w.acts (w.settleSlot n) sl.dest := by
  have hrelease := Work.releaseSet_acts h sl.serves false sl.dest
  rw [Work.settleSlot, hs]
  exact hrelease.trans (Work.freeSlot_acts hrelease.core (by dsimp only; rw [State.releaseSet_re]; exact hs))

/-- A slot's content replaced by one of the same destination, and the slot left in its place or moved in the ramp list. -/
theorem Work.setSlot_acts {q : RampSlot} {list : List SlotNo} (h : w.st.coreLaw) (hs : w.st.re.slots[n] = some sl)
    (hd : q.dest = sl.dest) (hlist : list.Perm w.st.re.list) :
    w.acts { w with st := { w.st with re := { w.st.re with slots := w.st.re.slots.set n (some q), list := list } } } sl.dest := by
  have hslots : ∀ k : SlotNo, (w.st.re.slots.set n (some q))[k] = if n = k then some q else w.st.re.slots[k] :=
    fun k => getElem_set_ite _ _ _ _
  have hsome : ∀ k : SlotNo, ((w.st.re.slots.set n (some q))[k]).isSome = (w.st.re.slots[k]).isSome := fun k => by
    rw [hslots]
    split
    · next hk => rw [← hk, hs]; rfl
    · rfl
  exact {
    core := {
      slots := fun k r hr => by
        replace hr : (w.st.re.slots.set n (some q))[k] = some r := hr
        rw [hslots] at hr
        split at hr
        · next hk =>
          obtain rfl := Option.some.inj hr
          rw [hd, ← hk]
          exact h.slots n sl hs
        · exact h.slots k r hr
      slotNames := fun e k hk => by
        obtain ⟨r, hr, hrd⟩ := h.slotNames e k hk
        show ∃ x, (w.st.re.slots.set n (some q))[k] = some x ∧ _
        rw [hslots]
        split
        · next hnk =>
          subst hnk
          exact ⟨q, rfl, by rw [hd, ← Option.some.inj (hr.symm.trans hs), hrd]⟩
        · exact ⟨r, hr, hrd⟩
      list := ⟨hlist.nodup_iff.2 h.list.1, fun k => (hlist.mem_iff.trans (h.list.2 k)).trans (by
        show _ ↔ ((w.st.re.slots.set n (some q))[k]).isSome = true
        rw [hsome])⟩
      holders := h.holders }
    outside := ⟨rfl, rfl, rfl, rfl, rfl, rfl, rfl, rfl, rfl, rfl⟩
    others := fun _ _ => rfl
    slotOf := fun e he => State.slotOf_congr rfl fun k hk => by
      show (w.st.re.slots.set n (some q))[k] = _
      rw [hslots, if_neg]
      rintro rfl
      obtain ⟨r, hr, hrd⟩ := h.slotNames e n hk
      exact he (hrd ▸ congrArg RampSlot.dest (Option.some.inj (hr.symm.trans hs)))
    claims := fun _ => rfl
    sorted := id
    mono := fun _ => id
    only := fun _ => .inl }

theorem Work.setPhase_acts (h : w.st.coreLaw) (hs : w.st.re.slots[n] = some sl) (phase : Phase) (goal : Attn) :
    w.acts (w.setPhase n phase goal) sl.dest := by
  have hset := Work.setSlot_acts (q := { sl with phase := phase, goal := goal }) h hs rfl (List.Perm.refl _)
  rw [Work.setPhase, hs]
  dsimp only
  split
  · exact hset
  · exact hset.trans (Work.mark_acts hset.core sl.dest)

/-! ### Phase evaluation (R72) -/

theorem Work.evaluateGoal_acts (h : w.st.coreLaw) (hs : w.st.re.slots[n] = some sl) (d : Dest) :
    w.acts (w.evaluateGoal n d) sl.dest := by
  unfold Work.evaluateGoal
  dsimp only
  split
  · exact Work.settleSlot_acts h hs
  · split <;> exact Work.setPhase_acts h hs _ _

theorem State.otherHolder_none (s : State) (d : Dest) : s.otherHolder d .none = none := rfl

theorem Work.evaluate_acts (h : w.st.coreLaw) (hs : w.st.re.slots[n] = some sl) (hbuilt : w.st.isBuilt sl.dest = true) :
    w.acts (w.evaluate n) sl.dest := by
  have hslots : ∀ src, (w.writeCurrent sl.dest src dark).st.re.slots[n] = some sl := fun src => by
    rw [(w.writeCurrent_slots sl.dest src dark).1, hs]
  rw [Work.evaluate, hs]
  dsimp only
  split
  · exact Work.evaluateGoal_acts h hs _
  · split
    · exact Work.setPhase_acts h hs _ _
    · split
      · unfold Work.enterPortWait
        split
        · exact Work.setPhase_acts h hs _ _
        · have hwrite := Work.writeCurrent_acts h hbuilt (State.otherHolder_none w.st sl.dest) dark
          exact hwrite.trans (Work.setPhase_acts hwrite.core (hslots _) _ _)
      · next hheld =>
        have hnone := Option.not_isSome_iff_eq_none.1 hheld
        have hwrite := Work.writeCurrent_acts h hbuilt hnone dark
        exact hwrite.trans (Work.evaluateGoal_acts hwrite.core (hslots _) _)

end Acts

end Sys2Proof.Machine

/-! What operations of a request count: slots freed, and slots that have stopped serving their sets (R43, R44, R45, R75). -/

namespace Sys2Proof.Machine

/-! ### Slots freed (R75) -/

/-- An operation that occupies no slot: every destination keeps its slot or loses it, the request notes exactly the losses,
and a wanted flag is noted as raised where `lift` says so. -/
structure Work.onlyFrees (w v : Work) (lift : Bool) : Prop where
  slot : ∀ e, (v.st.record e).slot = (w.st.record e).slot ∨ (v.st.record e).slot = none
  freed : v.freed = true ↔ w.freed = true ∨ ∃ e, (w.st.record e).slot ≠ none ∧ (v.st.record e).slot = none
  raised : v.raised = (w.raised || lift)
  list : v.st.re.list.Sublist w.st.re.list

section Frees
variable {w v u : Work} {d : Dest} {n : SlotNo} {sl : RampSlot}

theorem Work.onlyFrees_of_slots (hslot : ∀ e, (v.st.record e).slot = (w.st.record e).slot) (hfreed : v.freed = w.freed)
    (hraised : v.raised = w.raised) (hlist : v.st.re.list = w.st.re.list) : w.onlyFrees v false where
  slot := fun e => .inl (hslot e)
  freed := by
    rw [hfreed]
    exact ⟨.inl, fun h => h.resolve_right fun ⟨e, he, hnone⟩ => he ((hslot e).symm.trans hnone)⟩
  raised := by rw [hraised, Bool.or_false]
  list := by rw [hlist]

theorem Work.onlyFrees.trans {lift again : Bool} (h : w.onlyFrees v lift) (k : v.onlyFrees u again) :
    w.onlyFrees u (lift || again) where
  slot := fun e => by
    obtain hu | hu := k.slot e
    · rw [hu]
      exact h.slot e
    · exact .inr hu
  freed := by
    rw [k.freed, h.freed, or_assoc]
    refine or_congr_right ⟨?_, ?_⟩
    · rintro (⟨e, hw, hv⟩ | ⟨e, hv, hu⟩)
      · exact ⟨e, hw, (k.slot e).elim (fun hu => hu.trans hv) id⟩
      · exact ⟨e, fun hw => hv ((h.slot e).elim (fun he => he.trans hw) id), hu⟩
    · rintro ⟨e, hw, hu⟩
      by_cases hv : (v.st.record e).slot = none
      · exact .inl ⟨e, hw, hv⟩
      · exact .inr ⟨e, hv, hu⟩
  raised := by rw [k.raised, h.raised, Bool.or_assoc]
  list := k.list.trans h.list

theorem Work.mark_onlyFrees (w : Work) (d : Dest) : w.onlyFrees (w.mark d) false :=
  Work.onlyFrees_of_slots (fun _ => rfl) rfl rfl rfl

theorem State.record_setRecord_slot {s : State} {r : DestRecord} (h : r.slot = (s.record d).slot) (e : Dest) :
    ((s.setRecord d r).record e).slot = (s.record e).slot := by
  by_cases he : e = d
  · subst he
    rw [State.record_setRecord_same, h]
  · rw [State.record_setRecord_other _ _ he]

theorem Work.setRecord_onlyFrees {r : DestRecord} (h : r.slot = (w.st.record d).slot) : w.onlyFrees (w.setRecord d r) false :=
  Work.onlyFrees_of_slots (State.record_setRecord_slot h) rfl rfl rfl

theorem Work.writeCurrent_onlyFrees (w : Work) (d : Dest) (src : Source) (attn : Attn) :
    w.onlyFrees (w.writeCurrent d src attn) false :=
  Work.onlyFrees_of_slots (fun e => by
    rw [Work.writeCurrent_record]
    split
    · next he => rw [he]
    · rfl) rfl rfl (w.writeCurrent_slots d src attn).2

theorem Work.freeSlot_onlyFrees (h : (w.st.record sl.dest).slot = some n) (hs : w.st.re.slots[n] = some sl) :
    w.onlyFrees (w.freeSlot n) false := by
  have hrecord : ∀ e, ((w.freeSlot n).st.record e).slot = if e = sl.dest then none else (w.st.record e).slot := fun e => by
    rw [Work.freeSlot_eq hs]
    split
    · next he =>
      rw [he]
      exact congrArg DestRecord.slot (State.record_setRecord_same _ _ _)
    · next he => exact congrArg DestRecord.slot (State.record_setRecord_other _ _ he)
  refine ⟨fun e => ?_, ?_, by rw [Work.freeSlot_eq hs, Bool.or_false]; rfl, ?_⟩
  · rw [hrecord]
    split
    · exact .inr rfl
    · exact .inl rfl
  · have hfreed : (w.freeSlot n).freed = true := by rw [Work.freeSlot_eq hs]; rfl
    exact ⟨fun _ => .inr ⟨sl.dest, by rw [h]; exact nofun, by rw [hrecord, if_pos rfl]⟩, fun _ => hfreed⟩
  · rw [Work.freeSlot_eq hs]
    exact List.erase_sublist

theorem Work.releaseSet_onlyFrees (w : Work) (serves : Option Nat) (interrupted : Bool) :
    w.onlyFrees { w with st := w.st.releaseSet serves interrupted } false :=
  Work.onlyFrees_of_slots
    (fun e => congrArg DestRecord.slot (State.record_congr (by dsimp only; rw [State.releaseSet_dt]) e)) rfl rfl
    (by dsimp only; rw [State.releaseSet_re])

theorem Work.setPhase_onlyFrees (w : Work) (n : SlotNo) (phase : Phase) (goal : Attn) :
    w.onlyFrees (w.setPhase n phase goal) false := by
  refine Work.onlyFrees_of_slots
    (fun e => congrArg DestRecord.slot (State.record_congr (w.setPhase_records n phase goal) e)) ?_ ?_ ?_
  all_goals
    unfold Work.setPhase
    split
    · rfl
    · dsimp only
      split <;> rfl

theorem Work.writeCurrent_slot (w : Work) (d : Dest) (src : Source) (attn : Attn) (e : Dest) :
    ((w.writeCurrent d src attn).st.record e).slot = (w.st.record e).slot := by
  rw [Work.writeCurrent_record]
  split
  · next he => rw [he]
  · rfl

end Frees

/-! ### Sets counted off (R43, R44, R45) -/

/-- The settling-set list with `cut e.id` slots of a set interrupted and `ended e.id` settled. -/
def settleOff (l : List SettlingSet) (cut ended : Nat → Nat) : List SettlingSet :=
  l.filterMap fun e => if cut e.id + ended e.id < e.remaining then
    some { e with remaining := e.remaining - (cut e.id + ended e.id), interrupted := e.interrupted + cut e.id } else none

/-- The record of a set that has settled with `k` more slots interrupted than its entry counts. -/
def State.settledRecord (s : State) (e : SettlingSet) (k : Nat) : EventRecord :=
  { kind := .setSettled, reason := 0#8, subject := BitVec.ofNat 16 e.label.toNat
    detailA := BitVec.ofNat 32 e.entries, detailB := BitVec.ofNat 32 (e.interrupted + k), stamp := s.ew.timebase }

/-- Between two states of a request the settling sets have been counted off, those with no slot left recorded. -/
structure State.counts (s t : State) (cut ended : Nat → Nat) : Prop where
  settling : t.csa.settling = settleOff s.csa.settling cut ended
  raises : s.onlyRaises t
  room : t.ew.queue.length + t.csa.settling.length ≤ s.ew.queue.length + s.csa.settling.length
  recorded : ∀ e ∈ s.csa.settling, cut e.id + ended e.id = e.remaining →
    s.ew.queue.length + s.csa.settling.length ≤ Config.eventCapacity → s.settledRecord e (cut e.id) ∈ t.ew.queue

/-- Every listed set waits for a slot, and no two listed sets share their number. -/
structure State.setsListed (s : State) : Prop where
  positive : ∀ e ∈ s.csa.settling, 0 < e.remaining
  ids : (s.csa.settling.map SettlingSet.id).Nodup

section Counts
variable {s t u : State} {cut ended cut' ended' : Nat → Nat}

theorem settleOff_zero {l : List SettlingSet} (h : ∀ e ∈ l, cut e.id = 0 ∧ ended e.id = 0) (hpos : ∀ e ∈ l, 0 < e.remaining) :
    settleOff l cut ended = l := by
  unfold settleOff
  rw [List.filterMap_congr (g := some) fun e he => ?_, List.filterMap_some]
  obtain ⟨hc, hd⟩ := h e he
  rw [hc, hd, if_pos (hpos e he)]
  rfl

theorem settleOff_settleOff (l : List SettlingSet) : settleOff (settleOff l cut ended) cut' ended' =
    settleOff l (fun id => cut id + cut' id) fun id => ended id + ended' id := by
  unfold settleOff
  rw [List.filterMap_filterMap]
  refine List.filterMap_congr fun e _ => ?_
  split
  · next hlt =>
    dsimp only [Option.bind_some]
    by_cases hnext : cut' e.id + ended' e.id < e.remaining - (cut e.id + ended e.id)
    · rw [if_pos hnext, if_pos (by omega)]
      congr 2 <;> omega
    · rw [if_neg hnext, if_neg (by omega)]
  · next hlt =>
    rw [if_neg (show ¬ cut e.id + cut' e.id + (ended e.id + ended' e.id) < e.remaining by omega)]
    rfl

theorem mem_settleOff {l : List SettlingSet} {x : SettlingSet} : x ∈ settleOff l cut ended ↔ ∃ e ∈ l,
    cut e.id + ended e.id < e.remaining ∧
      { e with remaining := e.remaining - (cut e.id + ended e.id), interrupted := e.interrupted + cut e.id } = x := by
  unfold settleOff
  rw [List.mem_filterMap]
  refine exists_congr fun e => and_congr_right fun _ => ?_
  split
  · next h => rw [Option.some.injEq, and_iff_right h]
  · next h => exact ⟨nofun, fun hx => absurd hx.1 h⟩

theorem settleOff_ids (l : List SettlingSet) :
    ((settleOff l cut ended).map SettlingSet.id).Sublist (l.map SettlingSet.id) := by
  induction l with
  | nil => exact List.Sublist.refl _
  | cons e l ih =>
    unfold settleOff at ih ⊢
    rw [List.filterMap_cons]
    split
    · exact ih.cons _
    · next x hx =>
      split at hx
      · cases hx
        exact ih.cons_cons _
      · cases hx

theorem State.counts.trans (h : s.counts t cut ended) (k : t.counts u cut' ended') :
    s.counts u (fun id => cut id + cut' id) fun id => ended id + ended' id where
  settling := by rw [k.settling, h.settling, settleOff_settleOff]
  raises := h.raises.trans k.raises
  room := k.room.trans h.room
  recorded := fun e he hall hroom => by
    by_cases hfirst : cut e.id + ended e.id = e.remaining
    · have hzero : cut' e.id = 0 := by omega
      have hrecord := h.recorded e he hfirst hroom
      show s.settledRecord e (cut e.id + cut' e.id) ∈ _
      rw [hzero, Nat.add_zero]
      exact k.raises.queue.subset hrecord
    · have hmem : ({ e with remaining := e.remaining - (cut e.id + ended e.id), interrupted := e.interrupted + cut e.id } :
          SettlingSet) ∈ t.csa.settling := by
        rw [h.settling]
        exact mem_settleOff.2 ⟨e, he, by omega, rfl⟩
      have hrecord := k.recorded _ hmem (by dsimp only; omega) (h.room.trans hroom)
      have hstamp : t.ew.timebase = s.ew.timebase := by rw [h.raises.writer]
      unfold State.settledRecord at hrecord ⊢
      dsimp only at hrecord ⊢
      rw [hstamp, Nat.add_assoc] at hrecord
      exact hrecord

theorem State.setsListed.counts (h : s.setsListed) (k : s.counts t cut ended) : t.setsListed where
  positive := fun e he => by
    rw [k.settling] at he
    obtain ⟨x, -, hlt, rfl⟩ := mem_settleOff.1 he
    dsimp only
    omega
  ids := by
    rw [k.settling]
    exact (settleOff_ids _).nodup h.ids

/-- Where nothing of the sets or the event writer has changed, nothing is counted off. -/
theorem State.counts_of_eq (h : s.setsListed) (hcsa : t.csa.settling = s.csa.settling) (hew : t.ew = s.ew)
    (hzero : ∀ e ∈ s.csa.settling, cut e.id = 0 ∧ ended e.id = 0) : s.counts t cut ended where
  settling := by rw [settleOff_zero hzero h.positive, hcsa]
  raises := State.onlyRaises_of_ew hew
  room := by rw [hcsa, hew]
  recorded := fun e he hall _ => by
    obtain ⟨hc, hd⟩ := hzero e he
    have := h.positive e he
    omega

/-- Only what is counted of the sets listed matters. -/
theorem State.counts.congr (h : s.counts t cut ended) (hcut : ∀ e ∈ s.csa.settling, cut' e.id = cut e.id)
    (hended : ∀ e ∈ s.csa.settling, ended' e.id = ended e.id) : s.counts t cut' ended' where
  settling := by
    rw [h.settling]
    exact List.filterMap_congr fun e he => by rw [hcut e he, hended e he]
  raises := h.raises
  room := h.room
  recorded := fun e he => by
    rw [hcut e he, hended e he]
    exact h.recorded e he

/-- One slot of a set. -/
def oneOf (serves : Option Nat) (id : Nat) : Nat := if serves = some id then 1 else 0

theorem State.setsListed.eq_of_id (h : s.setsListed) {x y : SettlingSet} (hx : x ∈ s.csa.settling) (hy : y ∈ s.csa.settling)
    (hid : x.id = y.id) : x = y :=
  List.inj_on_of_nodup_map h.ids hx hy hid

/-- One of a listed set's slots counted off where it is the last: the set leaves the list. -/
theorem settleOff_last {l : List SettlingSet} {id : Nat} (hpos : ∀ e ∈ l, 0 < e.remaining)
    (hone : ∀ e ∈ l, e.id = id → e.remaining ≤ 1) (hall : cut id + ended id = 1)
    (hother : ∀ x, x ≠ id → cut x = 0 ∧ ended x = 0) : settleOff l cut ended = l.filter fun x => x.id != id := by
  rw [← List.filterMap_eq_filter, settleOff]
  refine List.filterMap_congr fun e he => ?_
  by_cases hid : e.id = id
  · rw [hid, hall, if_neg (by have := hone e he hid; omega), Option.guard_eq_none_iff.2]
    exact bne_eq_false_iff_eq.2 hid
  · obtain ⟨hc, hd⟩ := hother e.id hid
    rw [hc, hd, if_pos (hpos e he), Option.guard_eq_some_iff.2]
    exact ⟨rfl, bne_iff_ne.2 hid⟩

/-- One of a listed set's slots counted off where others remain. -/
theorem settleOff_more {l : List SettlingSet} {id : Nat} (hpos : ∀ e ∈ l, 0 < e.remaining)
    (hmore : ∀ e ∈ l, e.id = id → 1 < e.remaining) (hall : cut id + ended id = 1)
    (hother : ∀ x, x ≠ id → cut x = 0 ∧ ended x = 0) : settleOff l cut ended = updateSet id
      (fun x => { x with remaining := x.remaining - 1, interrupted := x.interrupted + cut id }) l := by
  rw [updateSet, ← List.filterMap_eq_map, settleOff]
  refine List.filterMap_congr fun e he => ?_
  rw [Function.comp_apply]
  by_cases hid : e.id = id
  · rw [hid, hall, if_pos (hmore e he hid), if_pos rfl]
  · obtain ⟨hc, hd⟩ := hother e.id hid
    rw [hc, hd, if_pos (hpos e he), if_neg hid]
    rfl

/-- A slot that stops serving its set is counted off it, as interrupted or as settled. -/
theorem State.releaseSet_counts (h : s.setsListed) (serves : Option Nat) (interrupted : Bool) :
    s.counts (s.releaseSet serves interrupted) (fun id => if interrupted then oneOf serves id else 0)
      fun id => if interrupted then 0 else oneOf serves id := by
  have hother : ∀ x, serves ≠ some x →
      (if interrupted then oneOf serves x else 0) = 0 ∧ (if interrupted then 0 else oneOf serves x) = 0 := fun x hx => by
    rw [oneOf, if_neg hx, ite_self]
    exact ⟨rfl, rfl⟩
  unfold State.releaseSet
  split
  · exact State.counts_of_eq h rfl rfl fun e _ => hother _ nofun
  · next id =>
    have hother' : ∀ x, x ≠ id → _ := fun x hx => hother x fun he => hx (Option.some.inj he).symm
    have hcut : (if interrupted then oneOf (some id) id else 0) = interrupted.toNat := by
      rw [oneOf, if_pos rfl]
      cases interrupted <;> rfl
    have hall : (if interrupted then oneOf (some id) id else 0) + (if interrupted then 0 else oneOf (some id) id) = 1 := by
      rw [oneOf, if_pos rfl]
      cases interrupted <;> rfl
    split
    · next hnone =>
      refine State.counts_of_eq h rfl rfl fun e he => hother' _ fun hid => ?_
      exact List.find?_eq_none.1 hnone e he (beq_iff_eq.2 hid)
    · next e hfind =>
      have hmem := List.mem_of_find?_eq_some hfind
      have hid : e.id = id := by simpa using List.find?_some hfind
      have hpos := h.positive e hmem
      have hsame : ∀ x ∈ s.csa.settling, x.id = id → x = e := fun x hx hxid => h.eq_of_id hx hmem (hxid.trans hid.symm)
      split
      · next hlast =>
        have hshort : (s.csa.settling.filter fun x => x.id != id).length + 1 ≤ s.csa.settling.length :=
          List.length_filter_lt_length_iff_exists.2 ⟨e, hmem, by rw [hid]; simp⟩
        refine ⟨?_, State.onlyRaises.trans (State.onlyRaises_of_ew (t := { s with csa := { s.csa with
          settling := s.csa.settling.filter fun x => x.id != id } }) rfl) (State.emit_onlyRaises _ _ _ _ _ _), ?_, ?_⟩
        · rw [State.emit_csa]
          exact (settleOff_last h.positive (fun x hx hxid => hsame x hx hxid ▸ hlast) hall hother').symm
        · rw [State.emit_csa]
          obtain ⟨-, he⟩ | ⟨-, he⟩ := State.emit_spec { s with csa := { s.csa with
            settling := s.csa.settling.filter fun x => x.id != id } } .setSettled 0 (BitVec.ofNat 16 e.label.toNat)
            (BitVec.ofNat 32 e.entries) (BitVec.ofNat 32 (e.interrupted + interrupted.toNat)) <;> rw [he] <;> dsimp only
          · rw [List.length_append, List.length_singleton]
            omega
          · omega
        · intro x hx hxall hroom
          have hxid : x.id = id := by
            by_contra hne
            obtain ⟨hc, hd⟩ := hother' x.id hne
            have := h.positive x hx
            omega
          have hfree : s.ew.queue.length < Config.eventCapacity := by omega
          rw [hsame x hx hxid, hid, State.emit, if_pos hfree]
          refine List.mem_append_right _ (List.mem_singleton.2 ?_)
          rw [State.settledRecord, hcut]
      · next hmore =>
        have hlist := settleOff_more h.positive (fun x hx hxid => hsame x hx hxid ▸ not_le.1 hmore) hall hother'
        rw [hcut] at hlist
        refine ⟨hlist.symm, State.onlyRaises_of_ew rfl, ?_, fun x hx hxall _ => ?_⟩
        · show _ + (updateSet _ _ _).length ≤ _
          rw [updateSet, List.length_map]
        · by_cases hxid : x.id = id
          · rw [hsame x hx hxid, hid] at hxall
            omega
          · obtain ⟨hc, hd⟩ := hother' x.id hxid
            have := h.positive x hx
            omega

end Counts

end Sys2Proof.Machine

/-! What the operations of a request do to one destination, with its slot, its set and the arbiter's occasion (R39, R72). -/

namespace Sys2Proof.Machine

/-- What an operation of a request on destination `d` does: nothing to any other destination, no slot occupied, `cut id` slots
of each set interrupted and `ended id` settled, and a wanted flag noted as raised where `lift` says so. -/
structure Work.works (w v : Work) (d : Dest) (lift : Bool) (cut ended : Nat → Nat) : Prop extends w.acts v d where
  frees : w.onlyFrees v lift
  counts : w.st.counts v.st cut ended

/-- Such an operation with the record and the slot content that it leaves the destination. -/
structure Work.makes (w v : Work) (d : Dest) (r : DestRecord) (sl : Option RampSlot) (lift : Bool) (cut ended : Nat → Nat) :
    Prop extends w.works v d lift cut ended where
  record : v.st.record d = r
  content : v.st.slotOf d = sl

/-- The listed sets and the event writer stand. -/
def State.keepsSets (s t : State) : Prop := t.csa.settling = s.csa.settling ∧ t.ew = s.ew

section Works
variable {w v u : Work} {d : Dest} {n : SlotNo} {sl : RampSlot} {lift again : Bool} {cut ended cut' ended' : Nat → Nat}

theorem State.counts_of_keepsSets {s t : State} (h : s.setsListed) (k : s.keepsSets t) :
    s.counts t (fun _ => 0) fun _ => 0 :=
  State.counts_of_eq h k.1 k.2 fun _ _ => ⟨rfl, rfl⟩

theorem Work.works.trans (h : w.works v d lift cut ended) (k : v.works u d again cut' ended') :
    w.works u d (lift || again) (fun id => cut id + cut' id) fun id => ended id + ended' id :=
  ⟨h.toacts.trans k.toacts, h.frees.trans k.frees, h.counts.trans k.counts⟩

theorem Work.works.listed (h : w.works v d lift cut ended) (hl : w.st.setsListed) : v.st.setsListed := hl.counts h.counts

/-- An operation ahead of which nothing of the sets or the wanted flags has happened. -/
theorem Work.works.after (h : w.works v d false (fun _ => 0) fun _ => 0) (k : v.works u d lift cut ended) :
    w.works u d lift cut ended := by
  have hall := h.trans k
  simp only [Nat.zero_add, Bool.false_or] at hall
  exact hall

/-- An operation behind which nothing of the sets or the wanted flags happens. -/
theorem Work.works.before (h : w.works v d lift cut ended) (k : v.works u d false (fun _ => 0) fun _ => 0) :
    w.works u d lift cut ended := by
  have hall := h.trans k
  simp only [Nat.add_zero, Bool.or_false] at hall
  exact hall

theorem Work.works.toMakes (h : w.works v d lift cut ended) {r : DestRecord} {q : Option RampSlot}
    (hrecord : v.st.record d = r) (hslot : v.st.slotOf d = q) : w.makes v d r q lift cut ended :=
  ⟨h, hrecord, hslot⟩

theorem Work.works.refl (h : w.st.coreLaw) (hl : w.st.setsListed) (d : Dest) : w.works w d false (fun _ => 0) fun _ => 0 :=
  ⟨.refl h d, Work.onlyFrees_of_slots (fun _ => rfl) rfl rfl rfl, State.counts_of_keepsSets hl ⟨rfl, rfl⟩⟩

theorem Work.setRecord_works {r : DestRecord} (h : w.st.coreLaw) (hl : w.st.setsListed)
    (hslot : r.slot = (w.st.record d).slot) (hsrc : r.curSrc = (w.st.record d).curSrc) :
    w.works (w.setRecord d r) d false (fun _ => 0) fun _ => 0 :=
  ⟨Work.setRecord_acts h hslot hsrc, Work.setRecord_onlyFrees hslot, State.counts_of_keepsSets hl ⟨rfl, rfl⟩⟩

theorem Work.writeCurrent_keepsSets (w : Work) (d : Dest) (src : Source) (attn : Attn) :
    w.st.keepsSets (w.writeCurrent d src attn).st := by
  have hhold : ∀ (s : State) (o : Source), s.keepsSets (s.clearHolder o) := fun s o => by cases o <;> exact ⟨rfl, rfl⟩
  have htake : ∀ (s : State), s.keepsSets (s.takeHolder d src) := fun s => by cases src <;> exact ⟨rfl, rfl⟩
  have hload : ∀ (s : State) (a b : DestRecord), s.keepsSets (s.reportLoad d a b) := fun s a b => by
    unfold State.reportLoad
    split <;> exact ⟨rfl, rfl⟩
  rw [Work.writeCurrent]
  dsimp only [Work.mark_st]
  refine ⟨(htake _).1.trans ((hhold _ _).1.trans (hload _ _ _).1), (htake _).2.trans ((hhold _ _).2.trans (hload _ _ _).2)⟩

theorem Work.writeCurrent_works {src : Source} (h : w.st.coreLaw) (hl : w.st.setsListed) (hbuilt : w.st.isBuilt d = true)
    (hfree : w.st.otherHolder d src = none) (attn : Attn) :
    w.works (w.writeCurrent d src attn) d false (fun _ => 0) fun _ => 0 :=
  ⟨Work.writeCurrent_acts h hbuilt hfree attn, w.writeCurrent_onlyFrees d src attn,
    State.counts_of_keepsSets hl (w.writeCurrent_keepsSets d src attn)⟩

theorem Work.setPhase_keepsSets (w : Work) (n : SlotNo) (phase : Phase) (goal : Attn) :
    w.st.keepsSets (w.setPhase n phase goal).st := by
  unfold Work.setPhase
  split
  · exact ⟨rfl, rfl⟩
  · dsimp only
    split <;> exact ⟨rfl, rfl⟩

theorem Work.setPhase_works (h : w.st.coreLaw) (hl : w.st.setsListed) (hs : w.st.re.slots[n] = some sl) (phase : Phase)
    (goal : Attn) : w.works (w.setPhase n phase goal) sl.dest false (fun _ => 0) fun _ => 0 :=
  ⟨Work.setPhase_acts h hs phase goal, w.setPhase_onlyFrees n phase goal,
    State.counts_of_keepsSets hl (w.setPhase_keepsSets n phase goal)⟩

theorem Work.freeSlot_works (h : w.st.coreLaw) (hl : w.st.setsListed) (hs : w.st.re.slots[n] = some sl) :
    w.works (w.freeSlot n) sl.dest false (fun _ => 0) fun _ => 0 :=
  ⟨Work.freeSlot_acts h hs, Work.freeSlot_onlyFrees (h.slots n sl hs).2 hs,
    State.counts_of_keepsSets hl (by rw [Work.freeSlot_eq hs]; exact ⟨rfl, rfl⟩)⟩

theorem Work.releaseSet_works (h : w.st.coreLaw) (hl : w.st.setsListed) (serves : Option Nat) (interrupted : Bool) (d : Dest) :
    w.works { w with st := w.st.releaseSet serves interrupted } d false
      (fun id => if interrupted then oneOf serves id else 0) fun id => if interrupted then 0 else oneOf serves id :=
  ⟨Work.releaseSet_acts h serves interrupted d, w.releaseSet_onlyFrees serves interrupted,
    State.releaseSet_counts hl serves interrupted⟩

theorem Work.interruptSlot_works (h : w.st.coreLaw) (hl : w.st.setsListed) (hs : w.st.re.slots[n] = some sl) :
    w.works (w.interruptSlot n) sl.dest false (oneOf sl.serves) fun _ => 0 := by
  have hrelease := Work.releaseSet_works h hl sl.serves true sl.dest
  rw [Work.interruptSlot, hs]
  exact hrelease.before (Work.freeSlot_works hrelease.core (hrelease.listed hl) (by dsimp only; rw [State.releaseSet_re]; exact hs))

theorem Work.settleSlot_works (h : w.st.coreLaw) (hl : w.st.setsListed) (hs : w.st.re.slots[n] = some sl) :
    w.works (w.settleSlot n) sl.dest false (fun _ => 0) (oneOf sl.serves) := by
  have hrelease := Work.releaseSet_works h hl sl.serves false sl.dest
  rw [Work.settleSlot, hs]
  exact hrelease.before (Work.freeSlot_works hrelease.core (hrelease.listed hl) (by dsimp only; rw [State.releaseSet_re]; exact hs))

/-! ### Phase evaluation (R72) -/

/-- The sets' count of a destination that had the slot content `held` and is left with `left`. -/
def endedOf (held left : Option RampSlot) (id : Nat) : Nat := if left = none then oneOf (held.bind RampSlot.serves) id else 0

theorem endedOf_none (sl : RampSlot) : endedOf (some sl) none = oneOf sl.serves := funext fun _ => if_pos rfl

theorem endedOf_of_none (left : Option RampSlot) : endedOf none left = fun _ => 0 := funext fun _ => ite_self _

theorem endedOf_some (held : Option RampSlot) (q : RampSlot) : endedOf held (some q) = fun _ => 0 := funext fun _ => if_neg nofun

theorem Work.evaluateGoal_works (h : w.st.coreLaw) (hl : w.st.setsListed) (hs : w.st.re.slots[n] = some sl) :
    w.works (w.evaluateGoal n sl.dest) sl.dest false (fun _ => 0)
      (endedOf (some sl) ((w.st.record sl.dest).towardTarget sl.dest sl).2) := by
  unfold Work.evaluateGoal DestRecord.towardTarget
  dsimp only
  split
  · rw [endedOf_none]
    exact Work.settleSlot_works h hl hs
  · split
    · rw [endedOf_some]
      exact Work.setPhase_works h hl hs _ _
    · rw [endedOf_some]
      exact Work.setPhase_works h hl hs _ _

theorem Work.evaluate_works (h : w.st.coreLaw) (hl : w.st.setsListed) (hs : w.st.re.slots[n] = some sl)
    (hbuilt : w.st.isBuilt sl.dest = true) :
    w.works (w.evaluate n) sl.dest false (fun _ => 0) (endedOf (some sl) ((w.st.record sl.dest).phased sl.dest sl
      (w.st.otherHolder sl.dest (w.st.record sl.dest).intentSrc).isSome).2) := by
  have hslots : ∀ src, (w.writeCurrent sl.dest src dark).st.re.slots[n] = some sl := fun src => by
    rw [(w.writeCurrent_slots sl.dest src dark).1, hs]
  unfold Work.evaluate DestRecord.phased
  rw [hs]
  dsimp only
  split
  · exact Work.evaluateGoal_works h hl hs
  · split
    · rw [endedOf_some]
      exact Work.setPhase_works h hl hs _ _
    · next hattn =>
      split
      · rw [endedOf_some]
        unfold Work.enterPortWait
        split
        · exact Work.setPhase_works h hl hs _ _
        · have hwrite := Work.writeCurrent_works h hl hbuilt (State.otherHolder_none w.st sl.dest) dark
          exact hwrite.after (Work.setPhase_works hwrite.core (hwrite.listed hl) (hslots _) _ _)
      · next hheld =>
        have hnone := Option.not_isSome_iff_eq_none.1 hheld
        have hwrite := Work.writeCurrent_works h hl hbuilt hnone dark
        have hgoal := Work.evaluateGoal_works hwrite.core (hwrite.listed hl) (hslots _)
        have hdark : (w.st.record sl.dest).curAttn = dark := Classical.not_not.1 hattn
        rw [Work.writeCurrent_record, if_pos rfl, ← hdark] at hgoal
        rw [← hdark] at hwrite
        rw [← hdark]
        exact hwrite.after hgoal

/-- A record whose slot phase evaluation frees is left without slot, and any other keeps it. -/
theorem DestRecord.phased_slot (d : Dest) (r : DestRecord) (sl : RampSlot) (held : Bool) :
    (r.phased d sl held).1.slot = if (r.phased d sl held).2 = none then none else r.slot := by
  have htoward : ∀ q : DestRecord, (q.towardTarget d sl).1.slot = if (q.towardTarget d sl).2 = none then none else q.slot :=
    fun q => by
      unfold DestRecord.towardTarget
      dsimp only
      split
      · rfl
      · split <;> rfl
  unfold DestRecord.phased
  split
  · exact htoward r
  · split
    · rfl
    · split
      · rfl
      · exact htoward _

/-- Phase evaluation with what it leaves of the destination's record and slot (R72). -/
theorem Work.evaluate_makes (h : w.st.coreLaw) (hl : w.st.setsListed) (hs : w.st.re.slots[n] = some sl)
    (hbuilt : w.st.isBuilt sl.dest = true) (hw : sl.phase = .portWait → (w.st.record sl.dest).curSrc = .none) :
    let phased := (w.st.record sl.dest).phased sl.dest sl
      (w.st.otherHolder sl.dest (w.st.record sl.dest).intentSrc).isSome
    w.makes (w.evaluate n) sl.dest phased.1 phased.2 false (fun _ => 0) (endedOf (some sl) phased.2) := by
  intro phased
  have hleaves := Work.evaluate_leavesSlot hs hw
  refine (Work.evaluate_works h hl hs hbuilt).toMakes hleaves.record ?_
  have hslot : ((w.evaluate n).st.record sl.dest).slot = if phased.2 = none then none else some n := by
    rw [hleaves.record, DestRecord.phased_slot, (h.slots n sl hs).2]
  by_cases hnone : phased.2 = none
  · rw [if_pos hnone] at hslot
    rw [State.slotOf_none hslot, hnone]
  · rw [if_neg hnone] at hslot
    rw [State.slotOf_some hslot]
    exact hleaves.slot

end Works

end Sys2Proof.Machine

/-! The requests of the MU, the LM and the ramp on one destination (R6, R8, R9, R59, R68). -/

namespace Sys2Proof.Machine

section Single
variable {s : State} {w v u : Work} {d : Dest} {n : SlotNo} {sl : RampSlot} {lift again : Bool} {cut ended cut' ended' : Nat → Nat}

/-- A destination has no slot, or the slot that names it. -/
theorem State.coreLaw.slot_cases (h : s.coreLaw) (d : Dest) : ((s.record d).slot = none ∧ s.slotOf d = none) ∨
    ∃ n sl, (s.record d).slot = some n ∧ s.re.slots[n] = some sl ∧ sl.dest = d ∧ s.slotOf d = some sl := by
  cases hslot : (s.record d).slot with
  | none => exact .inl ⟨rfl, State.slotOf_none hslot⟩
  | some n =>
    obtain ⟨sl, hsl, hd⟩ := h.slotNames d n hslot
    exact .inr ⟨n, sl, rfl, hsl, hd, by rw [State.slotOf_some hslot, hsl]⟩

theorem State.otherHolder_of_not_port {src : Source} (h : ∀ p, src ≠ .port p) (s : State) (d : Dest) :
    s.otherHolder d src = none := by
  cases src with
  | port p => exact absurd rfl (h p)
  | none | express k | drop k m => rfl

/-- An operation on the record alone, with the same slot and the same current source. -/
theorem Work.setRecord_makes {r : DestRecord} (h : w.st.coreLaw) (hl : w.st.setsListed)
    (hslot : r.slot = (w.st.record d).slot) (hsrc : r.curSrc = (w.st.record d).curSrc) :
    w.makes (w.setRecord d r) d r (w.st.slotOf d) false (fun _ => 0) fun _ => 0 := by
  refine (Work.setRecord_works h hl hslot hsrc).toMakes (State.record_setRecord_same _ _ _) ?_
  refine State.slotOf_congr ?_ fun _ _ => rfl
  rw [Work.setRecord_st, State.record_setRecord_same, hslot]

theorem Work.makes.marked {r : DestRecord} {q : Option RampSlot} (h : w.makes v d r q lift cut ended) :
    w.makes (v.mark d) d r q lift cut ended :=
  (⟨h.toacts.trans (Work.mark_acts h.core d), by simpa using h.frees.trans (v.mark_onlyFrees d),
    ⟨h.counts.settling, h.counts.raises, h.counts.room, h.counts.recorded⟩⟩ : w.works (v.mark d) d lift cut ended).toMakes
    h.record h.content

theorem Work.writeCurrent_marked (w : Work) (d : Dest) (src : Source) (attn : Attn) : d ∈ (w.writeCurrent d src attn).marks :=
  mem_insertDest.2 (.inl rfl)

theorem Work.writeCurrent_makes {src : Source} (h : w.st.coreLaw) (hl : w.st.setsListed) (hbuilt : w.st.isBuilt d = true)
    (hfree : w.st.otherHolder d src = none) (attn : Attn) :
    w.makes (w.writeCurrent d src attn) d { w.st.record d with curSrc := src, curAttn := attn } (w.st.slotOf d) false
      (fun _ => 0) fun _ => 0 := by
  refine (Work.writeCurrent_works h hl hbuilt hfree attn).toMakes (by rw [Work.writeCurrent_record, if_pos rfl]) ?_
  exact State.slotOf_congr (w.writeCurrent_slot d src attn d) fun _ _ => by rw [(w.writeCurrent_slots d src attn).1]

/-! ### Re-evaluation -/

/-- What re-evaluation makes of a destination's record and slot: a slot is phase-evaluated, and a destination without one has
its wanted flag follow its rest (R6, R11, R72). -/
def DestRecord.reevaluated (d : Dest) (r : DestRecord) (held : Option RampSlot) (claimed : Bool) :
    DestRecord × Option RampSlot :=
  match held with
  | some sl => r.phased d sl claimed
  | none => ({ r with wanted := !atRest d r }, none)

/-- A destination re-evaluated, with or without a slot. -/
def Work.reevaluate (w : Work) (d : Dest) : Work :=
  match (w.st.record d).slot with
  | some n => w.evaluate n
  | none => w.reevaluateWanted d

/-- Whether a re-evaluation raises the wanted flag. -/
def DestRecord.rises (d : Dest) (r : DestRecord) (held : Option RampSlot) : Bool := held.isNone && !atRest d r && !r.wanted

theorem Work.reevaluate_makes (h : w.st.coreLaw) (hl : w.st.setsListed) (hbuilt : w.st.isBuilt d = true)
    (hwait : ∀ sl, w.st.slotOf d = some sl → sl.phase = .portWait → (w.st.record d).curSrc = .none) :
    let left := (w.st.record d).reevaluated d (w.st.slotOf d)
      (w.st.otherHolder d (w.st.record d).intentSrc).isSome
    w.makes (w.reevaluate d) d left.1 left.2 ((w.st.record d).rises d (w.st.slotOf d)) (fun _ => 0)
      (endedOf (w.st.slotOf d) left.2) := by
  obtain ⟨hslot, hof⟩ | ⟨n, sl, hslot, hs, rfl, hof⟩ := h.slot_cases d
  · simp only [hof, endedOf_of_none]
    unfold Work.reevaluate DestRecord.reevaluated
    rw [hslot]
    have hset := Work.setRecord_makes (r := { w.st.record d with wanted := !atRest d (w.st.record d) }) h hl rfl rfl
    rw [hof] at hset
    have hraised : ((w.reevaluateWanted d).raised) = (w.raised || (w.st.record d).rises d none) := by
      unfold Work.reevaluateWanted DestRecord.rises
      rw [Option.isNone_none, Bool.true_and]
    exact ⟨⟨⟨hset.core, hset.outside, hset.others, hset.slotOf, hset.claims, hset.sorted, hset.mono, hset.only⟩,
      ⟨hset.frees.slot, hset.frees.freed, hraised, hset.frees.list⟩, hset.counts⟩, hset.record.trans (by dsimp only; rw [hslot]),
      hset.content⟩
  · simp only [hof]
    unfold Work.reevaluate DestRecord.reevaluated DestRecord.rises
    rw [hslot]
    exact Work.evaluate_makes h hl hs hbuilt (hwait sl hof)

theorem Work.makes.after {r r' : DestRecord} {q q' : Option RampSlot} (h : w.makes v d r q false (fun _ => 0) fun _ => 0)
    (k : v.makes u d r' q' lift cut ended) : w.makes u d r' q' lift cut ended :=
  (h.toworks.after k.toworks).toMakes k.record k.content

theorem Work.makes.before {r r' : DestRecord} {q q' : Option RampSlot} (h : w.makes v d r q lift cut ended)
    (k : v.makes u d r' q' false (fun _ => 0) fun _ => 0) : w.makes u d r' q' lift cut ended :=
  (h.toworks.before k.toworks).toMakes k.record k.content

/-! ### The blocked-flag request (R6) -/

theorem Work.changeBlocked_makes (h : w.st.coreLaw) (hl : w.st.setsListed) (hbuilt : w.st.isBuilt d = true)
    (hwait : ∀ sl, w.st.slotOf d = some sl → sl.phase = .portWait → (w.st.record d).curSrc = .none) (b : Bool) :
    let r := { w.st.record d with blocked := b }
    let left := r.reevaluated d (w.st.slotOf d) (w.st.otherHolder d r.intentSrc).isSome
    w.makes (w.changeBlocked d b) d left.1 left.2 (r.rises d (w.st.slotOf d)) (fun _ => 0)
      (endedOf (w.st.slotOf d) left.2) ∧ d ∈ (w.changeBlocked d b).marks := by
  intro r left
  have hset := (Work.setRecord_makes (d := d) (r := r) h hl rfl rfl).marked
  have hrun := Work.reevaluate_makes (d := d) hset.core (hset.listed hl) hbuilt (by
    rw [hset.content, hset.record]
    exact hwait)
  rw [hset.record, hset.content] at hrun
  have hall := hset.after hrun
  exact ⟨hall, hrun.mono d (mem_insertDest.2 (.inl rfl))⟩

/-! ### Forcing and unforcing (R8, R9) -/

theorem Work.cancelSlot_makes (h : w.st.coreLaw) (hl : w.st.setsListed) (d : Dest) :
    w.makes (w.cancelSlot d) d { w.st.record d with slot := none } none false (endedOf (w.st.slotOf d) none) fun _ => 0 := by
  obtain ⟨hslot, hof⟩ | ⟨n, sl, hslot, hs, rfl, hof⟩ := h.slot_cases d
  · unfold Work.cancelSlot
    rw [hslot, hof, endedOf_of_none]
    refine (Work.works.refl h hl d).toMakes ?_ hof
    rw [← hslot]
  · unfold Work.cancelSlot
    rw [hslot, hof, endedOf_none]
    have hrecord : ((w.interruptSlot n).st.record sl.dest) = { w.st.record sl.dest with slot := none } := by
      rw [Work.interruptSlot, hs]
      dsimp only
      rw [Work.freeSlot_eq (sl := sl) (by dsimp only; rw [State.releaseSet_re]; exact hs)]
      refine (State.record_setRecord_same _ _ _).trans ?_
      dsimp only
      rw [State.record_congr (t := w.st.releaseSet sl.serves true) (s := w.st) (by rw [State.releaseSet_dt])]
    exact (Work.interruptSlot_works h hl hs).toMakes hrecord (State.slotOf_none (by rw [hrecord]))

theorem Work.makes.as {r r' : DestRecord} {q q' : Option RampSlot} (h : w.makes v d r q lift cut ended) (hr : r = r')
    (hq : q = q') : w.makes v d r' q' lift cut ended := hr ▸ hq ▸ h

theorem Work.acts.isBuilt (h : w.acts v d) (e : Dest) : v.st.isBuilt e = w.st.isBuilt e := by
  unfold State.isBuilt
  rw [h.outside.pu]

theorem Work.forceDest_makes (h : w.st.coreLaw) (hl : w.st.setsListed) (hbuilt : w.st.isBuilt d = true)
    (hfed : ∀ p, (w.st.record d).intentSrc ≠ .port p) :
    w.makes (w.forceDest d) d { w.st.record d with
      forced := true, slot := none, wanted := false, curSrc := (w.st.record d).intentSrc, curAttn := dark } none false
      (endedOf (w.st.slotOf d) none) (fun _ => 0) ∧ d ∈ (w.forceDest d).marks := by
  have hforce := Work.setRecord_makes (d := d) (r := { w.st.record d with forced := true }) h hl rfl rfl
  have hcancel := Work.cancelSlot_makes hforce.core (hforce.listed hl) d
  rw [hforce.content, hforce.record] at hcancel
  have hfirst := hforce.after hcancel
  have hclear := Work.setRecord_makes (d := d)
    (r := { ((w.setRecord d { w.st.record d with forced := true }).cancelSlot d).st.record d with wanted := false })
    hfirst.core (hfirst.listed hl) rfl rfl
  have hsecond := hfirst.before hclear
  have hwrite := Work.writeCurrent_makes (d := d) (src := (((((w.setRecord d { w.st.record d with forced := true }).cancelSlot
    d).setRecord d { ((w.setRecord d { w.st.record d with forced := true }).cancelSlot d).st.record d with
      wanted := false })).st.record d).intentSrc) hsecond.core (hsecond.listed hl) ((hsecond.isBuilt d).trans hbuilt)
    (State.otherHolder_of_not_port (by rw [hsecond.record, hfirst.record]; exact hfed) _ _) dark
  refine ⟨(hsecond.before hwrite).as ?_ (hsecond.content.trans hfirst.content), Work.writeCurrent_marked _ _ _ _⟩
  rw [hsecond.record, hfirst.record]

/-- The record of a destination released: the wanted flag of a line destination without slot follows its rest, and a drop is
written to its target (R9). -/
def DestRecord.released (d : Dest) (r : DestRecord) : DestRecord :=
  let q := { r with forced := false }
  if isLine d then { q with wanted := if q.slot = none then !atRest d q else q.wanted }
  else { q with curSrc := q.intentSrc, curAttn := effectiveTarget d q }

/-- Whether a release raises the wanted flag. -/
def DestRecord.releaseRises (d : Dest) (r : DestRecord) : Bool :=
  isLine d && r.slot.isNone && !atRest d { r with forced := false } && !r.wanted

theorem atRest_iff {r : DestRecord} : atRest d r = true ↔ r.curSrc = r.intentSrc ∧ r.curAttn = effectiveTarget d r := by
  rw [atRest, Bool.and_eq_true, beq_iff_eq, beq_iff_eq]

theorem Work.reevaluateDrop_makes (h : w.st.coreLaw) (hl : w.st.setsListed) (hbuilt : w.st.isBuilt d = true)
    (hfed : ∀ p, (w.st.record d).intentSrc ≠ .port p) :
    w.makes (w.reevaluateDrop d) d { w.st.record d with
      curSrc := (w.st.record d).intentSrc, curAttn := effectiveTarget d (w.st.record d) } (w.st.slotOf d) false
      (fun _ => 0) fun _ => 0 := by
  unfold Work.reevaluateDrop
  dsimp only
  split
  · next hrest =>
    obtain ⟨hsrc, hattn⟩ := atRest_iff.1 hrest
    have hsame : ∀ (r : DestRecord) (src : Source) (attn : Attn), r.curSrc = src → r.curAttn = attn →
        r = { r with curSrc := src, curAttn := attn } := by
      rintro r _ _ rfl rfl
      rfl
    exact (Work.works.refl h hl d).toMakes (hsame _ _ _ hsrc hattn) rfl
  · exact Work.writeCurrent_makes h hl hbuilt (State.otherHolder_of_not_port hfed _ _) _

theorem Work.unforceDest_makes (h : w.st.coreLaw) (hl : w.st.setsListed) (hbuilt : w.st.isBuilt d = true)
    (hfed : ∀ p, (w.st.record d).intentSrc ≠ .port p) :
    w.makes (w.unforceDest d) d ((w.st.record d).released d) (w.st.slotOf d) ((w.st.record d).releaseRises d)
      (fun _ => 0) (fun _ => 0) ∧ d ∈ (w.unforceDest d).marks := by
  have hset := (Work.setRecord_makes (d := d) (r := { w.st.record d with forced := false }) h hl rfl rfl).marked
  have hmark : d ∈ ((w.setRecord d { w.st.record d with forced := false }).mark d).marks := mem_insertDest.2 (.inl rfl)
  have hwslot : (((w.setRecord d { w.st.record d with forced := false }).mark d).st.record d).slot = (w.st.record d).slot := by
    rw [hset.record]
  unfold DestRecord.releaseRises DestRecord.released
  dsimp only
  by_cases hline : isLine d = true
  · rw [hline, if_pos rfl]
    obtain ⟨hslot, hof⟩ | ⟨n, sl, hslot, -, -, hof⟩ := h.slot_cases d
    · have hrun := Work.reevaluate_makes (d := d) hset.core (hset.listed hl) ((hset.isBuilt d).trans hbuilt) (by
        rw [hset.content, hof]
        nofun)
      dsimp only at hrun
      rw [hset.record, hset.content, hof, endedOf_of_none] at hrun
      have heq : w.unforceDest d = ((w.setRecord d { w.st.record d with forced := false }).mark d).reevaluate d := by
        unfold Work.unforceDest Work.reevaluate
        dsimp only
        rw [if_pos hline, hwslot, hslot]
      rw [heq, hof, if_pos hslot, hslot, Option.isNone_none]
      exact ⟨(hset.after hrun).as (by rw [DestRecord.reevaluated]; dsimp only; rw [hslot]) rfl, hrun.mono d hmark⟩
    · have heq : w.unforceDest d = (w.setRecord d { w.st.record d with forced := false }).mark d := by
        unfold Work.unforceDest
        dsimp only
        rw [if_pos hline, hwslot, hslot]
      rw [heq, if_neg (by rw [hslot]; exact nofun), hslot]
      exact ⟨hset.as (by rw [← hslot]) rfl, hmark⟩
  · have hrun := Work.reevaluateDrop_makes (d := d) hset.core (hset.listed hl) ((hset.isBuilt d).trans hbuilt) (by
      rw [hset.record]
      exact hfed)
    have heq : w.unforceDest d = ((w.setRecord d { w.st.record d with forced := false }).mark d).reevaluateDrop d := by
      unfold Work.unforceDest
      dsimp only
      rw [if_neg hline]
    rw [heq, if_neg hline, Bool.eq_false_iff.2 hline, Bool.false_and, Bool.false_and, Bool.false_and]
    have hmono := hrun.mono d hmark
    rw [hset.record, hset.content] at hrun
    exact ⟨hset.after hrun, hmono⟩

theorem Work.flagForced_makes (h : w.st.coreLaw) (hl : w.st.setsListed) (d : Dest) (b : Bool) :
    w.makes (w.flagForced d b) d { w.st.record d with forced := b } (w.st.slotOf d) false (fun _ => 0) (fun _ => 0) ∧
      d ∈ (w.flagForced d b).marks :=
  ⟨(Work.setRecord_makes (r := { w.st.record d with forced := b }) h hl rfl rfl).marked, mem_insertDest.2 (.inl rfl)⟩

/-! ### A holder displaced (R59) -/

theorem Work.displace_makes (h : w.st.coreLaw) (hl : w.st.setsListed) (hbuilt : w.st.isBuilt d = true) :
    let r := { w.st.record d with curSrc := .none, curAttn := dark }
    let left := r.reevaluated d (w.st.slotOf d) ((w.writeCurrent d .none dark).st.otherHolder d r.intentSrc).isSome
    w.makes (w.displace d) d left.1 left.2 ((w.st.slotOf d).isNone && !atRest d r) (fun _ => 0)
      (endedOf (w.st.slotOf d) left.2) := by
  have hwrite := Work.writeCurrent_makes h hl hbuilt (State.otherHolder_none w.st d) dark
  have hrun := Work.reevaluate_makes (d := d) hwrite.core (hwrite.listed hl) ((hwrite.isBuilt d).trans hbuilt) (by
    rw [hwrite.record]
    exact fun _ _ _ => rfl)
  rw [hwrite.record, hwrite.content] at hrun
  have hall := hwrite.after hrun
  obtain ⟨hslot, hof⟩ | ⟨n, sl, hslot, -, -, hof⟩ := h.slot_cases d
  · rw [hof] at hall
    have hwslot : ((w.writeCurrent d .none dark).st.record d).slot = none := by rw [hwrite.record]; exact hslot
    have hwanted : (((w.writeCurrent d .none dark).reevaluateWanted d).st.record d).wanted =
        !atRest d { w.st.record d with curSrc := .none, curAttn := dark } := by
      rw [Work.reevaluateWanted, hwrite.record]
      exact congrArg DestRecord.wanted (State.record_setRecord_same _ _ _)
    have heq : w.displace d = { (w.writeCurrent d .none dark).reevaluate d with
        raised := ((w.writeCurrent d .none dark).reevaluate d).raised ||
          !atRest d { w.st.record d with curSrc := .none, curAttn := dark } } := by
      unfold Work.displace Work.reevaluate
      dsimp only
      rw [hwslot]
      dsimp only
      rw [hwanted]
    rw [heq, hof]
    refine ⟨⟨⟨hall.core, hall.outside, hall.others, hall.slotOf, hall.claims, hall.sorted, hall.mono, hall.only⟩,
      ⟨hall.frees.slot, hall.frees.freed, ?_, hall.frees.list⟩, hall.counts⟩, hall.record, hall.content⟩
    dsimp only
    rw [hall.frees.raised, DestRecord.rises, Bool.or_assoc, Option.isNone_none, Bool.true_and]
    cases atRest d { w.st.record d with curSrc := .none, curAttn := dark } <;> simp
  · have hwslot : ((w.writeCurrent d .none dark).st.record d).slot = some n := by rw [hwrite.record]; exact hslot
    have heq : w.displace d = (w.writeCurrent d .none dark).reevaluate d := by
      unfold Work.displace Work.reevaluate
      dsimp only
      rw [hwslot]
    rw [heq]
    rw [hof] at hall ⊢
    exact hall

/-! ### A step of a pass (R68) -/

/-- A destination's own current source is no other destination's. -/
theorem State.coreLaw.otherHolder_own (h : s.coreLaw) (hmap : s.mapStands) (hbuilt : s.isBuilt d = true) :
    s.otherHolder d (s.record d).curSrc = none :=
  State.otherHolder_eq_none_iff.2 fun p e hp he =>
    Option.some.inj (he.symm.trans ((h.holders hmap p d).2 ⟨hbuilt, hp⟩))

theorem Work.rampStep_makes (h : w.st.coreLaw) (hl : w.st.setsListed) (hs : w.st.re.slots[n] = some sl)
    (hmap : w.st.mapStands) (hbuilt : w.st.isBuilt sl.dest = true)
    (hw : sl.phase = .portWait → (w.st.record sl.dest).curSrc = .none) (a : Attn) :
    let r := { w.st.record sl.dest with curAttn := a }
    let left := if a = sl.goal then r.phased sl.dest sl
      ((w.writeCurrent sl.dest r.curSrc a).st.otherHolder sl.dest r.intentSrc).isSome else (r, some sl)
    w.makes (w.rampStep n sl a) sl.dest left.1 left.2 false (fun _ => 0) (endedOf (some sl) left.2) := by
  have hwrite := Work.writeCurrent_makes h hl hbuilt (h.otherHolder_own hmap hbuilt) a
  have hslots : (w.writeCurrent sl.dest (w.st.record sl.dest).curSrc a).st.re.slots[n] = some sl := by
    rw [(w.writeCurrent_slots _ _ _).1, hs]
  rw [h.slotOf_of_slots hs] at hwrite
  unfold Work.rampStep
  dsimp only
  split
  · have hrun := Work.evaluate_makes hwrite.core (hwrite.listed hl) hslots ((hwrite.isBuilt _).trans hbuilt) (by
      rw [hwrite.record]
      exact hw)
    rw [hwrite.record] at hrun
    exact hwrite.after hrun
  · rw [endedOf_some]
    exact hwrite

end Single

end Sys2Proof.Machine

/-! The table laws destination by destination (R7, R11, R12, R21, R72). -/

namespace Sys2Proof.Machine

/-! ### The law of one destination -/

/-- The laws of one destination's record: `iso` is its intent's isolated indication, `built` whether an adoption has built
it, `adopting` whether one is under way (R2, R7, R11, R21, R152). -/
structure DestRecord.sane (d : Dest) (r : DestRecord) (iso built adopting : Bool) : Prop where
  intent : legalSource d r.intentSrc
  current : legalSource d r.curSrc
  darkNone : r.curSrc = .none → r.curAttn = dark
  drop : isLine d = false → r.blocked = false ∧ r.wanted = false ∧ r.slot = none
  slotless : adopting = true → r.slot = none
  rebuilt : adopting = true → built = true → r.curSrc = r.intentSrc
  wanted : r.wanted = true → r.slot = none ∧ r.forced = false
  unbuilt : built = false → r.wanted = false
  forcedFlag : r.forced = iso
  forcedRest : r.forced = true → r.slot = none ∧ (built = true → r.curSrc = r.intentSrc ∧ r.curAttn = dark)

/-- A slot's goal and phase follow its destination's record (R72). -/
structure RampSlot.follows (d : Dest) (r : DestRecord) (sl : RampSlot) : Prop where
  dims : sl.phase = .dimming → r.curAttn.toNat < sl.goal.toNat
  brightens : sl.phase = .brightening → sl.goal.toNat < r.curAttn.toNat
  waiting : sl.phase = .portWait → r.curSrc = .none ∧ r.intentSrc ≠ .none
  toTarget : r.curSrc = r.intentSrc → sl.goal = effectiveTarget d r
  toDark : r.curSrc ≠ r.intentSrc → sl.goal = dark

/-- The law of one destination with its slot. -/
structure DestRecord.lawful (d : Dest) (r : DestRecord) (held : Option RampSlot) (iso built adopting : Bool) : Prop
    extends r.sane d iso built adopting where
  follows : ∀ sl, held = some sl → sl.follows d r

section Records
variable {d : Dest} {r : DestRecord} {sl : RampSlot} {held : Option RampSlot} {claimed iso built adopting : Bool}

/-- A record with the same intent source, current, flags and slot is as sane. -/
theorem DestRecord.sane.congr (h : r.sane d iso built adopting) {q : DestRecord} (hintent : q.intentSrc = r.intentSrc)
    (hcurrent : q.curSrc = r.curSrc) (hattn : q.curAttn = r.curAttn) (hblocked : isLine d = false → q.blocked = r.blocked)
    (hforced : q.forced = r.forced) (hwanted : q.wanted = r.wanted) (hslot : q.slot = r.slot) : q.sane d iso built adopting where
  intent := hintent ▸ h.intent
  current := hcurrent ▸ h.current
  darkNone := by rw [hcurrent, hattn]; exact h.darkNone
  drop := fun hd => by rw [hblocked hd, hwanted, hslot]; exact h.drop hd
  slotless := by rw [hslot]; exact h.slotless
  rebuilt := by rw [hcurrent, hintent]; exact h.rebuilt
  wanted := by rw [hwanted, hslot, hforced]; exact h.wanted
  unbuilt := by rw [hwanted]; exact h.unbuilt
  forcedFlag := hforced.trans h.forcedFlag
  forcedRest := by rw [hforced, hslot, hcurrent, hintent, hattn]; exact h.forcedRest

theorem toNat_lt_dark {a : Attn} (h : a ≠ dark) : a.toNat < dark.toNat := by
  have hmax : dark.toNat = 255 := rfl
  have hle := a.isLt
  have hne : a.toNat ≠ dark.toNat := fun he => h (BitVec.eq_of_toNat_eq he)
  omega

/-- A record in a slot is neither forced, wanted nor under adoption, and it is a line destination's. -/
theorem DestRecord.sane.slotted (h : r.sane d iso built adopting) (hslot : r.slot ≠ none) :
    r.forced = false ∧ r.wanted = false ∧ adopting = false ∧ isLine d = true := by
  refine ⟨?_, ?_, ?_, ?_⟩
  · by_contra hf
    exact hslot (h.forcedRest ((Bool.not_eq_false _).mp hf)).1
  · by_contra hf
    exact hslot (h.wanted ((Bool.not_eq_false _).mp hf)).1
  · by_contra hf
    exact hslot (h.slotless ((Bool.not_eq_false _).mp hf))
  · by_contra hf
    exact hslot (h.drop ((Bool.not_eq_true _).mp hf)).2.2

/-- Of a record in its slot the current may be replaced by a legal one. -/
theorem DestRecord.sane.moved (h : r.sane d iso built adopting) (hslot : r.slot ≠ none) {q : DestRecord}
    (hintent : q.intentSrc = r.intentSrc) (hcurrent : legalSource d q.curSrc) (hdark : q.curSrc = .none → q.curAttn = dark)
    (hblocked : q.blocked = r.blocked) (hforced : q.forced = r.forced) (hwanted : q.wanted = r.wanted) :
    q.sane d iso built adopting := by
  obtain ⟨hf, hw, ha, hline⟩ := h.slotted hslot
  have hnot : isLine d ≠ false := by rw [hline]; exact nofun
  exact {
    intent := hintent ▸ h.intent
    current := hcurrent
    darkNone := hdark
    drop := fun hd => absurd hd hnot
    slotless := fun had => absurd had (by rw [ha]; exact nofun)
    rebuilt := fun had => absurd had (by rw [ha]; exact nofun)
    wanted := fun hq => absurd (hwanted ▸ hq) (by rw [hw]; exact nofun)
    unbuilt := fun _ => hwanted.trans hw
    forcedFlag := hforced.trans h.forcedFlag
    forcedRest := fun hq => absurd (hforced ▸ hq) (by rw [hf]; exact nofun) }

theorem DestRecord.towardTarget_follows {q : RampSlot} (hsrc : r.curSrc = r.intentSrc) (hq : (r.towardTarget d sl).2 = some q) :
    q.follows d (r.towardTarget d sl).1 := by
  unfold DestRecord.towardTarget at hq ⊢
  dsimp only at hq ⊢
  split at hq
  · cases hq
  · next hne =>
    rw [if_neg hne]
    split at hq
    · next hlt =>
      obtain rfl := Option.some.inj hq
      rw [if_pos hlt]
      exact ⟨fun _ => hlt, nofun, nofun, fun _ => rfl, fun hn => absurd hsrc hn⟩
    · next hlt =>
      obtain rfl := Option.some.inj hq
      rw [if_neg hlt]
      refine ⟨nofun, fun _ => ?_, nofun, fun _ => rfl, fun hn => absurd hsrc hn⟩
      have hne' : r.curAttn.toNat ≠ (effectiveTarget d r).toNat := fun he => hne (BitVec.eq_of_toNat_eq he)
      dsimp only
      omega

/-- Step 3 of phase evaluation changes nothing of a record but the slot. -/
theorem DestRecord.towardTarget_record (d : Dest) (r : DestRecord) (sl : RampSlot) :
    (r.towardTarget d sl).1 = { r with slot := (r.towardTarget d sl).1.slot } := by
  unfold DestRecord.towardTarget
  dsimp only
  split
  · rfl
  · split <;> rfl

/-- What phase evaluation leaves of a record in its slot is lawful (R72). -/
theorem DestRecord.sane.phased (h : r.sane d iso built adopting) (hslot : r.slot ≠ none)
    (hclaimed : claimed = true → r.intentSrc ≠ .none) :
    (r.phased d sl claimed).1.lawful d (r.phased d sl claimed).2 iso built adopting := by
  have htoward : ∀ q : DestRecord, q.curSrc = q.intentSrc → q.intentSrc = r.intentSrc → (q.curSrc = .none → q.curAttn = dark) →
      q.blocked = r.blocked → q.forced = r.forced → q.wanted = r.wanted →
      (q.towardTarget d sl).1.lawful d (q.towardTarget d sl).2 iso built adopting := by
    intro q hsrc hintent hdark hblocked hforced hwanted
    refine ⟨h.moved hslot ?_ ?_ ?_ ?_ ?_ ?_, fun x hx => DestRecord.towardTarget_follows hsrc hx⟩
    all_goals rw [DestRecord.towardTarget_record]
    · exact hintent
    · rw [hsrc, hintent]
      exact h.intent
    · exact hdark
    · exact hblocked
    · exact hforced
    · exact hwanted
  unfold DestRecord.phased
  split
  · next hsrc => exact htoward r hsrc rfl h.darkNone rfl rfl rfl
  · next hsrc =>
    split
    · next hattn =>
      refine ⟨h, fun x hx => ?_⟩
      obtain rfl := Option.some.inj hx
      exact ⟨fun _ => toNat_lt_dark hattn, nofun, nofun, fun he => absurd he hsrc, fun _ => rfl⟩
    · next hattn =>
      have hdark : r.curAttn = dark := Classical.not_not.1 hattn
      split
      · next hc =>
        refine ⟨h.moved hslot rfl trivial (fun _ => hdark) rfl rfl rfl, fun x hx => ?_⟩
        obtain rfl := Option.some.inj hx
        exact ⟨nofun, nofun, fun _ => ⟨rfl, hclaimed hc⟩, fun he => absurd he.symm (hclaimed hc), fun _ => rfl⟩
      · exact htoward { r with curSrc := r.intentSrc } rfl rfl (fun _ => hdark) rfl rfl rfl

theorem effectiveTarget_forced (h : r.forced = true) : effectiveTarget d r = dark := if_pos (.inr (.inr h))

/-- What re-evaluation leaves of a record is lawful (R6, R11). -/
theorem DestRecord.sane.reevaluated (h : r.sane d iso built adopting) (hheld : held = none ↔ r.slot = none)
    (hline : isLine d = true) (hbuilt : built = true) (hclaimed : claimed = true → r.intentSrc ≠ .none) :
    (r.reevaluated d held claimed).1.lawful d (r.reevaluated d held claimed).2 iso built adopting := by
  have hnot : isLine d ≠ false := by rw [hline]; exact nofun
  cases held with
  | some sl => exact h.phased (fun hn => nomatch hheld.2 hn) hclaimed
  | none =>
    refine ⟨?_, nofun⟩
    exact {
      intent := h.intent
      current := h.current
      darkNone := h.darkNone
      drop := fun hd => absurd hd hnot
      slotless := h.slotless
      rebuilt := h.rebuilt
      wanted := fun hw => ⟨hheld.1 rfl, by
        by_contra hf
        have hforced : r.forced = true := (Bool.not_eq_false _).mp hf
        obtain ⟨hsrc, hattn⟩ := (h.forcedRest hforced).2 hbuilt
        have hrest : atRest d r = true := atRest_iff.2 ⟨hsrc, hattn.trans (effectiveTarget_forced hforced).symm⟩
        replace hw : (!atRest d r) = true := hw
        rw [hrest] at hw
        cases hw⟩
      unbuilt := fun hb => absurd hb (by rw [hbuilt]; exact nofun)
      forcedFlag := h.forcedFlag
      forcedRest := h.forcedRest }

end Records

/-! ### The law of every destination -/

/-- The law of a destination in a state. -/
def State.destLaw (s : State) (d : Dest) : Prop :=
  (s.record d).lawful d (s.slotOf d) (s.forcedFor (s.record d).intentSrc) (s.isBuilt d) s.pu.adoption.isSome

section Dests
variable {s t : State} {d : Dest}

theorem State.slotOf_eq_none_iff (h : s.coreLaw) : s.slotOf d = none ↔ (s.record d).slot = none := by
  refine ⟨fun hof => ?_, State.slotOf_none⟩
  obtain ⟨hslot, -⟩ | ⟨n, sl, -, -, -, hsome⟩ := h.slot_cases d
  · exact hslot
  · rw [hof] at hsome
    cases hsome

/-- A destination's law reads its record, its slot, the isolated indications and the adoption. -/
theorem State.destLaw.congr (h : s.destLaw d) (hrecord : t.record d = s.record d) (hslot : t.slotOf d = s.slotOf d)
    (hiso : t.dt.isolated = s.dt.isolated) (hpu : t.pu = s.pu) : t.destLaw d := by
  unfold State.destLaw State.isBuilt State.forcedFor at h ⊢
  rw [hrecord, hslot, hiso, hpu]
  exact h

end Dests

end Sys2Proof.Machine

/-! The slots that serve the settling sets, counted over the destinations (R42, R70). -/

namespace Sys2Proof.Machine

/-- The slots of a destination that serve a set: one or none. -/
def State.servesOf (s : State) (d : Dest) (id : Nat) : Nat := oneOf ((s.slotOf d).bind RampSlot.serves) id

section Serving
variable {s t : State} {d : Dest} {id : Nat} {cut ended : Nat → Nat}

theorem length_filter_eq_sum {α : Type} [Fintype α] (l : List α) (hl : l.Nodup) (hall : ∀ a, a ∈ l) (p : α → Bool) :
    (l.filter p).length = ∑ a, if p a = true then 1 else 0 := by
  classical
  rw [Finset.sum_boole, Nat.cast_id, ← List.toFinset_card_of_nodup (hl.filter _)]
  congr 1
  ext a
  simp [hall]

/-- The slots that serve a set for the destinations meant are counted destination by destination. -/
theorem State.coreLaw.servedFor_eq (h : s.coreLaw) (id : Nat) (hit : Dest → Bool) :
    s.servedFor id hit = ∑ d, if hit d = true then s.servesOf d id else 0 := by
  have hslot : ∀ n : SlotNo, (if (match s.re.slots[n] with
      | some sl => sl.serves == some id && hit sl.dest
      | none => false) = true then 1 else 0) =
      ∑ d, if (s.record d).slot = some n then (if hit d = true then s.servesOf d id else 0) else 0 := fun n => by
    cases hs : s.re.slots[n] with
    | none =>
      refine Eq.trans (if_neg nofun) (Finset.sum_eq_zero fun d _ => if_neg fun hd => ?_).symm
      obtain ⟨sl, hsl, -⟩ := h.slotNames d n hd
      rw [hs] at hsl
      cases hsl
    | some sl =>
      rw [Finset.sum_eq_single sl.dest]
      · rw [if_pos (h.slots n sl hs).2, State.servesOf, h.slotOf_of_slots hs, Option.bind_some, oneOf]
        by_cases hhit : hit sl.dest = true <;> by_cases hserve : sl.serves = some id <;> simp [hhit, hserve]
      · intro d _ hne
        refine if_neg fun hd => hne ?_
        obtain ⟨q, hq, hqd⟩ := h.slotNames d n hd
        rw [← hqd, Option.some.inj (hq.symm.trans hs)]
      · exact fun hn => absurd (Finset.mem_univ _) hn
  rw [State.servedFor, length_filter_eq_sum _ (List.nodup_finRange 16) List.mem_finRange]
  refine (Finset.sum_congr rfl fun n _ => hslot n).trans ?_
  rw [Finset.sum_comm]
  refine Finset.sum_congr rfl fun d _ => ?_
  cases hd : (s.record d).slot with
  | none => simp [State.servesOf, State.slotOf_none hd, oneOf]
  | some n => simp

theorem State.servingCount_eq_servedFor (s : State) (id : Nat) : s.servingCount id = s.servedFor id fun _ => true := by
  unfold State.servingCount State.servedFor
  congr 1
  refine List.filter_congr fun n _ => ?_
  cases s.re.slots[n] with
  | none => rfl
  | some sl => exact (Bool.and_true _).symm

theorem State.coreLaw.servingCount_eq (h : s.coreLaw) (id : Nat) : s.servingCount id = ∑ d, s.servesOf d id := by
  rw [State.servingCount_eq_servedFor, h.servedFor_eq]
  exact Finset.sum_congr rfl fun d _ => if_pos rfl

/-- With one destination's slot changed the count of a set's slots changes by that destination's. -/
theorem servingCount_change (h : s.coreLaw) (k : t.coreLaw) (hother : ∀ e, e ≠ d → t.slotOf e = s.slotOf e) (id : Nat) :
    t.servingCount id + s.servesOf d id = s.servingCount id + t.servesOf d id := by
  rw [h.servingCount_eq, k.servingCount_eq]
  have hs := Finset.add_sum_erase Finset.univ (fun e => s.servesOf e id) (Finset.mem_univ d)
  have ht := Finset.add_sum_erase Finset.univ (fun e => t.servesOf e id) (Finset.mem_univ d)
  have hrest : ∑ e ∈ Finset.univ.erase d, t.servesOf e id = ∑ e ∈ Finset.univ.erase d, s.servesOf e id :=
    Finset.sum_congr rfl fun e he => by rw [State.servesOf, hother e (Finset.mem_erase.1 he).1, State.servesOf]
  omega

/-! ### The law of the settling sets -/

/-- Every listed set has an own number given out before, waits for slots and counts them; and a slot serves a listed set, or
the set `extra` that is being applied (R41, R42, R70). -/
structure State.servesLaw (s : State) (extra : Option Nat) : Prop where
  listed : ∀ e ∈ s.csa.settling, e.id < s.csa.nextSet ∧ 0 < e.remaining ∧ e.remaining = s.servingCount e.id
  ids : (s.csa.settling.map SettlingSet.id).Nodup
  serving : ∀ d x, s.servesOf d x ≠ 0 → x ∈ s.csa.settling.map SettlingSet.id ∨ extra = some x

theorem State.servesLaw.setsListed {extra : Option Nat} (h : s.servesLaw extra) : s.setsListed :=
  ⟨fun e he => (h.listed e he).2.1, h.ids⟩

/-- The sets counted off by just the slots that stopped serving them keep their law. -/
theorem State.servesLaw.counts {extra : Option Nat} (h : s.servesLaw extra) (k : s.counts t cut ended) (hcore : t.coreLaw)
    (hnext : s.csa.nextSet ≤ t.csa.nextSet)
    (hcount : ∀ x, t.servingCount x + (cut x + ended x) = s.servingCount x)
    (hfewer : ∀ d x, t.servesOf d x ≠ 0 → s.servesOf d x ≠ 0) : t.servesLaw extra where
  listed := fun e he => by
    rw [k.settling] at he
    obtain ⟨x, hx, hlt, rfl⟩ := mem_settleOff.1 he
    obtain ⟨hid, hpos, hrem⟩ := h.listed x hx
    have := hcount x.id
    dsimp only
    exact ⟨by omega, by omega, by omega⟩
  ids := (h.setsListed.counts k).ids
  serving := fun d x hd => by
    refine (h.serving d x (hfewer d x hd)).imp_left fun hx => ?_
    obtain ⟨e, he, rfl⟩ := List.mem_map.1 hx
    obtain ⟨-, hpos, hrem⟩ := h.listed e he
    have hone : t.servesOf d e.id ≤ t.servingCount e.id := by
      rw [hcore.servingCount_eq]
      exact Finset.single_le_sum (f := fun c => t.servesOf c e.id) (fun _ _ => Nat.zero_le _) (Finset.mem_univ d)
    have := hcount e.id
    rw [k.settling]
    exact List.mem_map.2 ⟨_, mem_settleOff.2 ⟨e, he, by omega, rfl⟩, rfl⟩

/-- Slots counted off as the laws say are counted off destination by destination. -/
theorem State.countsOff_of_counts (h : s.coreLaw) (hlaw : s.servesLaw none) (k : s.counts t cut ended) {cutD endedD : Dest → Bool}
    (hcut : ∀ x, cut x = ∑ d, if cutD d = true then s.servesOf d x else 0)
    (hended : ∀ x, ended x = ∑ d, if endedD d = true then s.servesOf d x else 0) : s.countsOff t cutD endedD := by
  intro e he
  dsimp only
  rw [h.servedFor_eq, h.servedFor_eq, ← hcut, ← hended]
  refine ⟨fun hlt => ?_, fun hall => ⟨?_, fun hroom => ?_⟩⟩
  · rw [k.settling]
    exact mem_settleOff.2 ⟨e, he, hlt, rfl⟩
  · rw [k.settling]
    intro hmem
    obtain ⟨x, hx, hxid⟩ := List.mem_map.1 hmem
    obtain ⟨y, hy, hlt, rfl⟩ := mem_settleOff.1 hx
    obtain rfl := hlaw.setsListed.eq_of_id hy he hxid
    omega
  · exact k.recorded e he hall (by omega)

end Serving

end Sys2Proof.Machine

/-! The table laws taken apart: what the operations of a request keep, and what stands beside them (R10, R21, R23, R34). -/

namespace Sys2Proof.Machine

/-- The port map names as claimant of a port the destination whose intent source it is (R48, R49). -/
def State.claimLaw (s : State) : Prop := s.mapStands → ∀ (p : Port) (d : Dest),
  s.dt.ports[p].claimant = some d ↔ s.isBuilt d = true ∧ (s.record d).intentSrc = .port p

/-- The part of the table laws that is about destinations, slots, ports and settling sets, with the set `extra` being
applied. -/
structure State.innerLaw (s : State) (extra : Option Nat) : Prop where
  core : s.coreLaw
  dests : ∀ d, s.destLaw d
  claims : s.claimLaw
  serves : s.servesLaw extra

/-- The bounds of the open set and the set queue (R23, R29, R34). -/
structure SetAssembler.bounded (c : SetAssembler) : Prop where
  openDests : (c.openSet.map OpenEntry.dest).Nodup
  openBound : c.openSet.length ≤ 4
  sets : ∀ q ∈ c.queue, q.legal
  setBound : c.queue.length ≤ 4

/-- A destination's queued marks count the queued sets that name it (R10). -/
def State.marksLaw (s : State) : Prop :=
  ∀ d, (s.record d).queued = (s.csa.queue.flatMap fun q => entryDests q.entries).count d

/-- What the exchange, the adoption and the head in handling rule out of each other. -/
structure State.apartLaw (s : State) : Prop where
  exclusive : s.xe.running ≠ none → s.pu.adoption = none ∧ ∀ todo, s.cbp.head ≠ .writing todo true
  masking : ∀ m todo, s.cbp.head = .masking m todo → s.pu.adoption = none
  swapWord : ∀ x d src, s.xe.running = some x → x.stage = .swap → destOfNat (keyDest x.keyWord) = some d →
    pathSource d x.pathWord = some src → isUturn d src = false
  adopting : s.pu.adoption ≠ none → s.csa.queue = []

section Parts
variable {s t : State} {d : Dest}

theorem State.tableLaw.core (h : s.tableLaw) : s.coreLaw :=
  ⟨fun n sl hsl => ⟨(h.slots n sl hsl).line, (h.slots n sl hsl).names⟩, h.slotNames, h.list, h.holders⟩

theorem State.tableLaw.destLaw (h : s.tableLaw) (d : Dest) : s.destLaw d where
  intent := h.intents d
  current := h.currents d
  darkNone := h.darkNone d
  drop := h.drops d
  slotless := fun had => by
    by_contra hslot
    obtain ⟨n, hn⟩ := Option.ne_none_iff_exists'.1 hslot
    obtain ⟨sl, hsl, -⟩ := h.slotNames d n hn
    rw [(h.adopting (Option.isSome_iff_ne_none.1 had)).2 n] at hsl
    cases hsl
  rebuilt := fun had => h.rebuilt (Option.isSome_iff_ne_none.1 had) d
  wanted := h.wanted d
  unbuilt := h.unbuilt d
  forcedFlag := h.forcedFlag d
  forcedRest := h.forcedRest d
  follows := fun sl hsl => by
    obtain ⟨-, hnone⟩ | ⟨n, q, -, hq, rfl, hsome⟩ := h.core.slot_cases d
    · rw [hnone] at hsl
      cases hsl
    · obtain rfl := Option.some.inj (hsome.symm.trans hsl)
      have hlaw := h.slots n q hq
      exact ⟨hlaw.dims, hlaw.brightens, hlaw.waiting, hlaw.toTarget, hlaw.toDark⟩

theorem State.tableLaw.servesLaw (h : s.tableLaw) : s.servesLaw none where
  listed := h.settling
  ids := h.settlingIds
  serving := fun d x hx => by
    refine .inl ?_
    obtain ⟨-, hnone⟩ | ⟨n, q, -, hq, rfl, hsome⟩ := h.core.slot_cases d
    · rw [State.servesOf, hnone] at hx
      exact absurd rfl hx
    · rw [State.servesOf, hsome, Option.bind_some, oneOf] at hx
      have hserve : q.serves = some x := by
        by_contra hne
        exact hx (if_neg hne)
      exact (h.slots n q hq).serves x hserve

theorem State.tableLaw.inner (h : s.tableLaw) : s.innerLaw none := ⟨h.core, h.destLaw, h.claimants, h.servesLaw⟩

theorem State.tableLaw.bounded (h : s.tableLaw) : s.csa.bounded := ⟨h.openDests, h.openBound, h.sets, h.setBound⟩

theorem State.tableLaw.apart (h : s.tableLaw) : s.apartLaw :=
  ⟨h.exclusive, h.masking, h.swapWord, fun had => (h.adopting had).1⟩

/-- The table laws, put together from their parts. -/
theorem State.tableLaw_of_parts (h : s.innerLaw none) (hcsa : s.csa.bounded) (hmarks : s.marksLaw) (hapart : s.apartLaw) :
    s.tableLaw where
  openDests := hcsa.openDests
  openBound := hcsa.openBound
  sets := hcsa.sets
  setBound := hcsa.setBound
  marks := hmarks
  settling := h.serves.listed
  settlingIds := h.serves.ids
  exclusive := hapart.exclusive
  masking := hapart.masking
  swapWord := hapart.swapWord
  intents := fun d => (h.dests d).intent
  currents := fun d => (h.dests d).current
  darkNone := fun d => (h.dests d).darkNone
  claimants := h.claims
  holders := h.core.holders
  drops := fun d => (h.dests d).drop
  slots := fun n sl hsl => by
    have hof := h.core.slotOf_of_slots hsl
    have hfollows := (h.dests sl.dest).follows sl hof
    exact {
      line := (h.core.slots n sl hsl).1
      names := (h.core.slots n sl hsl).2
      dims := hfollows.dims
      brightens := hfollows.brightens
      serves := fun id hid => (h.serves.serving sl.dest id (by
        rw [State.servesOf, hof, Option.bind_some, oneOf, if_pos hid]
        exact one_ne_zero)).resolve_right nofun
      waiting := hfollows.waiting
      toTarget := hfollows.toTarget
      toDark := hfollows.toDark }
  slotNames := h.core.slotNames
  list := h.core.list
  adopting := fun had => ⟨hapart.adopting had, fun n => by
    by_contra hn
    obtain ⟨sl, hsl⟩ := Option.ne_none_iff_exists'.1 hn
    have := (h.dests sl.dest).slotless (Option.isSome_iff_ne_none.2 had)
    rw [(h.core.slots n sl hsl).2] at this
    cases this⟩
  rebuilt := fun had d => (h.dests d).rebuilt (Option.isSome_iff_ne_none.2 had)
  wanted := fun d => (h.dests d).wanted
  unbuilt := fun d => (h.dests d).unbuilt
  forcedFlag := fun d => (h.dests d).forcedFlag
  forcedRest := fun d => (h.dests d).forcedRest

/-- The inner laws read the records, slots, ports, isolated indications, settling sets and the adoption. -/
theorem State.innerLaw.congr {extra : Option Nat} (h : s.innerLaw extra) (hrecords : t.dt.records = s.dt.records)
    (hports : t.dt.ports = s.dt.ports) (hiso : t.dt.isolated = s.dt.isolated) (hslots : t.re.slots = s.re.slots)
    (hlist : t.re.list = s.re.list) (hsettling : t.csa.settling = s.csa.settling)
    (hnext : s.csa.nextSet ≤ t.csa.nextSet) (hpu : t.pu = s.pu) : t.innerLaw extra := by
  have hrec := State.record_congr hrecords
  have hof : ∀ d, t.slotOf d = s.slotOf d := fun d => State.slotOf_congr (by rw [hrec]) fun n _ => by rw [hslots]
  have hcount : ∀ x, t.servingCount x = s.servingCount x := fun x => by unfold State.servingCount; rw [hslots]
  refine ⟨h.core.congr hrecords hslots hlist hports hpu, fun d => (h.dests d).congr (hrec d) (hof d) hiso hpu, ?_, ?_⟩
  · unfold State.claimLaw State.mapStands State.isBuilt
    simp only [hrec, hports, hpu]
    exact h.claims
  · refine ⟨fun e he => ?_, by rw [hsettling]; exact h.serves.ids, fun d x => ?_⟩
    · rw [hsettling] at he
      obtain ⟨hid, hpos, hrem⟩ := h.serves.listed e he
      exact ⟨by omega, hpos, hrem.trans (hcount _).symm⟩
    · unfold State.servesOf
      rw [hof, hsettling]
      exact h.serves.serving d x

end Parts

/-! ### An operation on one destination -/

section Single
variable {w v : Work} {d : Dest} {r : DestRecord} {q : Option RampSlot} {lift : Bool} {cut ended : Nat → Nat}
  {extra : Option Nat}

theorem Work.acts.claimLaw (k : w.acts v d) (h : w.st.claimLaw) (hintent : (v.st.record d).intentSrc = (w.st.record d).intentSrc) :
    v.st.claimLaw := by
  intro hmap p e
  have hm : w.st.mapStands := by unfold State.mapStands at hmap ⊢; rwa [k.outside.pu] at hmap
  rw [k.claims p, k.isBuilt e, h hm p e]
  by_cases he : e = d
  · rw [he, hintent]
  · rw [k.others e he]

/-- An operation that leaves a lawful record and slot keeps the inner laws. -/
theorem Work.makes.innerLaw (k : w.makes v d r q lift cut ended) (h : w.st.innerLaw extra) (hre : w.st.reworks v.st)
    (hintent : r.intentSrc = (w.st.record d).intentSrc)
    (hlaw : r.lawful d q (w.st.forcedFor r.intentSrc) (w.st.isBuilt d) w.st.pu.adoption.isSome)
    (hserve : ∀ x, oneOf (q.bind RampSlot.serves) x + (cut x + ended x) = w.st.servesOf d x) : v.st.innerLaw extra := by
  have hiso : v.st.dt.isolated = w.st.dt.isolated := by rw [hre.dt]
  refine ⟨k.core, fun e => ?_, k.claimLaw h.claims (by rw [k.record, hintent]), ?_⟩
  · by_cases he : e = d
    · subst he
      unfold State.destLaw
      rw [k.record, k.content, k.isBuilt, k.outside.pu]
      unfold State.forcedFor at hlaw ⊢
      rw [hiso]
      exact hlaw
    · exact (h.dests e).congr (k.others e he) (k.slotOf e he) hiso k.outside.pu
  · refine h.serves.counts k.counts k.core (le_of_eq (by rw [hre.sets])) (fun x => ?_) fun e x he => ?_
    · have hchange := servingCount_change h.core k.core k.slotOf x
      have := hserve x
      rw [State.servesOf, State.servesOf, k.content] at hchange
      rw [State.servesOf] at this
      omega
    · by_cases hed : e = d
      · subst hed
        have := hserve x
        rw [State.servesOf, k.content] at he
        omega
      · rw [State.servesOf, k.slotOf e hed] at he
        exact he

end Single

end Sys2Proof.Machine

/-! Requests that keep the table laws: blocked flags, isolation and release, and the visits of a pass (R6, R8, R9, R68). -/

namespace Sys2Proof.Machine

section Serve
variable {d : Dest} {r : DestRecord} {sl q : RampSlot} {held : Option RampSlot} {claimed : Bool}

theorem DestRecord.towardTarget_kept (hq : (r.towardTarget d sl).2 = some q) : q.serves = sl.serves ∧ q.dest = sl.dest := by
  unfold DestRecord.towardTarget at hq
  dsimp only at hq
  split at hq
  · cases hq
  · split at hq <;> · obtain rfl := Option.some.inj hq; exact ⟨rfl, rfl⟩

/-- A slot that phase evaluation does not free keeps its destination and its set. -/
theorem DestRecord.phased_kept (hq : (r.phased d sl claimed).2 = some q) : q.serves = sl.serves ∧ q.dest = sl.dest := by
  unfold DestRecord.phased at hq
  split at hq
  · exact DestRecord.towardTarget_kept hq
  · split at hq
    · obtain rfl := Option.some.inj hq
      exact ⟨rfl, rfl⟩
    · split at hq
      · obtain rfl := Option.some.inj hq
        exact ⟨rfl, rfl⟩
      · exact DestRecord.towardTarget_kept hq

theorem endedOf_add {left : Option RampSlot} (h : ∀ q, left = some q → ∃ sl, held = some sl ∧ q.serves = sl.serves) (x : Nat) :
    oneOf (left.bind RampSlot.serves) x + endedOf held left x = oneOf (held.bind RampSlot.serves) x := by
  cases left with
  | none => rw [endedOf, if_pos rfl, Option.bind_none, oneOf, if_neg nofun, Nat.zero_add]
  | some q =>
    obtain ⟨sl, rfl, hq⟩ := h q rfl
    rw [endedOf_some, Option.bind_some, Option.bind_some, hq, Nat.add_zero]

theorem DestRecord.phased_serves (x : Nat) : oneOf ((r.phased d sl claimed).2.bind RampSlot.serves) x +
    endedOf (some sl) (r.phased d sl claimed).2 x = oneOf sl.serves x :=
  endedOf_add (fun _ hq => ⟨sl, rfl, (DestRecord.phased_kept hq).1⟩) x

theorem DestRecord.reevaluated_serves (x : Nat) : oneOf ((r.reevaluated d held claimed).2.bind RampSlot.serves) x +
    endedOf held (r.reevaluated d held claimed).2 x = oneOf (held.bind RampSlot.serves) x := by
  refine endedOf_add (fun q hq => ?_) x
  cases held with
  | none => cases hq
  | some sl => exact ⟨sl, rfl, (DestRecord.phased_kept hq).1⟩

end Serve

section Requests
variable {s t : State} {w v : Work} {d : Dest} {n : SlotNo} {sl : RampSlot} {extra : Option Nat}

theorem State.innerLaw.listed (h : s.innerLaw extra) : s.setsListed := h.serves.setsListed

theorem State.innerLaw.waits (h : s.innerLaw extra) (d : Dest) (sl : RampSlot) (hsl : s.slotOf d = some sl)
    (hphase : sl.phase = .portWait) : (s.record d).curSrc = .none := (((h.dests d).follows sl hsl).waiting hphase).1

/-- Phase evaluation changes the current source and the slot alone. -/
theorem DestRecord.phased_record (d : Dest) (r : DestRecord) (sl : RampSlot) (claimed : Bool) :
    (r.phased d sl claimed).1 =
      { r with curSrc := (r.phased d sl claimed).1.curSrc, slot := (r.phased d sl claimed).1.slot } := by
  unfold DestRecord.phased
  split
  · conv_lhs => rw [DestRecord.towardTarget_record]
    rw [DestRecord.towardTarget_record]
  · split
    · rfl
    · split
      · rfl
      · conv_lhs => rw [DestRecord.towardTarget_record]
        rw [DestRecord.towardTarget_record]

theorem DestRecord.reevaluated_record (d : Dest) (r : DestRecord) (held : Option RampSlot) (claimed : Bool) :
    (r.reevaluated d held claimed).1 = { r with
      curSrc := (r.reevaluated d held claimed).1.curSrc, wanted := (r.reevaluated d held claimed).1.wanted
      slot := (r.reevaluated d held claimed).1.slot } := by
  cases held with
  | none => rfl
  | some sl =>
    unfold DestRecord.reevaluated
    conv_lhs => rw [DestRecord.phased_record]
    rw [DestRecord.phased_record]

theorem State.claimed_iff {src : Source} (h : (s.otherHolder d src).isSome = true) : src ≠ .none := by
  rintro rfl
  cases h

theorem Work.changeBlocked_innerLaw (h : w.st.innerLaw extra) (hline : isLine d = true) (hbuilt : w.st.isBuilt d = true)
    (b : Bool) : (w.changeBlocked d b).st.innerLaw extra := by
  obtain ⟨hmake, -⟩ := Work.changeBlocked_makes h.core h.listed hbuilt (h.waits d) b
  have hnot : isLine d ≠ false := by rw [hline]; exact nofun
  have hsane := (h.dests d).tosane.congr (q := { w.st.record d with blocked := b }) rfl rfl rfl (fun hd => absurd hd hnot)
    rfl rfl rfl
  have hlaw := hsane.reevaluated (held := w.st.slotOf d)
    (claimed := (w.st.otherHolder d (w.st.record d).intentSrc).isSome) (State.slotOf_eq_none_iff h.core) hline hbuilt
    State.claimed_iff
  refine hmake.innerLaw h ((State.reworks.refl _).changeBlocked d b) ?_ ?_ fun x => ?_
  · rw [DestRecord.reevaluated_record]
  · rw [DestRecord.reevaluated_record] at hlaw ⊢
    exact hlaw
  · rw [Nat.zero_add]
    exact DestRecord.reevaluated_serves x

end Requests

end Sys2Proof.Machine

/-! A request that runs through several destinations, one operation for each (R8, R9, R19). -/

namespace Sys2Proof.Machine

/-- A request has run through the destinations `l`, leaving each with the record and slot content given, and every other
destination as it was. -/
structure Work.spans (w v : Work) (l : List Dest) (record : Dest → DestRecord) (content : Dest → Option RampSlot)
    (lift : Bool) (cut ended : Nat → Nat) : Prop where
  core : v.st.coreLaw
  reworks : w.st.reworks v.st
  record : ∀ e ∈ l, v.st.record e = record e
  content : ∀ e ∈ l, v.st.slotOf e = content e
  others : ∀ e, e ∉ l → v.st.record e = w.st.record e
  slotOf : ∀ e, e ∉ l → v.st.slotOf e = w.st.slotOf e
  claims : ∀ p : Port, (v.st.dt.ports[p]).claimant = (w.st.dt.ports[p]).claimant
  sorted : w.marks.Pairwise (· < ·) → v.marks.Pairwise (· < ·)
  marks : ∀ e, e ∈ v.marks ↔ e ∈ w.marks ∨ e ∈ l
  frees : w.onlyFrees v lift
  counts : w.st.counts v.st cut ended

section Spans
variable {base w v u : Work} {l : List Dest} {record : Dest → DestRecord} {content : Dest → Option RampSlot}
  {lift : Dest → Bool} {cut ended : Dest → Nat → Nat} {f : Work → Dest → Work}

theorem Work.spans.nil (h : w.st.coreLaw) (hl : w.st.setsListed) :
    w.spans w [] record content false (fun _ => 0) fun _ => 0 where
  core := h
  reworks := .refl _
  record := nofun
  content := nofun
  others := fun _ _ => rfl
  slotOf := fun _ _ => rfl
  claims := fun _ => rfl
  sorted := id
  marks := fun e => (or_iff_left (List.not_mem_nil (a := e))).symm
  frees := Work.onlyFrees_of_slots (fun _ => rfl) rfl rfl rfl
  counts := State.counts_of_keepsSets hl ⟨rfl, rfl⟩

theorem Work.spans.cons {d : Dest} {one all : Bool} {c e c' e' : Nat → Nat} (hnodup : d ∉ l)
    (h : w.makes v d (record d) (content d) one c e) (hre : w.st.reworks v.st) (hmark : d ∈ v.marks)
    (k : v.spans u l record content all c' e') :
    w.spans u (d :: l) record content (one || all) (fun id => c id + c' id) fun id => e id + e' id where
  core := k.core
  reworks := hre.trans k.reworks
  record := fun x hx => by
    obtain rfl | hx := List.mem_cons.1 hx
    · exact (k.others _ hnodup).trans h.record
    · exact k.record x hx
  content := fun x hx => by
    obtain rfl | hx := List.mem_cons.1 hx
    · exact (k.slotOf _ hnodup).trans h.content
    · exact k.content x hx
  others := fun x hx => (k.others x fun hm => hx (List.mem_cons_of_mem _ hm)).trans
    (h.others x fun he => hx (he ▸ List.mem_cons_self))
  slotOf := fun x hx => (k.slotOf x fun hm => hx (List.mem_cons_of_mem _ hm)).trans
    (h.toacts.slotOf x fun he => hx (he ▸ List.mem_cons_self))
  claims := fun p => (k.claims p).trans (h.claims p)
  sorted := k.sorted ∘ h.sorted
  marks := fun x => by
    have hfirst : x ∈ v.marks ↔ x = d ∨ x ∈ w.marks :=
      ⟨fun hx => (h.only x hx).symm, fun hx => hx.elim (fun he => he ▸ hmark) (h.mono x)⟩
    rw [k.marks, hfirst, List.mem_cons, or_assoc, or_left_comm]
  frees := h.frees.trans k.frees
  counts := h.counts.trans k.counts

/-- A request that runs through a list of destinations, each operation knowing its destination untouched so far. -/
theorem Work.spans_foldl (hf : ∀ (w : Work) (d : Dest), w.st.reworks (f w d).st)
    (hstep : ∀ w : Work, w.st.coreLaw → w.st.setsListed → base.st.reworks w.st → ∀ d ∈ l,
      w.st.record d = base.st.record d → w.st.slotOf d = base.st.slotOf d →
      w.makes (f w d) d (record d) (content d) (lift d) (cut d) (ended d) ∧ d ∈ (f w d).marks)
    (hnodup : l.Nodup) (h : w.st.coreLaw) (hl : w.st.setsListed) (hbase : base.st.reworks w.st)
    (hsame : ∀ d ∈ l, w.st.record d = base.st.record d ∧ w.st.slotOf d = base.st.slotOf d) :
    w.spans (l.foldl f w) l record content (l.any lift) (fun id => (l.map fun d => cut d id).sum)
      fun id => (l.map fun d => ended d id).sum := by
  induction l generalizing w with
  | nil => exact .nil h hl
  | cons d l ih =>
    obtain ⟨hd, hnodup⟩ := List.nodup_cons.1 hnodup
    obtain ⟨hrecord, hslot⟩ := hsame d List.mem_cons_self
    obtain ⟨hmake, hmark⟩ := hstep w h hl hbase d List.mem_cons_self hrecord hslot
    refine .cons hd hmake (hf w d) hmark (ih (fun u hu hlu hbu e he => hstep u hu hlu hbu e (List.mem_cons_of_mem _ he)) hnodup
      hmake.core (hmake.listed hl) (hbase.trans (hf w d)) fun e he => ?_)
    have hne : e ≠ d := fun hed => hd (hed ▸ he)
    obtain ⟨her, hes⟩ := hsame e (List.mem_cons_of_mem _ he)
    exact ⟨(hmake.others e hne).trans her, (hmake.toacts.slotOf e hne).trans hes⟩

/-- A sum over the destinations of a list without repetition. -/
theorem sum_map_eq (hnodup : l.Nodup) (g : Dest → Nat) : (l.map g).sum = ∑ d, if d ∈ l then g d else 0 := by
  rw [← Finset.sum_filter, ← List.sum_toFinset g hnodup]
  refine Finset.sum_congr ?_ fun _ _ => rfl
  ext d
  simp

/-- A set's slots are as many fewer as have been counted off. -/
theorem Work.spans.servingCount {all : Bool} {c e : Nat → Nat} (k : w.spans v l record content all c e) (h : w.st.coreLaw)
    (hnodup : l.Nodup) (hserve : ∀ x, c x + e x + (l.map fun d => oneOf ((content d).bind RampSlot.serves) x).sum =
      (l.map fun d => w.st.servesOf d x).sum) (x : Nat) :
    v.st.servingCount x + (c x + e x) = w.st.servingCount x := by
  have hx := hserve x
  rw [sum_map_eq hnodup, sum_map_eq hnodup] at hx
  have hsplit : ∀ g : Dest → Nat, ∑ d, g d = (∑ d, if d ∈ l then g d else 0) + ∑ d, if d ∈ l then 0 else g d := fun g => by
    rw [← Finset.sum_add_distrib]
    exact Finset.sum_congr rfl fun d _ => by split <;> omega
  rw [k.core.servingCount_eq, h.servingCount_eq, hsplit fun d => v.st.servesOf d x, hsplit fun d => w.st.servesOf d x, ← hx]
  have hin : (∑ d, if d ∈ l then v.st.servesOf d x else 0) =
      ∑ d, if d ∈ l then oneOf ((content d).bind RampSlot.serves) x else 0 :=
    Finset.sum_congr rfl fun d _ => by
      split
      · next hd => rw [State.servesOf, k.content d hd]
      · rfl
  have hout : (∑ d, if d ∈ l then 0 else v.st.servesOf d x) = ∑ d, if d ∈ l then 0 else w.st.servesOf d x :=
    Finset.sum_congr rfl fun d _ => by
      split
      · rfl
      · next hd => rw [State.servesOf, k.slotOf d hd, State.servesOf]
  omega

/-- The sets counted off by such a request keep their law. -/
theorem Work.spans.servesLaw {all : Bool} {c e : Nat → Nat} {extra : Option Nat} (k : w.spans v l record content all c e)
    (h : w.st.coreLaw) (hlaw : w.st.servesLaw extra) (hnodup : l.Nodup)
    (hserve : ∀ x, c x + e x + (l.map fun d => oneOf ((content d).bind RampSlot.serves) x).sum =
      (l.map fun d => w.st.servesOf d x).sum)
    (hfewer : ∀ d ∈ l, ∀ x, oneOf ((content d).bind RampSlot.serves) x ≠ 0 → w.st.servesOf d x ≠ 0) : v.st.servesLaw extra :=
  hlaw.counts k.counts k.core (le_of_eq (by rw [k.reworks.sets])) (k.servingCount h hnodup hserve) fun d x hd => by
    by_cases hmem : d ∈ l
    · refine hfewer d hmem x ?_
      rwa [State.servesOf, k.content d hmem] at hd
    · rwa [State.servesOf, k.slotOf d hmem] at hd

theorem Work.spans.claimLaw {all : Bool} {c e : Nat → Nat} (k : w.spans v l record content all c e) (h : w.st.claimLaw)
    (hintent : ∀ d ∈ l, (record d).intentSrc = (w.st.record d).intentSrc) : v.st.claimLaw := by
  intro hmap p d
  have hm : w.st.mapStands := by unfold State.mapStands at hmap ⊢; rwa [k.reworks.outside.pu] at hmap
  have hbuilt : v.st.isBuilt d = w.st.isBuilt d := by unfold State.isBuilt; rw [k.reworks.outside.pu]
  rw [k.claims p, hbuilt, h hm p d]
  by_cases hd : d ∈ l
  · rw [k.record d hd, hintent d hd]
  · rw [k.others d hd]

end Spans

end Sys2Proof.Machine

/-! The isolation and release requests (R8, R9, R152). -/

namespace Sys2Proof.Machine

/-- The record that isolation leaves a destination fed from the way (R8, R152). -/
def DestRecord.forcedDark (r : DestRecord) (built : Bool) : DestRecord :=
  if built then { r with forced := true, slot := none, wanted := false, curSrc := r.intentSrc, curAttn := dark }
  else { r with forced := true }

/-- The record that a release leaves a destination fed from the way (R9, R152). -/
def DestRecord.unforced (d : Dest) (r : DestRecord) (built : Bool) : DestRecord :=
  if built then r.released d else { r with forced := false }

section Records
variable {d : Dest} {r : DestRecord} {sl : RampSlot} {held : Option RampSlot} {iso built adopting : Bool}

theorem DestRecord.lawful.forcedDark (h : r.lawful d held iso built adopting) (hadopt : built = false → adopting = true) :
    (r.forcedDark built).lawful d none true built adopting := by
  refine ⟨?_, nofun⟩
  cases built with
  | true => exact {
      intent := h.intent
      current := h.intent
      darkNone := fun _ => rfl
      drop := fun hd => ⟨(h.drop hd).1, rfl, rfl⟩
      slotless := fun _ => rfl
      rebuilt := fun _ _ => rfl
      wanted := nofun
      unbuilt := fun _ => rfl
      forcedFlag := rfl
      forcedRest := fun _ => ⟨rfl, fun _ => ⟨rfl, rfl⟩⟩ }
  | false => exact {
      intent := h.intent
      current := h.current
      darkNone := h.darkNone
      drop := h.drop
      slotless := h.slotless
      rebuilt := nofun
      wanted := fun hw => absurd ((h.unbuilt rfl).symm.trans hw) nofun
      unbuilt := fun _ => h.unbuilt rfl
      forcedFlag := rfl
      forcedRest := fun _ => ⟨h.slotless (hadopt rfl), nofun⟩ }

theorem DestRecord.lawful.unforced (h : r.lawful d held iso built adopting) (hheld : held = none ↔ r.slot = none) :
    (r.unforced d built).lawful d held false built adopting := by
  cases built with
  | false =>
    refine ⟨{ h.tosane with
      wanted := fun hw => absurd ((h.unbuilt rfl).symm.trans hw) nofun
      forcedFlag := rfl
      forcedRest := nofun }, fun sl hsl => ?_⟩
    have hslot : r.slot ≠ none := fun hn => nomatch (hheld.2 hn).symm.trans hsl
    have heq : r.unforced d false = r := by
      have hf := (h.slotted hslot).1
      unfold DestRecord.unforced
      rw [if_neg nofun, ← hf]
    rw [heq]
    exact h.follows sl hsl
  | true =>
    unfold DestRecord.unforced DestRecord.released
    rw [if_pos rfl]
    dsimp only
    by_cases hslot : r.slot = none
    · have hnone := hheld.2 hslot
      subst hnone
      refine ⟨?_, nofun⟩
      split
      · next hline =>
        have hnot : isLine d ≠ false := by rw [hline]; exact nofun
        exact { h.tosane with
          drop := fun hd => absurd hd hnot
          wanted := fun _ => ⟨hslot, rfl⟩
          unbuilt := nofun
          forcedFlag := rfl
          forcedRest := nofun }
      · next hline =>
        exact { h.tosane with
          current := h.intent
          darkNone := fun hsrc => if_pos (.inl hsrc)
          rebuilt := fun _ _ => rfl
          wanted := fun hw => ⟨hslot, rfl⟩
          forcedFlag := rfl
          forcedRest := nofun }
    · obtain ⟨hf, -, -, hline⟩ := h.slotted hslot
      rw [if_pos hline, if_neg hslot, ← hf]
      exact ⟨{ h.tosane with forcedFlag := rfl }, h.follows⟩

end Records

section Requests
variable {s t : State} {w v : Work} {d : Dest} {k : Way} {tag : Option Nat}

theorem mem_fedFrom : d ∈ s.fedFrom k ↔ (s.record d).intentSrc.feed = some k := by
  rw [State.fedFrom, List.mem_filter, beq_iff_eq, and_iff_right (mem_allDests d)]

theorem feed_not_port {src : Source} (h : src.feed = some k) : ∀ p, src ≠ .port p := by
  rintro p rfl
  cases h

theorem fedFrom_nodup (s : State) (k : Way) : (s.fedFrom k).Nodup := (List.nodup_finRange 432).filter _

theorem setIsolated_core (h : s.coreLaw) (k : Way) (b : Bool) : (s.setIsolated k b).coreLaw := h.congr rfl rfl rfl rfl rfl

theorem endedOf_held (held : Option RampSlot) : endedOf held none = oneOf (held.bind RampSlot.serves) := funext fun _ => if_pos rfl

/-- What the isolation request makes of the destinations fed from the way (R8, R152). -/
theorem State.isolate_spans (h : s.innerLaw none) (k : Way) : ∃ v : Work, s.isolate k = v.finish none ∧
    (s.setIsolated k true).begin.spans v (s.fedFrom k) (fun d => (s.record d).forcedDark (s.isBuilt d)) (fun _ => none) false
      (fun id => ((s.fedFrom k).map fun d => s.servesOf d id).sum) fun _ => 0 := by
  refine ⟨_, rfl, ?_⟩
  have hspans := Work.spans_foldl (base := (s.setIsolated k true).begin) (w := (s.setIsolated k true).begin)
    (f := fun w d => if w.st.isBuilt d then w.forceDest d else w.flagForced d true) (l := s.fedFrom k)
    (record := fun d => (s.record d).forcedDark (s.isBuilt d)) (content := fun _ => none) (lift := fun _ => false)
    (cut := fun d id => s.servesOf d id) (ended := fun _ _ => 0)
    (fun w d => by
      split
      · exact (State.reworks.refl _).forceDest d
      · exact (State.reworks.refl _).flagForced d true)
    (fun w hw hl hre d hd hrecord hslot => by
      have hfeed := feed_not_port (mem_fedFrom.1 hd)
      replace hrecord : w.st.record d = s.record d := hrecord
      replace hslot : w.st.slotOf d = s.slotOf d := hslot
      have hbuilt : w.st.isBuilt d = s.isBuilt d := by
        unfold State.isBuilt
        rw [hre.outside.pu]
        rfl
      rw [hbuilt]
      unfold DestRecord.forcedDark
      cases hb : s.isBuilt d with
      | true =>
        have hforce := Work.forceDest_makes hw hl (hbuilt.trans hb) (by rw [hrecord]; exact hfeed)
        rw [hrecord, hslot, endedOf_held] at hforce
        exact hforce
      | false =>
        have hnone : s.slotOf d = none := State.slotOf_none ((h.dests d).slotless (by
          unfold State.isBuilt at hb
          cases hadopt : s.pu.adoption with
          | none => rw [hadopt] at hb; cases hb
          | some a => rfl))
        have hflag := Work.flagForced_makes hw hl d true
        rw [hrecord, hslot, hnone] at hflag
        refine ⟨?_, hflag.2⟩
        have hzero : (fun id => s.servesOf d id) = fun _ => 0 := funext fun id => by
          rw [State.servesOf, hnone]
          exact if_neg nofun
        rw [hzero]
        exact hflag.1)
    (fedFrom_nodup s k) (setIsolated_core h.core k true) ⟨h.listed.positive, h.listed.ids⟩ (.refl _) fun _ _ => ⟨rfl, rfl⟩
  have hany : ((s.fedFrom k).any fun _ => false) = false := List.any_eq_false.2 fun _ _ => nofun
  simp only [hany, List.map_const', List.sum_replicate, smul_zero] at hspans
  exact hspans

/-- Whether a release raises the wanted flag of a destination (R9, R152). -/
def State.releaseLifts (s : State) (d : Dest) : Bool := s.isBuilt d && (s.record d).releaseRises d

/-- What the release request makes of the destinations fed from the way (R9, R152). -/
theorem State.release_spans (h : s.innerLaw none) (k : Way) (tag : Option Nat) : ∃ v : Work, s.release k tag = v.finish tag ∧
    (s.setIsolated k false).begin.spans v (s.fedFrom k) (fun d => (s.record d).unforced d (s.isBuilt d)) s.slotOf
      ((s.fedFrom k).any s.releaseLifts) (fun _ => 0) fun _ => 0 := by
  refine ⟨_, rfl, ?_⟩
  have hspans := Work.spans_foldl (base := (s.setIsolated k false).begin) (w := (s.setIsolated k false).begin)
    (f := fun w d => if w.st.isBuilt d then w.unforceDest d else w.flagForced d false) (l := s.fedFrom k)
    (record := fun d => (s.record d).unforced d (s.isBuilt d)) (content := s.slotOf) (lift := s.releaseLifts)
    (cut := fun _ _ => 0) (ended := fun _ _ => 0)
    (fun w d => by
      split
      · exact (State.reworks.refl _).unforceDest d
      · exact (State.reworks.refl _).flagForced d false)
    (fun w hw hl hre d hd hrecord hslot => by
      have hfeed := feed_not_port (mem_fedFrom.1 hd)
      replace hrecord : w.st.record d = s.record d := hrecord
      replace hslot : w.st.slotOf d = s.slotOf d := hslot
      have hbuilt : w.st.isBuilt d = s.isBuilt d := by
        unfold State.isBuilt
        rw [hre.outside.pu]
        rfl
      rw [hbuilt]
      unfold DestRecord.unforced State.releaseLifts
      cases hb : s.isBuilt d with
      | true =>
        have hrelease := Work.unforceDest_makes hw hl (hbuilt.trans hb) (by rw [hrecord]; exact hfeed)
        rw [hrecord, hslot] at hrelease
        exact hrelease
      | false =>
        have hflag := Work.flagForced_makes hw hl d false
        rw [hrecord, hslot] at hflag
        exact hflag)
    (fedFrom_nodup s k) (setIsolated_core h.core k false) ⟨h.listed.positive, h.listed.ids⟩ (.refl _) fun _ _ => ⟨rfl, rfl⟩
  simp only [List.map_const', List.sum_replicate, smul_zero] at hspans
  exact hspans

theorem setIsolated_forcedFor (s : State) (k : Way) (b : Bool) (src : Source) :
    (s.setIsolated k b).forcedFor src = if src.feed = some k then b else s.forcedFor src := by
  unfold State.forcedFor
  cases hfeed : src.feed with
  | none => rw [if_neg nofun]
  | some j =>
    refine (getElem_set_ite _ _ _ _).trans ?_
    by_cases hk : k = j
    · rw [if_pos hk, if_pos (by rw [hk])]
    · rw [if_neg hk, if_neg fun he => hk (Option.some.inj he).symm]

theorem sum_map_zero {α : Type} (l : List α) {f : α → Nat} (h : ∀ a ∈ l, f a = 0) : (l.map f).sum = 0 := by
  rw [List.map_congr_left h, List.map_const', List.sum_replicate, smul_zero]

/-- The isolation request keeps the inner laws. -/
theorem State.isolate_innerLaw (h : s.innerLaw none) (k : Way) : (s.isolate k).innerLaw none := by
  obtain ⟨v, hv, hspans⟩ := s.isolate_spans h k
  have hpu := hspans.reworks.outside.pu
  have hiso : v.st.dt.isolated = (s.setIsolated k true).dt.isolated := by rw [hspans.reworks.dt]; rfl
  have hbuilt : ∀ d, v.st.isBuilt d = s.isBuilt d := fun d => by unfold State.isBuilt; rw [hpu]; rfl
  have hinner : v.st.innerLaw none := by
    refine ⟨hspans.core, fun d => ?_, hspans.claimLaw h.claims fun d _ => ?_, ?_⟩
    · have hlaw := h.dests d
      unfold State.destLaw at hlaw ⊢
      have hfor : ∀ src, v.st.forcedFor src = (s.setIsolated k true).forcedFor src := fun src => by
        unfold State.forcedFor
        rw [hiso]
      rw [hbuilt, hpu, hfor, setIsolated_forcedFor]
      by_cases hd : d ∈ s.fedFrom k
      · have hfeed := mem_fedFrom.1 hd
        rw [hspans.record d hd, hspans.content d hd]
        have hintent : ((s.record d).forcedDark (s.isBuilt d)).intentSrc = (s.record d).intentSrc := by
          unfold DestRecord.forcedDark
          split <;> rfl
        rw [hintent, if_pos hfeed]
        refine hlaw.forcedDark fun hb => ?_
        unfold State.isBuilt at hb
        cases hadopt : s.pu.adoption with
        | none => rw [hadopt] at hb; cases hb
        | some a => rfl
      · have hfeed : ¬ (s.record d).intentSrc.feed = some k := fun he => hd (mem_fedFrom.2 he)
        have hrecord : v.st.record d = s.record d := hspans.others d hd
        have hslot : v.st.slotOf d = s.slotOf d := hspans.slotOf d hd
        rw [hrecord, hslot, if_neg hfeed]
        exact hlaw
    · unfold DestRecord.forcedDark
      split <;> rfl
    · have hbase : (s.setIsolated k true).begin.st.servesLaw none := ⟨h.serves.listed, h.serves.ids, h.serves.serving⟩
      refine hspans.servesLaw (setIsolated_core h.core k true) hbase (fedFrom_nodup s k) (fun x => ?_) fun d _ x hx => ?_
      · rw [sum_map_zero (s.fedFrom k) (f := fun d => oneOf ((none : Option RampSlot).bind RampSlot.serves) x)
          fun _ _ => if_neg nofun]
        rfl
      · exact absurd (if_neg nofun) hx
  rw [hv]
  exact hinner.congr rfl rfl rfl rfl rfl rfl (le_refl _) rfl

/-- The release request keeps the inner laws. -/
theorem State.release_innerLaw (h : s.innerLaw none) (k : Way) (tag : Option Nat) : (s.release k tag).innerLaw none := by
  obtain ⟨v, hv, hspans⟩ := s.release_spans h k tag
  have hpu := hspans.reworks.outside.pu
  have hiso : v.st.dt.isolated = (s.setIsolated k false).dt.isolated := by rw [hspans.reworks.dt]; rfl
  have hbuilt : ∀ d, v.st.isBuilt d = s.isBuilt d := fun d => by unfold State.isBuilt; rw [hpu]; rfl
  have hintent : ∀ d, ((s.record d).unforced d (s.isBuilt d)).intentSrc = (s.record d).intentSrc := fun d => by
    unfold DestRecord.unforced DestRecord.released
    split
    · dsimp only
      split <;> rfl
    · rfl
  have hinner : v.st.innerLaw none := by
    refine ⟨hspans.core, fun d => ?_, hspans.claimLaw h.claims fun d _ => hintent d, ?_⟩
    · have hlaw := h.dests d
      unfold State.destLaw at hlaw ⊢
      have hfor : ∀ src, v.st.forcedFor src = (s.setIsolated k false).forcedFor src := fun src => by
        unfold State.forcedFor
        rw [hiso]
      rw [hbuilt, hpu, hfor, setIsolated_forcedFor]
      by_cases hd : d ∈ s.fedFrom k
      · have hfeed := mem_fedFrom.1 hd
        rw [hspans.record d hd, hspans.content d hd, hintent, if_pos hfeed]
        exact hlaw.unforced (State.slotOf_eq_none_iff h.core)
      · have hfeed : ¬ (s.record d).intentSrc.feed = some k := fun he => hd (mem_fedFrom.2 he)
        have hrecord : v.st.record d = s.record d := hspans.others d hd
        have hslot : v.st.slotOf d = s.slotOf d := hspans.slotOf d hd
        rw [hrecord, hslot, if_neg hfeed]
        exact hlaw
    · have hbase : (s.setIsolated k false).begin.st.servesLaw none := ⟨h.serves.listed, h.serves.ids, h.serves.serving⟩
      exact hspans.servesLaw (setIsolated_core h.core k false) hbase (fedFrom_nodup s k)
        (fun x => Nat.zero_add _) fun d _ x hx => hx
  rw [hv]
  exact hinner.congr rfl rfl rfl rfl rfl rfl (le_refl _) rfl

end Requests

end Sys2Proof.Machine

/-! What a request that occupies no slot leaves of the slots, the ramp list and the arbiter's occasion (R70, R75). -/

namespace Sys2Proof.Machine

section Frees
variable {w v : Work} {lift : Bool} {n : SlotNo} {sl : RampSlot} {tag : Option Nat} {s t u : State}

theorem Work.onlyFrees.slots_none (k : w.onlyFrees v lift) (hw : w.st.coreLaw) (hv : v.st.coreLaw)
    (hn : w.st.re.slots[n] = none) : v.st.re.slots[n] = none := by
  by_contra hv'
  obtain ⟨q, hq⟩ := Option.ne_none_iff_exists'.1 hv'
  have hslot := (hv.slots n q hq).2
  obtain hsame | hnone := k.slot q.dest
  · obtain ⟨x, hx, -⟩ := hw.slotNames q.dest n (hsame ▸ hslot)
    rw [hn] at hx
    cases hx
  · rw [hnone] at hslot
    cases hslot

/-- A slot occupied before is left with what its destination is left with. -/
theorem Work.onlyFrees.slots_some (k : w.onlyFrees v lift) (hw : w.st.coreLaw) (hv : v.st.coreLaw)
    (hs : w.st.re.slots[n] = some sl) : v.st.re.slots[n] = v.st.slotOf sl.dest := by
  have hslot := (hw.slots n sl hs).2
  obtain hsame | hnone := k.slot sl.dest
  · exact (State.slotOf_some (hsame.trans hslot)).symm
  · rw [State.slotOf_none hnone]
    by_contra hv'
    obtain ⟨q, hq⟩ := Option.ne_none_iff_exists'.1 hv'
    have hq' := (hv.slots n q hq).2
    obtain hqsame | hqnone := k.slot q.dest
    · obtain ⟨x, hx, hxd⟩ := hw.slotNames q.dest n (hqsame ▸ hq')
      obtain rfl := Option.some.inj (hx.symm.trans hs)
      rw [hxd] at hnone
      rw [hnone] at hq'
      cases hq'
    · rw [hqnone] at hq'
      cases hq'

theorem Work.onlyFrees.freed_iff (k : w.onlyFrees v lift) (hw : w.st.coreLaw) (hv : v.st.coreLaw) :
    (∃ n : SlotNo, w.st.re.slots[n] ≠ none ∧ v.st.re.slots[n] = none) ↔
      ∃ e, (w.st.record e).slot ≠ none ∧ (v.st.record e).slot = none := by
  constructor
  · rintro ⟨n, hn, hvn⟩
    obtain ⟨sl, hsl⟩ := Option.ne_none_iff_exists'.1 hn
    refine ⟨sl.dest, by rw [(hw.slots n sl hsl).2]; exact nofun, ?_⟩
    rw [← State.slotOf_eq_none_iff hv, ← k.slots_some hw hv hsl, hvn]
  · rintro ⟨e, he, hve⟩
    obtain ⟨n, hn⟩ := Option.ne_none_iff_exists'.1 he
    obtain ⟨sl, hsl, rfl⟩ := hw.slotNames e n hn
    exact ⟨n, by rw [hsl]; exact nofun, by rw [k.slots_some hw hv hsl, State.slotOf_none hve]⟩

theorem sublist_eq_filter {α : Type} {l l' : List α} {p : α → Bool} (h : l'.Sublist l) (hl : l.Nodup)
    (hmem : ∀ a ∈ l, a ∈ l' ↔ p a = true) : l' = l.filter p := by
  induction h with
  | slnil => rfl
  | @cons l₁ l₂ a hsub ih =>
    obtain ⟨ha, hl⟩ := List.nodup_cons.1 hl
    rw [List.filter_cons_of_neg fun hp => ha (hsub.subset ((hmem a List.mem_cons_self).2 hp))]
    exact ih hl fun x hx => hmem x (List.mem_cons_of_mem _ hx)
  | @cons_cons l₁ l₂ a hsub ih =>
    obtain ⟨ha, hl⟩ := List.nodup_cons.1 hl
    rw [List.filter_cons_of_pos ((hmem a List.mem_cons_self).1 List.mem_cons_self), ← ih hl fun x hx => ?_]
    rw [← hmem x (List.mem_cons_of_mem _ hx), List.mem_cons, or_iff_right]
    exact fun he => ha (he ▸ hx)

/-- The ramp list is left with the slots still occupied, in their order. -/
theorem Work.onlyFrees.list_eq (k : w.onlyFrees v lift) (hw : w.st.coreLaw) (hv : v.st.coreLaw) :
    v.st.re.list = w.st.re.list.filter fun n => (v.st.re.slots[n]).isSome :=
  sublist_eq_filter k.list hw.list.1 fun n _ => hv.list.2 n

/-- The occasion that the end of a request notes. -/
theorem Work.onlyFrees.occasionFollows (k : w.onlyFrees v lift) (hw : w.st.coreLaw) (hv : v.st.coreLaw) (hfreed : w.freed = false)
    (hraised : w.raised = false) (hdue : v.st.re.occasionDue = w.st.re.occasionDue)
    (hlift : lift = true ↔ ∃ d, (w.st.record d).wanted = false ∧ (v.st.record d).wanted = true) :
    w.st.occasionFollows (v.finish tag) := by
  have hocc : (v.finish tag).re.occasionDue = (w.st.re.occasionDue || v.freed || lift) := by
    show (v.st.re.occasionDue || v.freed || v.raised) = _
    rw [hdue, k.raised, hraised, Bool.false_or]
  have hfree : v.freed = true ↔ ∃ n : SlotNo, w.st.re.slots[n] ≠ none ∧ v.st.re.slots[n] = none := by
    rw [k.freed, hfreed, k.freed_iff hw hv]
    exact or_iff_right nofun
  unfold State.occasionFollows
  rw [hocc, Bool.or_eq_true, Bool.or_eq_true, hfree, hlift, or_assoc]
  rfl

/-- Counting off is said alike of a state with the same sets and slots that has raised one record fewer. -/
theorem State.countsOff_of_raised {cut ended : Dest → Bool} {c e : Nat → Nat} (h : u.coreLaw) (hlaw : u.servesLaw none)
    (k : u.counts t c e) (hcut : ∀ x, c x = ∑ d, if cut d = true then u.servesOf d x else 0)
    (hended : ∀ x, e x = ∑ d, if ended d = true then u.servesOf d x else 0)
    (hsettling : u.csa.settling = s.csa.settling) (hslots : u.re.slots = s.re.slots)
    (hroom : u.ew.queue.length ≤ s.ew.queue.length + 1) (hstamp : u.ew.timebase = s.ew.timebase) :
    s.countsOff t cut ended := by
  have hserved : ∀ id hit, s.servedFor id hit = u.servedFor id hit := fun id hit => by
    unfold State.servedFor
    rw [hslots]
  intro x hx
  rw [← hsettling] at hx
  have hoff := State.countsOff_of_counts h hlaw k hcut hended x hx
  dsimp only at hoff ⊢
  rw [hserved, hserved]
  refine ⟨hoff.1, fun hall => ⟨(hoff.2 hall).1, fun hroom' => ?_⟩⟩
  have hrecord := k.recorded x hx
  rw [← hsettling] at hroom'
  rw [hcut, hended, ← h.servedFor_eq, ← h.servedFor_eq] at hrecord
  have hmem := hrecord hall (by omega)
  rw [State.settledRecord, hstamp] at hmem
  exact hmem

theorem State.emit_room (s : State) (kind : RecordKind) (reason : Nat) (subject : BitVec 16) (a b : Word) :
    (s.emit kind reason subject a b).ew.queue.length ≤ s.ew.queue.length + 1 ∧
      (s.emit kind reason subject a b).ew.timebase = s.ew.timebase := by
  obtain ⟨-, he⟩ | ⟨-, he⟩ := s.emit_spec kind reason subject a b <;> rw [he]
  · exact ⟨by rw [List.length_append, List.length_singleton], rfl⟩
  · exact ⟨Nat.le_succ _, rfl⟩

end Frees

end Sys2Proof.Machine

/-! A way isolated (R8, R99). -/

namespace Sys2Proof.Machine

section Isolation
variable {s t u : State} {w v : Work} {k : Way} {d : Dest}

/-- While a restart waits to rebuild the map no record counts as built. -/
theorem State.isBuilt_of_not_mapStands (h : ¬ s.mapStands) (d : Dest) : s.isBuilt d = false := by
  unfold State.mapStands at h
  push_neg at h
  obtain ⟨a, ha, hstage⟩ := h
  unfold State.isBuilt Adoption.built
  rw [ha]
  dsimp only
  rw [hstage]
  exact decide_eq_false (Nat.not_lt_zero _)

theorem foldl_flagForced_ports (l : List Dest) (b : Bool) (w : Work) :
    (l.foldl (fun w d => w.flagForced d b) w).st.dt.ports = w.st.dt.ports := by
  induction l generalizing w with
  | nil => rfl
  | cons d l ih => exact (ih _).trans rfl

/-- With no record built an isolation or release request flags its destinations alone. -/
theorem foldl_unbuilt {f : Work → Dest → Work} (hf : ∀ (w : Work) (d : Dest), w.st.reworks (f w d).st) (b : Bool) (l : List Dest)
    (h : ∀ d, w.st.isBuilt d = false) : l.foldl (fun w d => if w.st.isBuilt d then f w d else w.flagForced d b) w =
      l.foldl (fun w d => w.flagForced d b) w := by
  induction l generalizing w with
  | nil => rfl
  | cons d l ih =>
    rw [List.foldl_cons, List.foldl_cons, if_neg (by rw [h]; exact nofun)]
    exact ih h

/-- Isolation takes the ports from the destinations that it forces (R8, R48). -/
theorem State.isolate_ports (h : s.innerLaw none) (k : Way) (p : Port) : (s.isolate k).dt.ports[p] = { s.dt.ports[p] with
    holder := s.dt.ports[p].holder.filter fun d => !(s.isBuilt d && (s.record d).intentSrc.feed == some k) } := by
  by_cases hmap : s.mapStands
  · obtain ⟨v, hv, hspans⟩ := s.isolate_spans h k
    have hpu := hspans.reworks.outside.pu
    have hbuilt : ∀ d, v.st.isBuilt d = s.isBuilt d := fun d => by unfold State.isBuilt; rw [hpu]; rfl
    have hvmap : v.st.mapStands := by unfold State.mapStands at hmap ⊢; rwa [hpu]
    have hclaim : v.st.dt.ports[p].claimant = s.dt.ports[p].claimant := hspans.claims p
    have hholder : v.st.dt.ports[p].holder =
        s.dt.ports[p].holder.filter fun d => !(s.isBuilt d && (s.record d).intentSrc.feed == some k) := by
      refine Option.ext fun d => ?_
      rw [Option.filter_eq_some_iff, hspans.core.holders hvmap p d, h.core.holders hmap p d, hbuilt]
      by_cases hd : d ∈ s.fedFrom k
      · have hfeed := mem_fedFrom.1 hd
        rw [hspans.record d hd, hfeed, beq_self_eq_true, Bool.and_true]
        unfold DestRecord.forcedDark
        cases hb : s.isBuilt d with
        | false => simp
        | true => simpa using feed_not_port hfeed p
      · have hfeed : ¬ (s.record d).intentSrc.feed = some k := fun he => hd (mem_fedFrom.2 he)
        have hrecord : v.st.record d = s.record d := hspans.others d hd
        rw [hrecord, beq_eq_false_iff_ne.2 hfeed, Bool.and_false]
        simp
    rw [hv]
    show v.st.dt.ports[p] = _
    exact congrArg₂ PortRecord.mk hholder hclaim
  · have hunbuilt := State.isBuilt_of_not_mapStands hmap
    have hports : (s.isolate k).dt.ports = s.dt.ports := by
      unfold State.isolate
      rw [foldl_unbuilt (fun w d => (State.reworks.refl _).forceDest d) true _ hunbuilt]
      exact foldl_flagForced_ports _ _ _
    rw [hports]
    have hfilter : ∀ o : Option Dest, (o.filter fun d => !(s.isBuilt d && (s.record d).intentSrc.feed == some k)) = o := fun o => by
      cases o with
      | none => rfl
      | some d => simp [hunbuilt d]
    rw [hfilter]

theorem DestRecord.forcedDark_wanted (h : s.innerLaw none) (d : Dest) :
    ((s.record d).forcedDark (s.isBuilt d)).wanted = false := by
  unfold DestRecord.forcedDark
  cases hb : s.isBuilt d with
  | true => rfl
  | false => exact (h.dests d).unbuilt hb

/-- What isolation does, in the terms of the statements. -/
structure State.isolates (s t : State) (k : Way) : Prop where
  isolated : ∀ j : Way, t.dt.isolated[j] = (s.dt.isolated[j] || j == k)
  fed : ∀ d, (s.record d).intentSrc.feed = some k → t.record d = (s.record d).forcedDark (s.isBuilt d) ∧ ∃ u ∈ t.dt.updates, u.dest = d
  others : ∀ d, (s.record d).intentSrc.feed ≠ some k → t.record d = s.record d
  occasion : s.occasionFollows t
  marks : s.marksUpdates t none fun d => (s.record d).intentSrc.feed == some k
  ticks : s.keepsTicks t
  free : ∀ n : SlotNo, s.re.slots[n] = none → t.re.slots[n] = none
  slots : ∀ (n : SlotNo) (sl : RampSlot), s.re.slots[n] = some sl →
    t.re.slots[n] = if (s.record sl.dest).intentSrc.feed = some k then none else some sl
  list : t.re.list = s.re.list.filter fun n => (t.re.slots[n]).isSome
  sets : t.csa = { s.csa with settling := t.csa.settling } ∧
    (t.csa.settling.map SettlingSet.id).Sublist (s.csa.settling.map SettlingSet.id)
  counts : s.counts t (fun id => ((s.fedFrom k).map fun d => s.servesOf d id).sum) fun _ => 0

theorem State.isolate_isolates (h : s.innerLaw none) (k : Way) : s.isolates (s.isolate k) k := by
  obtain ⟨v, hv, hspans⟩ := s.isolate_spans h k
  have hbase : (s.setIsolated k true).begin.st.coreLaw := setIsolated_core h.core k true
  have hrecord : ∀ d, v.st.record d = if (s.record d).intentSrc.feed = some k then (s.record d).forcedDark (s.isBuilt d)
      else s.record d := fun d => by
    split
    · next hd => exact hspans.record d (mem_fedFrom.2 hd)
    · next hd => exact hspans.others d fun hm => hd (mem_fedFrom.1 hm)
  have hmark : ∀ d, d ∈ v.marks ↔ (s.record d).intentSrc.feed = some k := fun d =>
    (hspans.marks d).trans ((or_iff_right (List.not_mem_nil (a := d))).trans mem_fedFrom)
  have hsettling := hspans.reworks.sets
  rw [hv]
  refine ⟨fun j => ?_, fun d hd => ⟨(hrecord d).trans (if_pos hd), Work.finish_listed ((hmark d).2 hd)⟩,
    fun d hd => (hrecord d).trans (if_neg hd), ?_, ?_, ?_, fun n hn => hspans.frees.slots_none hbase hspans.core hn,
    fun n sl hs => ?_, hspans.frees.list_eq hbase hspans.core, ⟨hsettling, hspans.reworks.ids⟩, ?_⟩
  · show v.st.dt.isolated[j] = _
    rw [hspans.reworks.dt]
    refine (getElem_set_ite _ _ _ _).trans ?_
    by_cases hj : k = j
    · simp [hj]
    · rw [if_neg hj, beq_eq_false_iff_ne.2 (Ne.symm hj), Bool.or_false]
  · refine hspans.frees.occasionFollows hbase hspans.core rfl rfl (by rw [hspans.reworks.re]) ?_
    refine ⟨nofun, fun ⟨d, hoff, hon⟩ => ?_⟩
    rw [hrecord d] at hon
    split at hon
    · rw [DestRecord.forcedDark_wanted h] at hon
      cases hon
    · exact absurd (hoff.symm.trans hon) nofun
  · refine Work.finish_marksUpdates (by rw [hspans.reworks.dt]; rfl) (hspans.sorted List.Pairwise.nil) fun e => ?_
    rw [hmark, beq_iff_eq]
  · exact hv ▸ (s.isolate_requested k).re
  · show v.st.re.slots[n] = _
    rw [hspans.frees.slots_some hbase hspans.core hs]
    split
    · next hd => exact hspans.content _ (mem_fedFrom.2 hd)
    · next hd => exact (hspans.slotOf _ fun hm => hd (mem_fedFrom.1 hm)).trans (h.core.slotOf_of_slots hs)
  · exact ⟨hspans.counts.settling,
      ⟨hspans.counts.raises.writer, hspans.counts.raises.queue, hspans.counts.raises.dropped⟩, hspans.counts.room, hspans.counts.recorded⟩

theorem sum_fedFrom (s : State) (k : Way) (g : Dest → Nat) : ((s.fedFrom k).map g).sum =
    ∑ d, if ((s.record d).intentSrc.feed == some k) = true then g d else 0 := by
  rw [sum_map_eq (fedFrom_nodup s k)]
  exact Finset.sum_congr rfl fun d _ => by simp only [mem_fedFrom, beq_iff_eq]

theorem nextCounter_isolates {c : Nat} (h : 195 ≤ c) (hlt : c < 200) : nextCounter true c = 200 := by
  rw [nextCounter, if_pos rfl]
  omega

end Isolation

/-- Settles O47: the way's isolation request, as its evaluation makes it. -/
theorem isolationForcesDark : Obligations.IsolationForcesDark := by
  unfold Obligations.IsolationForcesDark
  intro w s hlaw htable htimer hdue hstate hlatch hcount
  have hrange : (s.lm.ways[w]).counter < 200 := by
    have hin := (hlaw w).1
    unfold WayRecord.inRange at hin
    rw [hstate] at hin
    exact hin.2.1
  have hnext : nextCounter (s.lm.ways[w]).latch (s.lm.ways[w]).counter = 200 := by
    rw [hlatch]
    exact nextCounter_isolates hcount hrange
  have hexec := exec_wayEvaluation_serving htimer hdue (by rw [hstate]; rfl)
  have hst : stateOfCounter (nextCounter (s.lm.ways[w]).latch (s.lm.ways[w]).counter) = .isolated := by rw [hnext]; rfl
  have hne : stateOfCounter (nextCounter (s.lm.ways[w]).latch (s.lm.ways[w]).counter) ≠ (s.evaluated w).state := by
    show _ ≠ (s.lm.ways[w]).state
    rw [hst, hstate]
    exact nofun
  have hu := s.serving_recordsChange w (s.lm.ways[w]).latch
  rw [State.evaluateServing_isolates (s := s.takeEvaluation w) (w := w) (r := s.evaluated w) hne hst] at hexec
  generalize (s.takeEvaluation w).serving w (s.evaluated w) (s.lm.ways[w]).latch = u at hexec hu
  obtain ⟨lm, ew, rfl⟩ : ∃ lm ew, u = { s with lm := lm, ew := ew } := ⟨_, _, hu.frame⟩
  have hinner : ({ s with lm := lm, ew := ew } : State).innerLaw none :=
    htable.inner.congr rfl rfl rfl rfl rfl rfl (le_refl _) rfl
  have hiso := State.isolate_isolates hinner w
  have hports := State.isolate_ports hinner w
  have hout := (State.isolate_requested { s with lm := lm, ew := ew } w).outside
  have hways := hu.way
  have htaken := hu.taken
  have hraised := hu.raised
  rw [hst, hnext, hstate] at hraised
  generalize State.isolate { s with lm := lm, ew := ew } w = t at hexec hiso hports hout
  have hlm : t.lm = lm := hout.lm
  refine ⟨t, hexec, ?_, ?_, hiso.isolated, hiso.fed, hiso.others, State.raisesFirst_of_emit hraised hiso.counts.raises,
    (State.onlyRaises_of_emit hraised).trans hiso.counts.raises, ?_, ?_, hiso.occasion, hiso.marks,
    ⟨hiso.ticks, hiso.free, hiso.slots, hiso.list⟩, hports, hiso.sets, ?_⟩
  · rw [hlm]
    exact (congrArg WayRecord.state hways).trans hst
  · rw [hlm]
    exact (congrArg WayRecord.counter hways).trans hnext
  · unfold State.takesEvaluation at htaken ⊢
    rw [hlm]
    exact htaken
  · have hroom := s.emit_room .wayState 0 (BitVec.ofNat 16 w.val)
      (BitVec.ofNat 32 (WayState.degraded.code + WayState.isolated.code * 256)) (BitVec.ofNat 32 200)
    rw [← hraised] at hroom
    refine State.countsOff_of_raised (u := { s with lm := lm, ew := ew }) hinner.core hinner.serves hiso.counts
      (fun x => sum_fedFrom _ _ _) (fun x => (Finset.sum_eq_zero fun d _ => if_neg nofun).symm) rfl rfl hroom.1 hroom.2
  · rw [hlm]
    exact hout.frame

end Sys2Proof.Machine

/-! A way released, with no law presumed (R9, R100, R103). -/

namespace Sys2Proof.Machine

/-- What the release of one destination does in any state: its record is unforced and marked, and but for the port map nothing
else changes. -/
structure Work.unforces (w v : Work) (d : Dest) (built : Bool) : Prop where
  record : v.st.record d = (w.st.record d).unforced d built
  others : ∀ e, e ≠ d → v.st.record e = w.st.record e
  frame : v.st = { w.st with dt := { w.st.dt with records := v.st.dt.records, ports := v.st.dt.ports } }
  ports : (isLine d = false → ∀ p, (w.st.record d).curSrc ≠ .port p) → v.st.dt.ports = w.st.dt.ports
  sorted : w.marks.Pairwise (· < ·) → v.marks.Pairwise (· < ·)
  marks : ∀ e, e ∈ v.marks ↔ e = d ∨ e ∈ w.marks
  freed : v.freed = w.freed
  raised : v.raised = (w.raised || (built && (w.st.record d).releaseRises d))

section Unforce
variable {s t : State} {w v : Work} {k : Way} {d : Dest} {r : DestRecord} {b : Bool}

theorem Work.setRecord_mark_others (w : Work) (d : Dest) (r : DestRecord) (e : Dest) (he : e ≠ d) :
    ((w.setRecord d r).mark d).st.record e = w.st.record e := State.record_setRecord_other _ _ he

theorem insertDest_insertDest_mem (d : Dest) (l : List Dest) (e : Dest) : e ∈ insertDest d (insertDest d l) ↔ e = d ∨ e ∈ l := by
  rw [mem_insertDest, mem_insertDest, ← or_assoc, or_self]

theorem Work.flagForced_unforces (w : Work) (d : Dest) : w.unforces (w.flagForced d false) d false where
  record := State.record_setRecord_same _ _ _
  others := w.setRecord_mark_others d _
  frame := rfl
  ports := fun _ => rfl
  sorted := fun hs => (insertDest_spec d w.marks hs).1
  marks := fun _ => mem_insertDest
  freed := rfl
  raised := (Bool.or_false _).symm

theorem writeCurrent_drop_frame (w : Work) (hline : isLine d = false) (src : Source) (attn : Attn) :
    (w.writeCurrent d src attn).st = { w.st with dt := { w.st.dt with
      records := (w.writeCurrent d src attn).st.dt.records, ports := (w.writeCurrent d src attn).st.dt.ports } } := by
  have hload : ∀ (s : State) (a c : DestRecord), s.reportLoad d a c = s := fun s a c => by
    rw [State.reportLoad, hline, if_neg nofun]
  unfold Work.writeCurrent
  dsimp only [Work.mark_st]
  rw [hload]
  cases (w.st.record d).curSrc <;> cases src <;> rfl

theorem writeCurrent_ports (w : Work) {src : Source} (hsrc : ∀ p, src ≠ .port p) (hcur : ∀ p, (w.st.record d).curSrc ≠ .port p)
    (attn : Attn) : (w.writeCurrent d src attn).st.dt.ports = w.st.dt.ports := by
  refine Vector.ext fun i hi => ?_
  have hport := w.writeCurrent_port d src attn ⟨i, hi⟩
  rw [if_neg (hsrc _), if_neg (hcur _)] at hport
  exact hport

theorem Work.unforceDest_unforces (w : Work) (d : Dest) (hfed : ∀ p, (w.st.record d).intentSrc ≠ .port p) :
    w.unforces (w.unforceDest d) d true := by
  have hself : ((w.setRecord d { w.st.record d with forced := false }).mark d).st.record d =
      { w.st.record d with forced := false } := State.record_setRecord_same _ _ _
  have hother := w.setRecord_mark_others d { w.st.record d with forced := false }
  have hmark : ∀ e, e ∈ insertDest d w.marks ↔ e = d ∨ e ∈ w.marks := fun _ => mem_insertDest
  have hsorted : w.marks.Pairwise (· < ·) → (insertDest d w.marks).Pairwise (· < ·) := fun hs => (insertDest_spec d w.marks hs).1
  unfold Work.unforceDest
  dsimp only
  by_cases hline : isLine d = true
  · rw [if_pos hline]
    cases hslot : (((w.setRecord d { w.st.record d with forced := false }).mark d).st.record d).slot with
    | some n =>
      rw [hself] at hslot
      refine ⟨?_, hother, rfl, fun _ => rfl, hsorted, hmark, rfl, ?_⟩
      · rw [hself]
        unfold DestRecord.unforced DestRecord.released
        rw [if_pos rfl, if_pos hline, if_neg (by rw [show (w.st.record d).slot = some n from hslot]; exact nofun)]
      · have hrises : (w.st.record d).releaseRises d = false := by
          unfold DestRecord.releaseRises
          rw [show (w.st.record d).slot = some n from hslot, Option.isNone_some, Bool.and_false, Bool.false_and, Bool.false_and]
        rw [hrises, Bool.and_false, Bool.or_false]
        rfl
    | none =>
      rw [hself] at hslot
      have hnone : (w.st.record d).slot = none := hslot
      have hre : ((w.setRecord d { w.st.record d with forced := false }).mark d).reevaluateWanted d =
          { ((w.setRecord d { w.st.record d with forced := false }).mark d).setRecord d { w.st.record d with
            forced := false, wanted := !atRest d { w.st.record d with forced := false } } with
            raised := w.raised || (!atRest d { w.st.record d with forced := false } && !(w.st.record d).wanted) } := by
        unfold Work.reevaluateWanted
        rw [hself]
        rfl
      dsimp only
      rw [hre]
      refine ⟨?_, fun e he => (State.record_setRecord_other _ _ he).trans (hother e he), rfl, fun _ => rfl, hsorted, hmark, rfl, ?_⟩
      · refine (State.record_setRecord_same _ _ _).trans ?_
        unfold DestRecord.unforced DestRecord.released
        rw [if_pos rfl, if_pos hline, if_pos hnone]
      · unfold DestRecord.releaseRises
        rw [hline, hnone, Option.isNone_none, Bool.true_and, Bool.true_and, Bool.true_and]
        rfl
  · have hdrop := Bool.eq_false_iff.2 hline
    have hrises : (w.st.record d).releaseRises d = false := by
      unfold DestRecord.releaseRises
      rw [hdrop, Bool.false_and, Bool.false_and, Bool.false_and]
    rw [if_neg hline]
    unfold Work.reevaluateDrop
    dsimp only
    rw [hself]
    split
    · next hrest =>
      obtain ⟨hsrc, hattn⟩ := atRest_iff.1 hrest
      have hsame : ∀ (q : DestRecord) (src : Source) (attn : Attn), q.curSrc = src → q.curAttn = attn →
          q = { q with curSrc := src, curAttn := attn } := by
        rintro q _ _ rfl rfl
        rfl
      refine ⟨?_, hother, rfl, fun _ => rfl, hsorted, hmark, rfl, by rw [hrises, Bool.and_false, Bool.or_false]; rfl⟩
      rw [hself]
      unfold DestRecord.unforced DestRecord.released
      rw [if_pos rfl, if_neg hline]
      exact hsame _ _ _ hsrc hattn
    · refine ⟨?_, fun e he => ?_, ?_, fun hcur => ?_, fun hs => ?_, insertDest_insertDest_mem d w.marks, rfl,
        by rw [hrises, Bool.and_false, Bool.or_false]; rfl⟩
      · rw [Work.writeCurrent_record, if_pos rfl, hself]
        unfold DestRecord.unforced DestRecord.released
        rw [if_pos rfl, if_neg hline]
      · rw [Work.writeCurrent_record, if_neg he]
        exact hother e he
      · rw [writeCurrent_drop_frame _ hdrop]
        rfl
      · refine writeCurrent_ports _ hfed (fun p => ?_) _
        rw [hself]
        exact hcur hdrop p
      · exact (insertDest_spec d _ (hsorted hs)).1

/-- What the release request of a way does in any state. -/
structure State.releases (s t : State) (k : Way) (tag : Option Nat) : Prop where
  isolated : ∀ j : Way, t.dt.isolated[j] = if j = k then false else s.dt.isolated[j]
  fed : ∀ d, (s.record d).intentSrc.feed = some k → t.record d = (s.record d).unforced d (s.isBuilt d)
  listed : ∀ d, (s.record d).intentSrc.feed = some k → ∃ u ∈ t.dt.updates, u.dest = d
  tagged : ∀ d x, tag = some x → (s.record d).intentSrc.feed = some k → ∃ u ∈ t.dt.updates, u.dest = d ∧ u.tag = some x
  others : ∀ d, (s.record d).intentSrc.feed ≠ some k → t.record d = s.record d
  marks : s.marksUpdates t tag fun d => (s.record d).intentSrc.feed == some k
  ports : (∀ d, isLine d = false → ∀ p, (s.record d).curSrc ≠ .port p) → t.dt.ports = s.dt.ports
  occasion : s.occasionFollows t
  re : t.re = { s.re with occasionDue := t.re.occasionDue }
  frame : t = { s with dt := t.dt, re := t.re }

/-- The request's run through the destinations, as far as it has gone. -/
structure Work.releasing (w v : Work) (l : List Dest) : Prop where
  record : ∀ d ∈ l, v.st.record d = (w.st.record d).unforced d (w.st.isBuilt d)
  others : ∀ d, d ∉ l → v.st.record d = w.st.record d
  frame : v.st = { w.st with dt := { w.st.dt with records := v.st.dt.records, ports := v.st.dt.ports } }
  ports : (∀ d, isLine d = false → ∀ p, (w.st.record d).curSrc ≠ .port p) → v.st.dt.ports = w.st.dt.ports
  sorted : w.marks.Pairwise (· < ·) → v.marks.Pairwise (· < ·)
  marks : ∀ e, e ∈ v.marks ↔ e ∈ w.marks ∨ e ∈ l
  freed : v.freed = w.freed
  raised : v.raised = (w.raised || l.any fun d => w.st.isBuilt d && (w.st.record d).releaseRises d)

theorem Work.foldl_releasing {l : List Dest} (hnodup : l.Nodup) (hfed : ∀ d ∈ l, ∀ p, (w.st.record d).intentSrc ≠ .port p) :
    w.releasing (l.foldl (fun w d => if w.st.isBuilt d then w.unforceDest d else w.flagForced d false) w) l := by
  induction l generalizing w with
  | nil =>
    exact ⟨nofun, fun _ _ => rfl, rfl, fun _ => rfl, id, fun e => (or_iff_left (List.not_mem_nil (a := e))).symm, rfl,
      (Bool.or_false _).symm⟩
  | cons d l ih =>
    obtain ⟨hd, hnodup⟩ := List.nodup_cons.1 hnodup
    have hone : w.unforces (if w.st.isBuilt d then w.unforceDest d else w.flagForced d false) d (w.st.isBuilt d) := by
      cases hb : w.st.isBuilt d with
      | true => exact w.unforceDest_unforces d (hfed d List.mem_cons_self)
      | false => exact w.flagForced_unforces d
    rw [List.foldl_cons]
    generalize (if w.st.isBuilt d then w.unforceDest d else w.flagForced d false) = v at hone
    have hne : ∀ e ∈ l, e ≠ d := fun e he hed => hd (hed ▸ he)
    have hrest := ih (w := v) hnodup fun e he => by
      rw [hone.others e (hne e he)]
      exact hfed e (List.mem_cons_of_mem _ he)
    have hbuilt : ∀ e, v.st.isBuilt e = w.st.isBuilt e := fun e => by rw [hone.frame]; rfl
    refine ⟨fun e he => ?_, fun e he => ?_, ?_, fun hcur => ?_, hrest.sorted ∘ hone.sorted, fun e => ?_,
      hrest.freed.trans hone.freed, ?_⟩
    · obtain rfl | he := List.mem_cons.1 he
      · exact (hrest.others e hd).trans hone.record
      · rw [hrest.record e he, hone.others e (hne e he), hbuilt]
    · exact (hrest.others e fun hm => he (List.mem_cons_of_mem _ hm)).trans
        (hone.others e fun hed => he (hed ▸ List.mem_cons_self))
    · rw [hrest.frame, hone.frame]
    · refine (hrest.ports fun e hline p => ?_).trans (hone.ports fun hline => hcur d hline)
      by_cases hed : e = d
      · subst hed
        rw [hone.record]
        unfold DestRecord.unforced DestRecord.released
        split
        · rw [if_neg (by rw [hline]; exact nofun)]
          exact hfed e List.mem_cons_self p
        · exact hcur e hline p
      · rw [hone.others e hed]
        exact hcur e hline p
    · rw [hrest.marks, hone.marks, List.mem_cons, or_assoc, or_left_comm]
    · rw [hrest.raised, hone.raised, List.any_cons, Bool.or_assoc]
      congr 2
      rw [Bool.eq_iff_iff, List.any_eq_true, List.any_eq_true]
      exact exists_congr fun e => and_congr_right fun he => by rw [hone.others e (hne e he), hbuilt]

/-- A release raises a destination's wanted flag exactly where its record says so. -/
theorem DestRecord.unforced_rises (d : Dest) (r : DestRecord) (built : Bool) :
    (built && r.releaseRises d) = true ↔ r.wanted = false ∧ (r.unforced d built).wanted = true := by
  unfold DestRecord.releaseRises DestRecord.unforced DestRecord.released
  cases built with
  | false =>
    rw [Bool.false_and]
    exact ⟨nofun, fun h => absurd (h.1.symm.trans h.2) nofun⟩
  | true =>
    rw [Bool.true_and, if_pos rfl]
    dsimp only
    by_cases hline : isLine d = true
    · rw [hline, if_pos rfl, Bool.true_and]
      cases hslot : r.slot with
      | none =>
        dsimp only
        rw [if_pos rfl, Option.isNone_none, Bool.true_and, Bool.and_eq_true, Bool.not_eq_true' r.wanted]
        exact and_comm
      | some n =>
        dsimp only
        rw [if_neg nofun, Option.isNone_some, Bool.false_and, Bool.false_and]
        exact ⟨nofun, fun h => absurd (h.1.symm.trans h.2) nofun⟩
    · rw [if_neg hline, Bool.eq_false_iff.2 hline, Bool.false_and, Bool.false_and, Bool.false_and]
      exact ⟨nofun, fun h => absurd (h.1.symm.trans h.2) nofun⟩

theorem State.release_releases (s : State) (k : Way) (tag : Option Nat) : s.releases (s.release k tag) k tag := by
  have hrun := Work.foldl_releasing (w := (s.setIsolated k false).begin) (fedFrom_nodup (s.setIsolated k false) k)
    fun d hd => feed_not_port (mem_fedFrom.1 hd)
  have hrelease : s.release k tag = (((s.setIsolated k false).fedFrom k).foldl
      (fun w d => if w.st.isBuilt d then w.unforceDest d else w.flagForced d false) (s.setIsolated k false).begin).finish tag := rfl
  rw [hrelease]
  generalize ((s.setIsolated k false).fedFrom k).foldl
    (fun w d => if w.st.isBuilt d then w.unforceDest d else w.flagForced d false) (s.setIsolated k false).begin = v at hrun
  have hmem : ∀ d, d ∈ (s.setIsolated k false).fedFrom k ↔ (s.record d).intentSrc.feed = some k := fun d => mem_fedFrom
  have hmark : ∀ d, d ∈ v.marks ↔ (s.record d).intentSrc.feed = some k := fun d =>
    (hrun.marks d).trans ((or_iff_right (List.not_mem_nil (a := d))).trans (hmem d))
  have hfed : ∀ d, (s.record d).intentSrc.feed = some k → v.st.record d = (s.record d).unforced d (s.isBuilt d) :=
    fun d hd => hrun.record d ((hmem d).2 hd)
  have hothers : ∀ d, (s.record d).intentSrc.feed ≠ some k → v.st.record d = s.record d :=
    fun d hd => hrun.others d fun hm => hd ((hmem d).1 hm)
  have hframe := hrun.frame
  have hre : v.st.re = s.re := by rw [hframe]; rfl
  have hocc : (v.finish tag).re.occasionDue = (s.re.occasionDue || v.raised) := by
    show (v.st.re.occasionDue || v.freed || v.raised) = _
    rw [hre, hrun.freed]
    exact congrArg (· || _) (Bool.or_false _)
  refine ⟨fun j => ?_, hfed, fun d hd => Work.finish_listed ((hmark d).2 hd), fun d x hx hd => ?_, hothers, ?_, hrun.ports, ?_, ?_, ?_⟩
  · show v.st.dt.isolated[j] = _
    rw [hframe]
    refine (getElem_set_ite _ _ _ _).trans ?_
    by_cases hj : k = j
    · rw [if_pos hj, if_pos hj.symm]
    · rw [if_neg hj, if_neg (Ne.symm hj)]
  · subst hx
    exact Work.finish_listed_tag ((hmark d).2 hd)
  · refine Work.finish_marksUpdates (by rw [hframe]; rfl) (hrun.sorted List.Pairwise.nil) fun e => ?_
    rw [hmark, beq_iff_eq]
  · unfold State.occasionFollows
    rw [hocc, Bool.or_eq_true, hrun.raised]
    refine or_congr_right ?_
    have hslots : (v.finish tag).re.slots = s.re.slots := by
      rw [← hre]
      rfl
    have hrecord : ∀ d, (v.finish tag).record d = v.st.record d := fun _ => rfl
    rw [hslots]
    refine Iff.trans ?_ (or_iff_right fun ⟨n, hn, hnone⟩ => hn hnone).symm
    rw [show (s.setIsolated k false).begin.raised = false from rfl, Bool.false_or, List.any_eq_true]
    constructor
    · rintro ⟨d, hd, hrise⟩
      obtain ⟨hoff, hon⟩ := (DestRecord.unforced_rises d _ _).1 hrise
      exact ⟨d, hoff, by rw [hrecord, hfed d ((hmem d).1 hd)]; exact hon⟩
    · rintro ⟨d, hoff, hon⟩
      rw [hrecord] at hon
      by_cases hd : (s.record d).intentSrc.feed = some k
      · rw [hfed d hd] at hon
        exact ⟨d, (hmem d).2 hd, (DestRecord.unforced_rises d _ _).2 ⟨hoff, hon⟩⟩
      · rw [hothers d hd] at hon
        exact absurd (hoff.symm.trans hon) nofun
  · have hfin : (v.finish tag).re = { v.st.re with occasionDue := (v.finish tag).re.occasionDue } := rfl
    exact hfin.trans (by rw [hre])
  · unfold Work.finish
    rw [hframe]
    rfl

end Unforce

end Sys2Proof.Machine

/-! Ways that recover or are released (R100, R103). -/

namespace Sys2Proof.Machine

section Release
variable {s t : State} {w : Way} {d : Dest}

/-- What a release makes of a record whose destination was held dark (R7, R9). -/
theorem State.innerLaw.unforced_eq {extra : Option Nat} (h : s.innerLaw extra) (hiso : s.dt.isolated[w] = true)
    (hfeed : (s.record d).intentSrc.feed = some w) : (s.record d).unforced d (s.isBuilt d) =
      if s.isBuilt d then { s.record d with
        forced := false
        curAttn := if isLine d then (s.record d).curAttn else effectiveTarget d { s.record d with forced := false }
        curSrc := if isLine d then (s.record d).curSrc else (s.record d).intentSrc
        wanted := isLine d && !atRest d { s.record d with forced := false } }
      else { s.record d with forced := false } := by
  have hforced : (s.record d).forced = true := by
    rw [(h.dests d).forcedFlag, State.forcedFor, hfeed]
    exact hiso
  have hslot := ((h.dests d).forcedRest hforced).1
  unfold DestRecord.unforced DestRecord.released
  split
  · dsimp only
    by_cases hline : isLine d = true
    · rw [if_pos hline, if_pos hslot, if_pos hline, if_pos hline, hline, Bool.true_and]
    · have hdrop := Bool.eq_false_iff.2 hline
      rw [if_neg hline, if_neg hline, if_neg hline, hdrop, Bool.false_and, ((h.dests d).drop hdrop).2.1]
  · rfl

theorem State.innerLaw.drop_not_port {extra : Option Nat} (h : s.innerLaw extra) (d : Dest) (hline : isLine d = false) (p : Port) :
    (s.record d).curSrc ≠ .port p := fun hp => by
  have hlegal := (h.dests d).current
  rw [hp] at hlegal
  exact absurd (hline.symm.trans hlegal) nofun

/-- The evaluation of an isolated way whose interval was lossy, or clean with more to come: its counts alone change (R100). -/
theorem State.evaluateIsolated_counts {lossy : Bool} (h : lossy = true ∨ (s.lm.ways[w]).recovery + 1 < 150) :
    (s.takeEvaluation w).evaluateIsolated w (s.evaluated w) lossy = (s.takeEvaluation w).setWay w
      { s.evaluated w with recovery := if lossy then 0 else (s.lm.ways[w]).recovery + 1 } := by
  cases lossy with
  | true => exact if_pos rfl
  | false => exact (if_neg nofun).trans (if_pos (h.resolve_left nofun))

/-- The evaluation of an isolated way that has its 150 clean intervals and waits for the host (R100). -/
theorem State.evaluateIsolated_manual (h : (s.lm.ways[w]).recovery = 149) (hm : s.pu.params.manual[w] = true) :
    (s.takeEvaluation w).evaluateIsolated w (s.evaluated w) false = { s.takeEvaluation w with
      lm := ((s.takeEvaluation w).setWay w { s.evaluated w with state := .awaitRelease, counter := 200, recovery := 150 }).lm
      ew := (s.emit .wayState 0 (BitVec.ofNat 16 w.val) 0x403#32 0x96C8#32).ew } := by
  have hlast : ¬ (s.evaluated w).recovery + 1 < 150 := by
    show ¬ (s.lm.ways[w]).recovery + 1 < 150
    omega
  rw [show (0x403#32 : Word) = stateDetail .isolated .awaitRelease by decide, show (0x96C8#32 : Word) = counterDetail 200 150 by decide,
    State.evaluateIsolated, if_neg nofun, if_neg hlast, if_pos (show (s.takeEvaluation w).pu.params.manual[w] = true from hm)]
  exact State.emitWayState_of (s := s) (t := (s.takeEvaluation w).setWay w
    { s.evaluated w with state := .awaitRelease, counter := 200, recovery := 150 }) rfl _ _ _

/-- The evaluation of an isolated way that has its 150 clean intervals and recovers by itself (R100). -/
theorem State.evaluateIsolated_clears (h : (s.lm.ways[w]).recovery = 149) (hm : s.pu.params.manual[w] = false) :
    (s.takeEvaluation w).evaluateIsolated w (s.evaluated w) false = State.release { s with
      lm := ((s.takeEvaluation w).setWay w (s.evaluated w).cleared).lm
      ew := (s.emit .wayState 0 (BitVec.ofNat 16 w.val) 3#32 0#32).ew } w none := by
  have hlast : ¬ (s.evaluated w).recovery + 1 < 150 := by
    show ¬ (s.lm.ways[w]).recovery + 1 < 150
    omega
  have hauto : ¬ (s.takeEvaluation w).pu.params.manual[w] = true := by
    show ¬ s.pu.params.manual[w] = true
    rw [hm]
    exact nofun
  rw [show (3#32 : Word) = stateDetail .isolated .clear by decide, show (0#32 : Word) = counterDetail 0 0 by decide,
    State.evaluateIsolated, if_neg nofun, if_neg hlast, if_neg hauto]
  exact congrArg (State.release · w none) (State.emitWayState_of (s := s)
    (t := (s.takeEvaluation w).setWay w (s.evaluated w).cleared) rfl _ _ _)

end Release

/-- Settles O48: lossy, counting, waiting for the host, or released. -/
theorem isolatedWayRecovers : Obligations.IsolatedWayRecovers := by
  unfold Obligations.IsolatedWayRecovers
  intro w s hlaw htimer hdue hstate r latch
  have hexec := exec_wayEvaluation_isolated htimer hdue hstate
  obtain ⟨hcounter, hrecovery⟩ := hlaw.isolated hstate
  have hother : ∀ (q : WayRecord) (k : Way), k ≠ w → ((s.takeEvaluation w).setWay w q).lm.ways[k] = s.lm.ways[k] :=
    fun q k hk => State.setWay_other (s.takeEvaluation w) hk q
  have hself : ∀ q : WayRecord, ((s.takeEvaluation w).setWay w q).lm.ways[w] = q := fun q => State.setWay_getElem _ _ _
  by_cases hcount : r.latch = true ∨ r.recovery + 1 < 150
  · rw [State.evaluateIsolated_counts hcount] at hexec
    refine ⟨_, hexec, fun k hk => ⟨hother _ k hk, rfl⟩, rfl, fun hl => ?_, fun hl hr => ?_, fun hl hr => ?_, fun hl hr => ?_⟩
    · rw [hself, if_pos hl]
      exact ⟨hstate, hcounter, rfl, rfl, rfl⟩
    · rw [hself, if_neg (by rw [hl]; exact nofun)]
      exact ⟨hstate, hcounter, rfl, rfl, rfl⟩
    all_goals
      obtain hcount | hcount := hcount
      · exact absurd (hl.symm.trans hcount) nofun
      · omega
  · rw [not_or, Bool.not_eq_true] at hcount
    obtain ⟨hl, hr⟩ := hcount
    have hlt : r.recovery < 150 := hrecovery
    have hr' : r.recovery = 149 := by omega
    rw [show (s.lm.ways[w]).latch = false from hl] at hexec
    cases hm : s.pu.params.manual[w] with
    | true =>
      rw [State.evaluateIsolated_manual hr' hm] at hexec
      refine ⟨_, hexec, fun k hk => ⟨hother _ k hk, rfl⟩, rfl, fun h => absurd (hl.symm.trans h) nofun, fun _ h => by omega,
        fun _ _ _ => ?_, fun _ _ => nofun⟩
      dsimp only
      rw [hself]
      refine ⟨rfl, rfl, rfl, ?_, State.raisesFirst_of_emit (u := { s.takeEvaluation w with
        ew := (s.emit .wayState 0 (BitVec.ofNat 16 w.val) 0x403#32 0x96C8#32).ew }) rfl (State.onlyRaises_of_ew rfl), rfl, rfl⟩
      rw [← hcounter]
      rfl
    | false =>
      rw [State.evaluateIsolated_clears hr' hm] at hexec
      have hrelease := State.release_releases { s with
        lm := ((s.takeEvaluation w).setWay w (s.evaluated w).cleared).lm
        ew := (s.emit .wayState 0 (BitVec.ofNat 16 w.val) 3#32 0#32).ew } w none
      generalize State.release { s with
        lm := ((s.takeEvaluation w).setWay w (s.evaluated w).cleared).lm
        ew := (s.emit .wayState 0 (BitVec.ofNat 16 w.val) 3#32 0#32).ew } w none = t at hexec hrelease
      have hlm : t.lm = ((s.takeEvaluation w).setWay w (s.evaluated w).cleared).lm := by rw [hrelease.frame]
      have hew : t.ew = (s.emit .wayState 0 (BitVec.ofNat 16 w.val) 3#32 0#32).ew := by rw [hrelease.frame]
      refine ⟨t, hexec, fun k hk => ⟨?_, (hrelease.isolated k).trans (if_neg hk)⟩, ?_, fun h => absurd (hl.symm.trans h) nofun,
        fun _ h => by omega, fun _ _ => nofun, fun _ _ _ => ?_⟩
      · rw [hlm]
        exact hother _ k hk
      · unfold State.takesEvaluation
        rw [hlm]
        rfl
      · rw [hlm, hself]
        refine ⟨rfl, rfl, rfl, rfl, (hrelease.isolated w).trans (if_pos rfl), rfl,
          State.raisesFirst_of_emit hew (State.onlyRaises_of_ew rfl), hew, fun d hd => ⟨?_, hrelease.listed d hd⟩,
          fun htable d hd => ?_, hrelease.others, hrelease.marks, fun htable => hrelease.ports fun d hline p => ?_,
          hrelease.re, hrelease.occasion, ?_⟩
        · rw [hrelease.fed d hd]
          unfold DestRecord.unforced DestRecord.released
          split
          · dsimp only
            split <;> rfl
          · rfl
        · refine (hrelease.fed d hd).trans ?_
          have hiso : s.dt.isolated[w] = true := by rw [(hlaw w).2, hstate]; rfl
          exact htable.inner.unforced_eq hiso hd
        · exact htable.inner.drop_not_port d hline p
        · have hframe := hrelease.frame
          rw [← hew] at hframe
          exact hframe

section Command
variable {s : State} {h : PostedWrite}

theorem State.mailbox_emit (s : State) (h : PostedWrite) (restart : Bool) (kind : RecordKind) (reason : Nat) (subject : BitVec 16)
    (a b : Word) : (s.emit kind reason subject a b).mailbox h restart =
      { s.emit kind reason subject a b with cbp := { s.cbp with head := .writing h.through restart } } := by
  rw [State.mailbox, State.headWrites, State.setHead, State.emit_cbp]

/-- A release that names no way in AWAIT_RELEASE is ignored with its record (R103). -/
theorem cmdReleaseStep_ignored {code : Nat} (hc : s.commandToTake 3 = some h)
    (hm : s.manualRelease h.data.toNat h.tag = s.ignoreRelease h.data.toNat code) : exec .cmdRelease s = .next
      { s.emit .releaseIgnored 0 (BitVec.ofNat 16 (min h.data.toNat 65535)) h.data (BitVec.ofNat 32 code) with
        cbp := { s.cbp with head := .writing h.through false } } := by
  refine congrArg Host.Outcome.next (?_ : cmdReleaseStep s = _)
  rw [cmdReleaseStep, hc]
  dsimp only
  rw [hm, State.ignoreRelease, BitVec.ofNat_toNat, BitVec.setWidth_eq, State.mailbox_emit]
  rfl

theorem State.manualRelease_ignored {w : Way} (tag : Nat) (h : (s.lm.ways[w]).state ≠ .awaitRelease) :
    s.manualRelease w.val tag = s.ignoreRelease w.val (s.lm.ways[w]).state.code := by
  rw [State.manualRelease, dif_pos w.isLt]
  exact if_neg h

/-- The host's way is open, so no adoption is under way. -/
theorem State.commandToTake_adoption {n : Nat} (hc : s.commandToTake n = some h) : s.pu.adoption = none := by
  obtain ⟨hhead, hzone, -, -⟩ := State.commandToTake_spec hc
  obtain ⟨-, -, hpass | hopen⟩ := State.headToTake_spec hhead
  · rw [hzone] at hpass
    cases hpass
  · rw [State.handsWindow, Bool.and_eq_true] at hopen
    exact Option.isNone_iff_eq_none.1 hopen.2

end Command

/-- Settles O23: a way in AWAIT_RELEASE is released, anything else is ignored. -/
theorem releaseCommand : Obligations.ReleaseCommand := by
  unfold Obligations.ReleaseCommand
  intro s h hlaw htable hc v ignored
  refine ⟨fun hv => cmdReleaseStep_ignored hc ?_, fun w hv => ⟨fun hstate => cmdReleaseStep_ignored hc ?_, fun hstate => ?_⟩⟩
  · rw [State.manualRelease, dif_neg (by omega)]
  · have hvw : h.data.toNat = w.val := hv
    rw [hvw]
    exact State.manualRelease_ignored h.tag hstate
  · have hexec : exec .cmdRelease s = _ := congrArg Host.Outcome.next (cmdReleaseStep_awaiting hc hv hstate)
    have hu : (s.setWay w s.lm.ways[w].cleared).emitWayState w .awaitRelease s.lm.ways[w].cleared = { s with
        lm := (s.setWay w s.lm.ways[w].cleared).lm, ew := (s.emit .wayState 0 (BitVec.ofNat 16 w.val) 4#32 0#32).ew } := by
      rw [show (4#32 : Word) = stateDetail .awaitRelease .clear by decide, show (0#32 : Word) = counterDetail 0 0 by decide]
      exact State.emitWayState_of (s := s) (t := s.setWay w s.lm.ways[w].cleared) rfl _ _ _
    rw [hu] at hexec
    have hbuilt : ∀ d, s.isBuilt d = true := fun d => by
      unfold State.isBuilt
      rw [State.commandToTake_adoption hc]
    have hiso : s.dt.isolated[w] = true := by rw [(hlaw w).2, hstate]; rfl
    have hrelease := State.release_releases { s with
      lm := (s.setWay w s.lm.ways[w].cleared).lm, ew := (s.emit .wayState 0 (BitVec.ofNat 16 w.val) 4#32 0#32).ew } w (some h.tag)
    generalize State.release { s with
      lm := (s.setWay w s.lm.ways[w].cleared).lm, ew := (s.emit .wayState 0 (BitVec.ofNat 16 w.val) 4#32 0#32).ew } w
      (some h.tag) = u at hexec hrelease
    have hframe := hrelease.frame
    refine ⟨_, hexec, ?_, State.raisesFirst_of_emit (u := u) ?_ (State.onlyRaises_of_ew rfl), ?_, hrelease.isolated,
      fun d hd => ⟨hrelease.tagged d h.tag rfl hd, ?_⟩, hrelease.others, hrelease.marks,
      hrelease.ports htable.inner.drop_not_port, hrelease.re, hrelease.occasion, ?_⟩
    · show u.lm = _
      rw [hframe]
      rfl
    · rw [hframe]
    · show u.ew = _
      rw [hframe]
    · refine (hrelease.fed d hd).trans ((htable.inner.unforced_eq hiso hd).trans (if_pos (hbuilt d)))
    · show ({ u with cbp := { u.cbp with head := .writing h.through false } } : State) = _
      rw [hframe]
      rfl

end Sys2Proof.Machine

/-! A request that works on one destination and ends (R6, R68). -/

namespace Sys2Proof.Machine

/-- A request has worked on destination `d` alone, leaving it the record `r` and the slot content `q`, a slot that it freed
counted as settled. -/
structure State.reworksOne (s t : State) (d : Dest) (r : DestRecord) (q : Option RampSlot) : Prop where
  record : t.record d = r
  content : t.slotOf d = q
  core : t.coreLaw
  others : ∀ e, e ≠ d → t.record e = s.record e
  slots : ∀ k : SlotNo, (s.record d).slot ≠ some k → t.re.slots[k] = s.re.slots[k]
  slot : ∀ n : SlotNo, (s.record d).slot = some n → t.re.slots[n] = q
  list : t.re.list = match (s.record d).slot with
    | some n => if t.re.slots[n] = none then s.re.list.erase n else s.re.list
    | none => s.re.list
  claims : ∀ p : Port, (t.dt.ports[p]).claimant = (s.dt.ports[p]).claimant
  occasion : s.occasionFollows t
  off : s.countsOff t (fun _ => false) fun e => e == d && (s.record d).slot.isSome && (t.record d).slot.isNone
  outside : s.keepsOutsideTable t
  raised : s.onlyRaises t
  ticks : s.keepsTicks t
  dt : t.dt = { s.dt with records := t.dt.records, ports := t.dt.ports, updates := t.dt.updates }
  sets : t.csa = { s.csa with settling := t.csa.settling }
  ids : (t.csa.settling.map SettlingSet.id).Sublist (s.csa.settling.map SettlingSet.id)

section One
variable {s t : State} {v : Work} {d : Dest} {r : DestRecord} {q : Option RampSlot} {lift : Bool} {tag : Option Nat}

theorem State.requests.keepsTicks_finish {w : Work} (h : s.requests w.st) (tag : Option Nat) : s.keepsTicks (w.finish tag) := by
  have hfin : (w.finish tag).re = { w.st.re with occasionDue := (w.finish tag).re.occasionDue } := rfl
  unfold State.keepsTicks
  conv_lhs => rw [hfin, h.re]
  rfl

theorem sum_single_dest (d : Dest) (b : Bool) (g : Dest → Nat) :
    (∑ e, if (e == d && b) = true then g e else 0) = if b = true then g d else 0 := by
  rw [Finset.sum_eq_single d]
  · rw [beq_self_eq_true, Bool.true_and]
  · intro e _ he
    rw [beq_eq_false_iff_ne.2 he, Bool.false_and, if_neg nofun]
  · exact fun h => absurd (Finset.mem_univ d) h

theorem endedOf_eq_servesOf (h : s.coreLaw) (ht : q = none ↔ r.slot = none) (x : Nat) :
    endedOf (s.slotOf d) q x = if ((s.record d).slot.isSome && r.slot.isNone) = true then s.servesOf d x else 0 := by
  unfold endedOf State.servesOf
  cases hslot : (s.record d).slot with
  | none =>
    rw [State.slotOf_none hslot, Option.isSome_none, Bool.false_and, if_neg Bool.false_ne_true, Option.bind_none, oneOf,
      if_neg (c := none = some x) nofun, ite_self]
  | some n =>
    rw [Option.isSome_some, Bool.true_and]
    by_cases hq : q = none
    · rw [if_pos hq, if_pos (Option.isNone_iff_eq_none.2 (ht.1 hq))]
    · rw [if_neg hq, if_neg fun hr => hq (ht.2 (Option.isNone_iff_eq_none.1 hr))]

/-- The end of a request that has worked on one destination. -/
theorem Work.makes.finish (k : s.begin.makes v d r q lift (fun _ => 0) (endedOf (s.slotOf d) q)) (h : s.innerLaw none)
    (hre : s.reworks v.st) (hlift : lift = true ↔ (s.record d).wanted = false ∧ r.wanted = true) :
    s.reworksOne (v.finish tag) d r q := by
  have hcore : s.begin.st.coreLaw := h.core
  have hcontent : v.st.slotOf d = q := k.content
  have hrecord : v.st.record d = r := k.record
  have hnone : ∀ n : SlotNo, s.re.slots[n] = none → v.st.re.slots[n] = none :=
    fun n hn => k.frees.slots_none hcore k.core hn
  have hsome : ∀ (n : SlotNo) sl, s.re.slots[n] = some sl → v.st.re.slots[n] = v.st.slotOf sl.dest :=
    fun n sl hs => k.frees.slots_some hcore k.core hs
  have hother : ∀ j : SlotNo, (s.record d).slot ≠ some j → v.st.re.slots[j] = s.re.slots[j] := fun j hj => by
    cases hs : s.re.slots[j] with
    | none => exact hnone j hs
    | some x =>
      have hx : x.dest ≠ d := fun he => hj (he ▸ (h.core.slots j x hs).2)
      rw [hsome j x hs]
      exact (k.toacts.slotOf x.dest hx).trans (h.core.slotOf_of_slots hs)
  have hown : ∀ n : SlotNo, (s.record d).slot = some n → v.st.re.slots[n] = q := fun n hn => by
    obtain ⟨sl, hs, rfl⟩ := h.core.slotNames d n hn
    rw [hsome n sl hs, hcontent]
  have hlist := k.frees.list_eq hcore k.core
  have hoccupied : ∀ n ∈ s.re.list, (s.re.slots[n]).isSome = true := fun n hn => (h.core.list.2 n).1 hn
  refine {
    record := hrecord, content := hcontent, others := k.others, slots := hother, slot := hown
    core := k.core.congr rfl rfl rfl rfl rfl
    list := ?_
    claims := k.claims
    occasion := k.frees.occasionFollows hcore k.core rfl rfl (by rw [hre.re]; rfl) (hlift.trans ⟨fun hw => ⟨d, hw.1, by rw [hrecord]; exact hw.2⟩,
      fun ⟨e, hoff, hon⟩ => ?_⟩)
    off := ?_
    outside := hre.outside.trans (v.finish_keepsOutsideTable tag)
    raised := ⟨k.counts.raises.writer, k.counts.raises.queue, k.counts.raises.dropped⟩
    ticks := hre.torequests.keepsTicks_finish tag
    dt := ?_, sets := hre.sets, ids := hre.ids }
  · show v.st.re.list = _
    rw [hlist]
    cases hslot : (s.record d).slot with
    | none =>
      refine List.filter_eq_self.2 fun n hn => ?_
      rw [hother n (by rw [hslot]; exact nofun)]
      exact hoccupied n hn
    | some n =>
      show _ = if v.st.re.slots[n] = none then _ else _
      split
      · next hfree =>
        rw [h.core.list.1.erase_eq_filter]
        refine List.filter_congr fun j hj => ?_
        by_cases hjn : j = n
        · rw [hjn, hfree, bne_self_eq_false]
          rfl
        · rw [hother j (by rw [hslot]; exact fun he => hjn (Option.some.inj he).symm), hoccupied j hj, bne_iff_ne.2 hjn]
      · next hkept =>
        refine List.filter_eq_self.2 fun j hj => ?_
        by_cases hjn : j = n
        · rw [hjn]
          exact Option.isSome_iff_ne_none.2 hkept
        · rw [hother j (by rw [hslot]; exact fun he => hjn (Option.some.inj he).symm)]
          exact hoccupied j hj
  · by_cases he : e = d
    · rw [he] at hoff hon
      rw [hrecord] at hon
      exact ⟨hoff, hon⟩
    · rw [k.others e he] at hon
      exact absurd (hoff.symm.trans hon) nofun
  · have hq : q = none ↔ r.slot = none := by
      rw [← hcontent, ← hrecord]
      exact State.slotOf_eq_none_iff k.core
    have hoff := State.countsOff_of_counts (cutD := fun _ => false)
      (endedD := fun e => e == d && ((s.record d).slot.isSome && r.slot.isNone)) h.core h.serves
      (t := v.finish tag) ⟨k.counts.settling, ⟨k.counts.raises.writer, k.counts.raises.queue, k.counts.raises.dropped⟩,
        k.counts.room, k.counts.recorded⟩
      (fun x => (Finset.sum_eq_zero fun e _ => if_neg nofun).symm)
      (fun x => by rw [sum_single_dest, endedOf_eq_servesOf h.core hq])
    have hfin : (v.finish tag).record d = r := hrecord
    rw [hfin]
    simp only [Bool.and_assoc]
    exact hoff
  · have hfin : (v.finish tag).dt = { v.st.dt with updates := (v.finish tag).dt.updates } := rfl
    conv_lhs => rw [hfin, hre.dt]
    rfl

theorem Work.makes.finish_marks {cut ended : Nat → Nat} (k : s.begin.makes v d r q lift cut ended) (hre : s.reworks v.st)
    (hmark : d ∈ v.marks) : s.marksUpdates (v.finish tag) tag fun e => e == d := by
  refine Work.finish_marksUpdates (by rw [hre.dt]) (k.sorted List.Pairwise.nil) fun e => ?_
  rw [beq_iff_eq]
  exact ⟨fun he => (k.only e he).resolve_left List.not_mem_nil, fun he => he ▸ hmark⟩

end One

end Sys2Proof.Machine

/-! Requests do not read the table-update list, the occasion noted as due or the bus port: begun beside another state that
differs in these alone, a request does the same. -/

namespace Sys2Proof.Machine

/-- The state with another bus port, table-update list and occasion. -/
def State.beside (s : State) (c : BusPort) (u : List UpdateEntry) (o : Bool) : State :=
  { s with cbp := c, dt := { s.dt with updates := u }, re := { s.re with occasionDue := o } }

/-- Two requests under way do the same beside each other; the second has marked the destinations `M` more, and has noted
freed slots and raised flags where `f` and `r` say so. -/
structure Work.alike (M : Dest → Prop) (f r : Bool) (w v : Work) : Prop where
  st : ∃ c u o, v.st = w.st.beside c u o
  marks : ∀ e, e ∈ v.marks ↔ e ∈ w.marks ∨ M e
  freed : v.freed = (w.freed || f)
  raised : v.raised = (w.raised || r)

section Alike
variable {M : Dest → Prop} {f r : Bool} {w v : Work} {d : Dest} {n : SlotNo}

theorem Work.alike.record (h : Work.alike M f r w v) (d : Dest) : v.st.record d = w.st.record d := by
  obtain ⟨c, u, o, he⟩ := h.st
  rw [he]
  rfl

theorem Work.alike.slots (h : Work.alike M f r w v) : v.st.re.slots = w.st.re.slots := by
  obtain ⟨c, u, o, he⟩ := h.st
  rw [he]
  rfl

theorem Work.alike.otherHolder (h : Work.alike M f r w v) (d : Dest) (src : Source) :
    v.st.otherHolder d src = w.st.otherHolder d src := by
  obtain ⟨c, u, o, he⟩ := h.st
  rw [he]
  rfl

theorem Work.alike.forcedFor (h : Work.alike M f r w v) (src : Source) : v.st.forcedFor src = w.st.forcedFor src := by
  obtain ⟨c, u, o, he⟩ := h.st
  rw [he]
  rfl

theorem Work.alike.csa (h : Work.alike M f r w v) : v.st.csa = w.st.csa := by
  obtain ⟨c, u, o, he⟩ := h.st
  rw [he]
  rfl

/-- A change of the state that commutes with the other bus port, list and occasion. -/
theorem Work.alike.change (h : Work.alike M f r w v) {g : State → State}
    (hg : ∀ s c u o, g (s.beside c u o) = (g s).beside c u o) :
    Work.alike M f r { w with st := g w.st } { v with st := g v.st } := by
  obtain ⟨c, u, o, he⟩ := h.st
  exact ⟨⟨c, u, o, by dsimp only; rw [he, hg]⟩, h.marks, h.freed, h.raised⟩

theorem Work.alike.mark (h : Work.alike M f r w v) (d : Dest) : Work.alike M f r (w.mark d) (v.mark d) :=
  ⟨h.st, fun e => by
    show e ∈ insertDest d v.marks ↔ e ∈ insertDest d w.marks ∨ M e
    rw [mem_insertDest, mem_insertDest, h.marks, or_assoc], h.freed, h.raised⟩

theorem Work.alike.setRecord (h : Work.alike M f r w v) (d : Dest) (q : DestRecord) :
    Work.alike M f r (w.setRecord d q) (v.setRecord d q) :=
  h.change (g := fun s => s.setRecord d q) fun _ _ _ _ => rfl

theorem Work.alike.freeing (h : Work.alike M f r w v) : Work.alike M f r { w with freed := true } { v with freed := true } :=
  ⟨h.st, h.marks, (Bool.true_or _).symm, h.raised⟩

theorem Work.alike.raising (h : Work.alike M f r w v) (b : Bool) :
    Work.alike M f r { w with raised := w.raised || b } { v with raised := v.raised || b } :=
  ⟨h.st, h.marks, h.freed, by
    dsimp only
    rw [h.raised, Bool.or_right_comm]⟩

theorem reportLoad_beside (s : State) (c : BusPort) (u : List UpdateEntry) (o : Bool) (d : Dest) (old new : DestRecord) :
    (s.beside c u o).reportLoad d old new = (s.reportLoad d old new).beside c u o := by
  unfold State.reportLoad
  split <;> rfl

theorem clearHolder_beside (s : State) (c : BusPort) (u : List UpdateEntry) (o : Bool) (src : Source) :
    (s.beside c u o).clearHolder src = (s.clearHolder src).beside c u o := by cases src <;> rfl

theorem takeHolder_beside (s : State) (c : BusPort) (u : List UpdateEntry) (o : Bool) (d : Dest) (src : Source) :
    (s.beside c u o).takeHolder d src = (s.takeHolder d src).beside c u o := by cases src <;> rfl

theorem emit_beside (s : State) (c : BusPort) (u : List UpdateEntry) (o : Bool) (kind : RecordKind) (reason : Nat)
    (subject : BitVec 16) (a b : Word) : (s.beside c u o).emit kind reason subject a b =
      (s.emit kind reason subject a b).beside c u o := by
  unfold State.emit
  show (if s.ew.queue.length < Config.eventCapacity then _ else _) = _
  split <;> rfl

theorem releaseSet_beside (s : State) (c : BusPort) (u : List UpdateEntry) (o : Bool) (serves : Option Nat)
    (interrupted : Bool) : (s.beside c u o).releaseSet serves interrupted = (s.releaseSet serves interrupted).beside c u o := by
  unfold State.releaseSet
  cases serves with
  | none => rfl
  | some id =>
    show (match s.csa.settling.find? fun e => e.id == id with
      | none => _
      | some e => _) = _
    cases hfind : s.csa.settling.find? fun e => e.id == id with
    | none => simp only [hfind]
    | some e =>
      simp only [hfind]
      split
      · exact emit_beside { s with csa := { s.csa with settling := s.csa.settling.filter fun x => x.id != id } } c u o _ _ _ _ _
      · rfl

theorem Work.alike.writeCurrent (h : Work.alike M f r w v) (d : Dest) (src : Source) (attn : Attn) :
    Work.alike M f r (w.writeCurrent d src attn) (v.writeCurrent d src attn) := by
  unfold Work.writeCurrent
  rw [h.record]
  refine Work.alike.mark (h.change (g := fun s => (((s.setRecord d { w.st.record d with curSrc := src, curAttn := attn }).reportLoad d
    (w.st.record d) { w.st.record d with curSrc := src, curAttn := attn }).clearHolder (w.st.record d).curSrc).takeHolder d src)
    fun s c u o => ?_) d
  rw [show (s.beside c u o).setRecord d { w.st.record d with curSrc := src, curAttn := attn } =
    (s.setRecord d { w.st.record d with curSrc := src, curAttn := attn }).beside c u o from rfl, reportLoad_beside,
    clearHolder_beside, takeHolder_beside]

theorem Work.alike.releaseSet (h : Work.alike M f r w v) (serves : Option Nat) (interrupted : Bool) :
    Work.alike M f r { w with st := w.st.releaseSet serves interrupted } { v with st := v.st.releaseSet serves interrupted } :=
  h.change (g := fun s => s.releaseSet serves interrupted) fun s c u o => releaseSet_beside s c u o serves interrupted

theorem Work.alike.emit (h : Work.alike M f r w v) (kind : RecordKind) (reason : Nat) (subject : BitVec 16) (a b : Word) :
    Work.alike M f r (w.emit kind reason subject a b) (v.emit kind reason subject a b) :=
  h.change (g := fun s => s.emit kind reason subject a b) fun s c u o => emit_beside s c u o kind reason subject a b

theorem Work.alike.freeSlot (h : Work.alike M f r w v) (n : SlotNo) : Work.alike M f r (w.freeSlot n) (v.freeSlot n) := by
  cases hs : w.st.re.slots[n] with
  | none =>
    have hv : v.st.re.slots[n] = none := by rw [h.slots, hs]
    unfold Work.freeSlot
    rw [hs, hv]
    exact h
  | some sl =>
    have hv : v.st.re.slots[n] = some sl := by rw [h.slots, hs]
    rw [Work.freeSlot_eq hs, Work.freeSlot_eq hv, h.record]
    exact Work.alike.mark (Work.alike.freeing (h.change (g := fun s => State.setRecord
      { s with re := { s.re with slots := s.re.slots.set n none, list := s.re.list.erase n } } sl.dest
      { w.st.record sl.dest with slot := none }) fun _ _ _ _ => rfl)) sl.dest

theorem Work.alike.interruptSlot (h : Work.alike M f r w v) (n : SlotNo) :
    Work.alike M f r (w.interruptSlot n) (v.interruptSlot n) := by
  unfold Work.interruptSlot
  rw [h.slots]
  split
  · exact h
  · exact (h.releaseSet _ true).freeSlot n

theorem Work.alike.settleSlot (h : Work.alike M f r w v) (n : SlotNo) : Work.alike M f r (w.settleSlot n) (v.settleSlot n) := by
  unfold Work.settleSlot
  rw [h.slots]
  split
  · exact h
  · exact (h.releaseSet _ false).freeSlot n

theorem Work.alike.setSlot (h : Work.alike M f r w v) (n : SlotNo) (q : Option RampSlot) :
    Work.alike M f r { w with st := w.st.setSlot n q } { v with st := v.st.setSlot n q } :=
  h.change (g := fun s => s.setSlot n q) fun _ _ _ _ => rfl

theorem Work.alike.setPhase (h : Work.alike M f r w v) (n : SlotNo) (phase : Phase) (goal : Attn) :
    Work.alike M f r (w.setPhase n phase goal) (v.setPhase n phase goal) := by
  unfold Work.setPhase
  rw [h.slots]
  split
  · exact h
  · dsimp only
    split
    · exact h.setSlot n _
    · exact (h.setSlot n _).mark _

theorem Work.alike.evaluateGoal (h : Work.alike M f r w v) (n : SlotNo) (d : Dest) :
    Work.alike M f r (w.evaluateGoal n d) (v.evaluateGoal n d) := by
  unfold Work.evaluateGoal
  dsimp only
  rw [h.record]
  split
  · exact h.settleSlot n
  · split <;> exact h.setPhase n _ _

theorem Work.alike.evaluate (h : Work.alike M f r w v) (n : SlotNo) : Work.alike M f r (w.evaluate n) (v.evaluate n) := by
  unfold Work.evaluate
  rw [h.slots]
  split
  · exact h
  · dsimp only
    rw [h.record, h.otherHolder]
    split
    · exact h.evaluateGoal n _
    · split
      · exact h.setPhase n _ _
      · split
        · unfold Work.enterPortWait
          split
          · exact h.setPhase n _ _
          · exact (h.writeCurrent _ _ _).setPhase n _ _
        · exact (h.writeCurrent _ _ _).evaluateGoal n _

theorem Work.alike.reevaluateWanted (h : Work.alike M f r w v) (d : Dest) :
    Work.alike M f r (w.reevaluateWanted d) (v.reevaluateWanted d) := by
  unfold Work.reevaluateWanted
  dsimp only
  rw [h.record]
  exact (h.setRecord d _).raising _

theorem Work.alike.reevaluateDrop (h : Work.alike M f r w v) (d : Dest) :
    Work.alike M f r (w.reevaluateDrop d) (v.reevaluateDrop d) := by
  unfold Work.reevaluateDrop
  dsimp only
  rw [h.record]
  split
  · exact h
  · exact h.writeCurrent d _ _

theorem Work.alike.changeBlocked (h : Work.alike M f r w v) (d : Dest) (b : Bool) :
    Work.alike M f r (w.changeBlocked d b) (v.changeBlocked d b) := by
  have hset := (h.setRecord d { w.st.record d with blocked := b }).mark d
  have hslot := congrArg DestRecord.slot (hset.record d)
  unfold Work.changeBlocked
  rw [h.record]
  dsimp only
  dsimp only at hset hslot
  rw [hslot]
  split
  · exact hset.evaluate _
  · exact hset.reevaluateWanted d

theorem Work.alike.begin (s : State) (c : BusPort) (u : List UpdateEntry) (o : Bool) :
    Work.alike (fun _ => False) false false s.begin (s.beside c u o).begin :=
  ⟨⟨c, u, o, rfl⟩, fun _ => (or_iff_left id).symm, rfl, rfl⟩

end Alike

/-! ### Marks in order -/

section Sorted
variable {w : Work} {d : Dest} {n : SlotNo}

theorem Work.freeSlot_sorted (h : w.marks.Pairwise (· < ·)) (n : SlotNo) : (w.freeSlot n).marks.Pairwise (· < ·) := by
  unfold Work.freeSlot
  split
  · exact h
  · exact (insertDest_spec _ _ h).1

theorem Work.setPhase_sorted (h : w.marks.Pairwise (· < ·)) (n : SlotNo) (phase : Phase) (goal : Attn) :
    (w.setPhase n phase goal).marks.Pairwise (· < ·) := by
  unfold Work.setPhase
  split
  · exact h
  · dsimp only
    split
    · exact h
    · exact (insertDest_spec _ _ h).1

theorem Work.settleSlot_sorted (h : w.marks.Pairwise (· < ·)) (n : SlotNo) : (w.settleSlot n).marks.Pairwise (· < ·) := by
  unfold Work.settleSlot
  split
  · exact h
  · next sl _ => exact Work.freeSlot_sorted (w := { w with st := w.st.releaseSet sl.serves false }) h n

theorem Work.evaluateGoal_sorted (h : w.marks.Pairwise (· < ·)) (n : SlotNo) (d : Dest) :
    (w.evaluateGoal n d).marks.Pairwise (· < ·) := by
  unfold Work.evaluateGoal
  dsimp only
  split
  · exact Work.settleSlot_sorted h n
  · split <;> exact Work.setPhase_sorted h n _ _

theorem Work.writeCurrent_sorted (h : w.marks.Pairwise (· < ·)) (d : Dest) (src : Source) (attn : Attn) :
    (w.writeCurrent d src attn).marks.Pairwise (· < ·) := (insertDest_spec d w.marks h).1

theorem Work.evaluate_sorted (h : w.marks.Pairwise (· < ·)) (n : SlotNo) : (w.evaluate n).marks.Pairwise (· < ·) := by
  unfold Work.evaluate
  split
  · exact h
  · dsimp only
    split
    · exact Work.evaluateGoal_sorted h n _
    · split
      · exact Work.setPhase_sorted h n _ _
      · split
        · unfold Work.enterPortWait
          split
          · exact Work.setPhase_sorted h n _ _
          · exact Work.setPhase_sorted (Work.writeCurrent_sorted h _ _ _) n _ _
        · exact Work.evaluateGoal_sorted (Work.writeCurrent_sorted h _ _ _) n _

theorem Work.changeBlocked_sorted (h : w.marks.Pairwise (· < ·)) (d : Dest) (b : Bool) :
    (w.changeBlocked d b).marks.Pairwise (· < ·) := by
  have hmark := (insertDest_spec d w.marks h).1
  unfold Work.changeBlocked
  dsimp only
  split
  · exact Work.evaluate_sorted (w := (w.setRecord d { w.st.record d with blocked := b }).mark d) hmark _
  · exact hmark

end Sorted

/-- A blocked-flag request does not read the bus port. -/
theorem State.blockRequest_beside (s : State) (c : BusPort) (tag : Nat) (d : Dest) (b : Bool) :
    ({ s with cbp := c } : State).blockRequest tag d b = { s.blockRequest tag d b with cbp := c } := by
  have hlike := (Work.alike.begin s c s.dt.updates s.re.occasionDue).changeBlocked d b
  have hw : s.reworks (s.begin.changeBlocked d b).st := (State.reworks.refl s).changeBlocked (w := s.begin) d b
  have hv : (s.beside c s.dt.updates s.re.occasionDue).reworks ((s.beside c s.dt.updates s.re.occasionDue).begin.changeBlocked d b).st :=
    State.reworks.changeBlocked (w := (s.beside c s.dt.updates s.re.occasionDue).begin) (.refl _) d b
  have hmarks : ((s.beside c s.dt.updates s.re.occasionDue).begin.changeBlocked d b).marks = (s.begin.changeBlocked d b).marks :=
    (Work.changeBlocked_sorted List.Pairwise.nil d b).eq_of_mem_iff (Work.changeBlocked_sorted List.Pairwise.nil d b) fun e =>
      (hlike.marks e).trans (or_iff_left id)
  have hst : ((s.beside c s.dt.updates s.re.occasionDue).begin.changeBlocked d b).st =
      { (s.begin.changeBlocked d b).st with cbp := c } := by
    obtain ⟨c', u', o', he⟩ := hlike.st
    have hcbp := hv.outside.cbp
    have hdt := hv.dt
    have hre := hv.re
    rw [he] at hcbp hdt hre ⊢
    have hu : u' = s.dt.updates := congrArg DestTable.updates hdt
    have ho : o' = s.re.occasionDue := congrArg RampEngine.occasionDue hre
    have hc : c' = c := hcbp
    have hwu : (s.begin.changeBlocked d b).st.dt.updates = s.dt.updates := by rw [hw.dt]
    have hwo : (s.begin.changeBlocked d b).st.re.occasionDue = s.re.occasionDue := by rw [hw.re]
    rw [hu, ho, hc, State.beside, ← hwu, ← hwo]
  have hfreed := hlike.freed
  have hraised := hlike.raised
  rw [Bool.or_false] at hfreed hraised
  show Work.finish ((s.beside c s.dt.updates s.re.occasionDue).begin.changeBlocked d b) (some tag) = _
  unfold Work.finish State.blockRequest
  rw [hmarks, hst, hfreed, hraised]
  rfl

end Sys2Proof.Machine

/-! The blocked-flag request of a mask write (R6, R87). -/

namespace Sys2Proof.Machine

/-! ### Loads -/

section Loads
variable {w : Work} {d : Dest} {n : SlotNo}

theorem contribution_dark {r : DestRecord} (h : r.curAttn = dark) : contribution r = 0 := by
  unfold contribution
  split
  · rfl
  · rw [h]
    decide

theorem Work.writeCurrent_loads_dark (w : Work) (d : Dest) (src : Source) (h : (w.st.record d).curAttn = dark) :
    (w.writeCurrent d src dark).st.re.loads = w.st.re.loads := by
  have hclear : ∀ (s : State) (o : Source), (s.clearHolder o).re = s.re := fun s o => by cases o <;> rfl
  have htake : ∀ s : State, (s.takeHolder d src).re = s.re := fun s => by cases src <;> rfl
  unfold Work.writeCurrent
  dsimp only [Work.mark_st]
  rw [htake, hclear]
  unfold State.reportLoad
  split
  · rw [contribution_dark h, contribution_dark (r := { w.st.record d with curSrc := src, curAttn := dark }) rfl]
    exact Vector.set_getElem_self _
  · rfl

theorem Work.setPhase_loads (w : Work) (n : SlotNo) (phase : Phase) (goal : Attn) :
    (w.setPhase n phase goal).st.re.loads = w.st.re.loads := by
  unfold Work.setPhase
  split
  · rfl
  · dsimp only
    split <;> rfl

theorem Work.settleSlot_loads (w : Work) (n : SlotNo) : (w.settleSlot n).st.re.loads = w.st.re.loads := by
  unfold Work.settleSlot
  split
  · rfl
  · unfold Work.freeSlot
    split
    · dsimp only
      rw [State.releaseSet_re]
    · dsimp only [Work.mark_st, State.setRecord, State.setSlot]
      rw [State.releaseSet_re]

theorem Work.evaluateGoal_loads (w : Work) (n : SlotNo) (d : Dest) : (w.evaluateGoal n d).st.re.loads = w.st.re.loads := by
  unfold Work.evaluateGoal
  dsimp only
  split
  · exact w.settleSlot_loads n
  · split <;> exact w.setPhase_loads n _ _

/-- Phase evaluation moves no weight: it writes currents at dark alone. -/
theorem Work.evaluate_loads (w : Work) (n : SlotNo) : (w.evaluate n).st.re.loads = w.st.re.loads := by
  unfold Work.evaluate
  split
  · rfl
  · next sl _ =>
    dsimp only
    split
    · exact w.evaluateGoal_loads n _
    · split
      · exact w.setPhase_loads n _ _
      · next hattn =>
        have hdark := Classical.not_not.1 hattn
        split
        · unfold Work.enterPortWait
          split
          · exact w.setPhase_loads n _ _
          · exact (Work.setPhase_loads _ n _ _).trans (w.writeCurrent_loads_dark _ _ hdark)
        · exact (Work.evaluateGoal_loads _ n _).trans (w.writeCurrent_loads_dark _ _ hdark)

theorem Work.changeBlocked_loads (w : Work) (d : Dest) (b : Bool) : (w.changeBlocked d b).st.re.loads = w.st.re.loads := by
  unfold Work.changeBlocked
  dsimp only
  split
  · exact Work.evaluate_loads _ _
  · rfl

end Loads

section Block
variable {s : State} {d : Dest} {b : Bool} {tag : Nat} {m : Fin 12} {r : DestRecord} {sl : RampSlot} {held : Option RampSlot}
  {claimed : Bool}

theorem DestRecord.rises_iff (hslot : r.slot = none → held = none) (hwanted : r.slot ≠ none → r.wanted = false)
    (hheld : held = none → r.slot = none) :
    r.rises d held = true ↔ r.wanted = false ∧ (r.reevaluated d held claimed).1.wanted = true := by
  unfold DestRecord.rises
  cases held with
  | none =>
    rw [Option.isNone_none, Bool.true_and, Bool.and_eq_true, Bool.not_eq_true' r.wanted]
    exact and_comm
  | some sl =>
    have hw : r.wanted = false := hwanted fun hn => nomatch hslot hn
    rw [Option.isNone_some, Bool.false_and, Bool.false_and]
    refine ⟨nofun, fun h => ?_⟩
    have hon := h.2
    unfold DestRecord.reevaluated at hon
    rw [DestRecord.phased_record] at hon
    exact absurd (hw.symm.trans hon) nofun

/-- What one blocked-flag request does (R6). -/
theorem State.blockRequest_reworksOne (h : s.innerLaw none) (hbuilt : s.isBuilt d = true) (tag : Nat) (b : Bool) :
    let r := { s.record d with blocked := b }
    let left := r.reevaluated d (s.slotOf d) (s.otherHolder d r.intentSrc).isSome
    s.reworksOne (s.blockRequest tag d b) d left.1 left.2 ∧
      (s.marksUpdates (s.blockRequest tag d b) (some tag) fun e => e == d) ∧
      ∃ u ∈ (s.blockRequest tag d b).dt.updates, u.dest = d ∧ u.tag = some tag := by
  intro r left
  obtain ⟨hmake, hmark⟩ := Work.changeBlocked_makes (w := s.begin) h.core h.listed hbuilt (h.waits d) b
  have hre : s.reworks (s.begin.changeBlocked d b).st := (State.reworks.refl s).changeBlocked (w := s.begin) d b
  refine ⟨hmake.finish h hre ?_, hmake.finish_marks hre hmark, Work.finish_listed_tag hmark⟩
  refine DestRecord.rises_iff (fun hn => ?_) (fun hn => ?_) fun hn => ?_
  · exact State.slotOf_none hn
  · exact ((h.dests d).slotted hn).2.1
  · exact (State.slotOf_eq_none_iff h.core).1 hn

theorem isLine_maskDest (m : Fin 12) (b : Fin 32) : isLine (maskDest m b) = true := by
  refine decide_eq_true ?_
  show 32 * m.val + b.val < 384
  omega

/-- A lawful slot of a destination off its intent source dims to dark, or waits for its port at dark (R72). -/
theorem RampSlot.follows.off (h : sl.follows d r) (hdark : r.curSrc = .none → r.curAttn = dark) (hsrc : r.curSrc ≠ r.intentSrc) :
    sl.goal = dark ∧ (r.curAttn ≠ dark → sl.phase = .dimming) ∧ (r.curAttn = dark → sl.phase = .portWait ∧ r.curSrc = .none) := by
  have hgoal := h.toDark hsrc
  have hbright : sl.phase ≠ .brightening := fun hp => by
    have hlt := h.brightens hp
    rw [hgoal] at hlt
    have hmax : dark.toNat = 255 := rfl
    have := r.curAttn.isLt
    omega
  refine ⟨hgoal, fun hattn => ?_, fun hattn => ?_⟩
  · cases hp : sl.phase with
    | dimming => rfl
    | brightening => exact absurd hp hbright
    | portWait => exact absurd (hdark (h.waiting hp).1) hattn
  · cases hp : sl.phase with
    | dimming =>
      have hlt := h.dims hp
      rw [hattn, hgoal] at hlt
      exact absurd hlt (Nat.lt_irrefl _)
    | brightening => exact absurd hp hbright
    | portWait => exact ⟨rfl, (h.waiting hp).1⟩

/-- Phase evaluation of a destination off its intent source that cannot switch leaves it as it was (R53, R72). -/
theorem DestRecord.phased_stays (h : sl.follows d r) (hdark : r.curSrc = .none → r.curAttn = dark) (hsrc : r.curSrc ≠ r.intentSrc)
    {q : DestRecord} (hq : q = { r with blocked := b }) (hstay : r.curAttn ≠ dark ∨ claimed = true) :
    q.phased d sl claimed = (q, some { sl with goal := dark }) := by
  obtain ⟨hgoal, hdim, hwait⟩ := h.off hdark hsrc
  subst hq
  unfold DestRecord.phased
  dsimp only
  rw [if_neg hsrc]
  by_cases hattn : r.curAttn = dark
  · obtain ⟨hphase, hnone⟩ := hwait hattn
    rw [if_neg (not_not.2 hattn), if_pos (hstay.resolve_left (not_not.2 hattn)), ← hphase, ← hnone]
  · rw [if_pos hattn, ← hdim hattn]

/-- Phase evaluation of a dark destination that takes its intent source (R54, R72). -/
theorem DestRecord.phased_switches (hsrc : r.curSrc ≠ r.intentSrc) (hattn : r.curAttn = dark) :
    r.phased d sl false = { r with curSrc := r.intentSrc }.towardTarget d sl := by
  unfold DestRecord.phased
  rw [if_neg hsrc, if_neg (not_not.2 hattn), if_neg nofun]

theorem State.otherHolder_isSome_iff {src : Source} : (s.otherHolder d src).isSome = true ↔
    ∃ p e, src = .port p ∧ s.dt.ports[p].holder = some e ∧ e ≠ d := by
  rw [Option.isSome_iff_ne_none, Ne, State.otherHolder_eq_none_iff]
  push_neg
  rfl

/-- With the same claimants and the same current sources the port map is the same. -/
theorem ports_eq_of_currents {t : State} (h : s.coreLaw) (k : t.coreLaw) (hmap : s.mapStands) (hpu : t.pu = s.pu)
    (hclaims : ∀ p : Port, (t.dt.ports[p]).claimant = (s.dt.ports[p]).claimant)
    (hcur : ∀ e, (t.record e).curSrc = (s.record e).curSrc) : t.dt.ports = s.dt.ports := by
  refine Vector.ext fun i hi => ?_
  have hmap' : t.mapStands := by unfold State.mapStands at hmap ⊢; rwa [hpu]
  have hbuilt : ∀ e, t.isBuilt e = s.isBuilt e := fun e => by unfold State.isBuilt; rw [hpu]
  have hholder : (t.dt.ports[(⟨i, hi⟩ : Port)]).holder = (s.dt.ports[(⟨i, hi⟩ : Port)]).holder := Option.ext fun e => by
    rw [k.holders hmap', h.holders hmap, hbuilt, hcur]
  exact congrArg₂ PortRecord.mk hholder (hclaims ⟨i, hi⟩)

/-- The head that takes a mask write sends its first request, or goes on to the memory write (R87). -/
theorem exec_maskViewWrite_taken {h : PostedWrite} {view : MaskView} (hh : s.headToTake = some h) (hz : h.zone = .mask view)
    (hm : maskIndex view (offsetOf h.addr) = some m) : maskViewWriteStep s =
      (s.setMask m (maskWrite view (s.maskWord m) h.position h.bytes)).blockNext h.tag m
        (changedBits (s.maskWord m) (maskWrite view (s.maskWord m) h.position h.bytes)) := by
  obtain ⟨hhead, ⟨rest, hq⟩, -⟩ := State.headToTake_spec hh
  unfold maskViewWriteStep
  rw [hhead, hq]
  dsimp only
  rw [hh]
  dsimp only
  rw [hz]
  dsimp only
  rw [State.takeMaskWrite, hm]

theorem State.maskWord_setMask (s : State) (m : Fin 12) (w : Word) : (s.setMask m w).maskWord m = w := by
  unfold State.maskWord
  have hget : (s.setMask m w).masks[m] = some w := Vector.getElem_set_self _
  rw [hget]
  rfl

/-- Without slot a blocked-flag request touches no set and raises no record. -/
theorem State.blockRequest_plain (tag : Nat) (b : Bool) (h : (s.record d).slot = none) :
    (s.blockRequest tag d b).ew = s.ew ∧ (s.blockRequest tag d b).csa = s.csa := by
  have heq : s.begin.changeBlocked d b =
      ((s.begin.setRecord d { s.record d with blocked := b }).mark d).reevaluateWanted d := by
    unfold Work.changeBlocked
    dsimp only
    have hslot : ((((s.begin.setRecord d { s.begin.st.record d with blocked := b }).mark d).st.record d)).slot = none :=
      (congrArg DestRecord.slot (State.record_setRecord_same _ _ _)).trans h
    rw [hslot] <;> rfl
  unfold State.blockRequest
  rw [heq]
  exact ⟨rfl, rfl⟩

/-- The next request of a mask write, with where the write stands after it. -/
theorem State.blockNext_cons (s : State) (tag : Nat) (m : Fin 12) (b : Fin 32) (rest : List (Fin 32)) :
    s.blockNext tag m (b :: rest) = { s.blockRequest tag (maskDest m b) ((s.maskWord m).getLsbD b.val) with
      cbp := { s.cbp with head := s.maskStage m rest } } := by
  rw [State.blockNext, State.setHead, (State.blockRequest_keepsOutsideTable s tag _ _).cbp]

theorem State.maskStage_eq (s : State) (m : Fin 12) (rest : List (Fin 32)) : s.maskStage m rest = if rest = [] then
    .writing [.write (windowAddr s.pu.params (0x700 + 4 * m.val)) (wordBytes (s.maskWord m))] false else .masking m rest := by
  cases rest <;> rfl

end Block

/-- Settles O18: the taking of the head, and each blocked-flag request. -/
theorem maskWriteSetsBlockedFlags : Obligations.MaskWriteSetsBlockedFlags := by
  unfold Obligations.MaskWriteSetsBlockedFlags
  refine ⟨?_, ?_⟩
  · intro s h view m bits hh hz hm old new hsorted hbits
    obtain ⟨hwait, ⟨behind, hqueue⟩, -⟩ := State.headToTake_spec hh
    have hchanged : changedBits old new = bits := (changedBits_ascending old new).eq_of_mem_iff hsorted fun b => by
      rw [mem_changedBits, hbits]
    have hstep := exec_maskViewWrite_taken hh hz hm
    rw [show changedBits (s.maskWord m) (maskWrite view (s.maskWord m) h.position h.bytes) = bits from hchanged] at hstep
    refine ⟨fun hnil => congrArg Host.Outcome.next (hstep.trans ?_), fun hcons => congrArg Host.Outcome.next (hstep.trans ?_)⟩
    · rw [hnil, State.blockNext, State.maskStage, State.maskWord_setMask]
      rfl
    · rw [maskViewWriteStep_masking (s := { s with masks := s.masks.set m (some new), cbp := { s.cbp with head := .masking m bits } })
        (m := m) (todo := bits) (h := h) (rest := behind) rfl hqueue]
      cases bits with
      | nil => exact absurd rfl hcons
      | cons b rest =>
        rw [State.blockNext_cons, State.blockNext_cons]
        have hbeside := State.blockRequest_beside (s.setMask m new) { s.cbp with head := .masking m (b :: rest) } h.tag
          (maskDest m b) (((s.setMask m new).maskWord m).getLsbD b.val)
        exact congrArg (fun t : State => { t with cbp := { s.cbp with head := (s.setMask m new).maskStage m rest } }) hbeside.symm
  · intro s h behind m b rest hlaw hhead hqueue d word
    have hadopt := hlaw.masking m (b :: rest) hhead
    have hbuilt : s.isBuilt d = true := by unfold State.isBuilt; rw [hadopt]
    have hmap : s.mapStands := fun a ha => by rw [hadopt] at ha; cases ha
    have hinner := hlaw.inner
    have hexec : exec .maskViewWrite s = _ := congrArg Host.Outcome.next
      ((maskViewWriteStep_masking hhead hqueue).trans (s.blockNext_cons h.tag m b rest))
    obtain ⟨hone, hmarks, hlisted⟩ := State.blockRequest_reworksOne hinner hbuilt h.tag (word.getLsbD b.val)
    have hloads : (s.blockRequest h.tag d (word.getLsbD b.val)).re.loads = s.re.loads :=
      Work.changeBlocked_loads s.begin d (word.getLsbD b.val)
    have hplain := State.blockRequest_plain (s := s) (d := d) h.tag (word.getLsbD b.val)
    generalize s.blockRequest h.tag d (word.getLsbD b.val) = u at hexec hone hmarks hlisted hloads hplain
    have hdest := hinner.dests d
    have hrecord := hone.record
    have hraised : s.onlyRaises { u with cbp := { s.cbp with head := s.maskStage m rest } } :=
      ⟨hone.raised.writer, hone.raised.queue, hone.raised.dropped⟩
    have hkeep : ∀ n : SlotNo, (s.record d).slot = some n → u.re.slots[n] ≠ none → u.re.list = s.re.list := fun n hn hne => by
      rw [hone.list, hn]
      exact if_neg hne
    refine ⟨_, hexec, ?_, ?_, hlisted, fun hnone => ⟨?_, hplain hnone⟩, fun n sl hn hs hsrc => ?_, fun n sl hn hs hsrc => ?_,
      hone.occasion, hone.off, ?_, ?_, ?_, ?_, hone.others, hmarks, ⟨hone.ticks, hloads, hone.slots, hone.list⟩, hone.dt,
      ⟨hone.sets, hone.ids⟩, hraised, ?_⟩
    · exact congrArg (fun stage => ({ s.cbp with head := stage } : BusPort)) (s.maskStage_eq m rest)
    · show (u.record d).blocked = _
      rw [hrecord, DestRecord.reevaluated_record]
    · show u.record d = _
      rw [hrecord, State.slotOf_none hnone]
      rfl
    · have hof : s.slotOf d = some sl := (State.slotOf_some hn).trans hs
      have hslot := hone.slot n hn
      rw [hof] at hrecord hslot
      have hphased : ∀ c, ({ s.record d with blocked := word.getLsbD b.val } : DestRecord).phased d sl c =
          ({ s.record d with blocked := word.getLsbD b.val } : DestRecord).towardTarget d sl := fun c => if_pos hsrc
      unfold DestRecord.reevaluated at hrecord hslot
      dsimp only at hrecord hslot
      rw [hphased] at hrecord hslot
      unfold DestRecord.towardTarget at hrecord hslot
      dsimp only at hrecord hslot
      refine ⟨fun heq => ?_, fun hne => ?_⟩
      · rw [if_pos heq] at hrecord hslot
        exact ⟨hrecord, hslot⟩
      · rw [if_neg hne] at hrecord hslot
        by_cases hlt : (s.record d).curAttn.toNat < (effectiveTarget d { s.record d with blocked := word.getLsbD b.val }).toNat
        · rw [if_pos hlt] at hrecord hslot
          exact ⟨hrecord, hkeep n hn (by rw [hslot]; exact nofun), hslot.trans (by rw [if_pos hlt])⟩
        · rw [if_neg hlt] at hrecord hslot
          exact ⟨hrecord, hkeep n hn (by rw [hslot]; exact nofun), hslot.trans (by rw [if_neg hlt])⟩
    · have hof : s.slotOf d = some sl := (State.slotOf_some hn).trans hs
      have hslot := hone.slot n hn
      rw [hof] at hrecord hslot
      unfold DestRecord.reevaluated at hrecord hslot
      dsimp only at hrecord hslot
      have hfollows := hdest.follows sl hof
      refine ⟨fun hstay => ?_, fun hdark hfree => ?_⟩
      · have hphased := DestRecord.phased_stays (b := word.getLsbD b.val)
          (claimed := (s.otherHolder d (s.record d).intentSrc).isSome) hfollows hdest.darkNone hsrc rfl
          (hstay.imp_right State.otherHolder_isSome_iff.2)
        rw [hphased] at hrecord hslot
        have hports : u.dt.ports = s.dt.ports :=
          ports_eq_of_currents hinner.core hone.core hmap hone.outside.pu hone.claims fun e => by
            by_cases he : e = d
            · rw [he, hrecord]
            · rw [hone.others e he]
        exact ⟨hrecord, hkeep n hn (by rw [hslot]; exact nofun), hslot, hports⟩
      · have hnone : (s.otherHolder d (s.record d).intentSrc).isSome = false :=
          Bool.eq_false_iff.2 fun hsome => hfree (State.otherHolder_isSome_iff.1 hsome)
        rw [hnone, DestRecord.phased_switches (r := { s.record d with blocked := word.getLsbD b.val }) hsrc hdark] at hrecord hslot
        have hmap' : u.mapStands := by unfold State.mapStands at hmap ⊢; rwa [hone.outside.pu]
        have hub : u.isBuilt d = true := by unfold State.isBuilt at hbuilt ⊢; rwa [hone.outside.pu]
        have hcur : (u.record d).curSrc = (s.record d).intentSrc := by
          rw [hrecord, DestRecord.towardTarget_record]
        unfold DestRecord.towardTarget at hrecord hslot
        dsimp only at hrecord hslot
        have htarget : effectiveTarget d { s.record d with blocked := word.getLsbD b.val, curSrc := (s.record d).intentSrc } =
            effectiveTarget d { s.record d with blocked := word.getLsbD b.val } := rfl
        rw [htarget] at hrecord hslot
        refine ⟨fun p hp => (hone.core.holders hmap' p d).2 ⟨hub, hcur.trans hp⟩, fun heq => ?_, fun hne => ?_⟩
        · rw [if_pos (hdark.trans (Eq.symm heq))] at hrecord hslot
          exact ⟨hslot, hrecord⟩
        · have hlt : ¬ (s.record d).curAttn.toNat < (effectiveTarget d { s.record d with blocked := word.getLsbD b.val }).toNat := by
            have := (effectiveTarget d { s.record d with blocked := word.getLsbD b.val }).isLt
            have hmax : dark.toNat = 255 := rfl
            rw [hdark]
            omega
          rw [if_neg fun he => hne (Eq.symm (hdark.symm.trans he)), if_neg hlt] at hrecord hslot
          exact ⟨hkeep n hn (by rw [hslot]; exact nofun), hslot, hrecord⟩
    · show (u.record d).intentSrc = _
      rw [hrecord, DestRecord.reevaluated_record]
    · show (u.record d).intentAttn = _
      rw [hrecord, DestRecord.reevaluated_record]
    · show (u.record d).forced = _
      rw [hrecord, DestRecord.reevaluated_record]
    · show (u.record d).queued = _
      rw [hrecord, DestRecord.reevaluated_record]
    · have hframe := hone.outside.frame
      exact congrArg (fun t : State => { t with cbp := { s.cbp with head := s.maskStage m rest } }) hframe

end Sys2Proof.Machine

/-! One visit of a pass (R68, R69). -/

namespace Sys2Proof.Machine

/-! ### Steps (R68) -/

section Steps
variable {a g : Attn} {delta budget limit : Nat}

/-- A step toward a goal within its distance. -/
theorem stepToward_toNat (h : delta ≤ distance a g) :
    (stepToward a g delta).toNat = if a.toNat < g.toNat then a.toNat + delta else a.toNat - delta := by
  have ha := a.isLt
  have hg := g.isLt
  unfold distance at h
  unfold stepToward
  split
  · rw [BitVec.toNat_ofNat, Nat.mod_eq_of_lt (by omega)]
  · rw [BitVec.toNat_ofNat, Nat.mod_eq_of_lt (by omega)]

theorem distance_stepToward (h : delta ≤ distance a g) :
    distance a (stepToward a g delta) = delta ∧ distance (stepToward a g delta) g + delta = distance a g := by
  have hstep := stepToward_toNat h
  unfold distance at h ⊢
  rw [hstep]
  split <;> constructor <;> omega

/-- The step that a visit finds is the largest that the budget affords. -/
theorem findStep_some {a' : Attn} (h : findStep a g budget limit = some a') : ∃ delta, 1 ≤ delta ∧ delta ≤ limit ∧
    a' = stepToward a g delta ∧ cost a a' ≤ budget ∧ ∀ more, delta < more → more ≤ limit → ¬ cost a (stepToward a g more) ≤ budget := by
  induction limit with
  | zero => cases h
  | succ limit ih =>
    unfold findStep at h
    split at h
    · next hfits =>
      obtain rfl := Option.some.inj h
      exact ⟨limit + 1, Nat.succ_pos _, le_refl _, rfl, hfits, fun more hlt hle => absurd hlt (Nat.not_lt.2 hle)⟩
    · next hfits =>
      obtain ⟨delta, hpos, hle, heq, hcost, hmax⟩ := ih h
      refine ⟨delta, hpos, Nat.le_succ_of_le hle, heq, hcost, fun more hlt hmore => ?_⟩
      obtain rfl | hless := Nat.eq_or_lt_of_le hmore
      · exact hfits
      · exact hmax more hlt (Nat.lt_succ_iff.1 hless)

theorem findStep_none (h : findStep a g budget limit = none) (hpos : 1 ≤ delta) (hle : delta ≤ limit) :
    ¬ cost a (stepToward a g delta) ≤ budget := by
  induction limit with
  | zero => omega
  | succ limit ih =>
    unfold findStep at h
    split at h
    · cases h
    · next hfits =>
      obtain rfl | hless := Nat.eq_or_lt_of_le hle
      · exact hfits
      · exact ih h (Nat.lt_succ_iff.1 hless)

end Steps

/-! ### The record after a step -/

section Records
variable {d : Dest} {r : DestRecord} {sl : RampSlot} {iso built adopting claimed : Bool} {delta : Nat}

/-- A slot that moves stands on a source. -/
theorem RampSlot.follows.moving (h : sl.follows d r) (hdark : r.curSrc = .none → r.curAttn = dark) (hphase : sl.phase ≠ .portWait) :
    r.curSrc ≠ .none := by
  intro hnone
  have hattn := hdark hnone
  have hgoal : sl.goal = dark := by
    by_cases hsrc : r.curSrc = r.intentSrc
    · rw [h.toTarget hsrc]
      exact if_pos (.inl (hsrc.symm.trans hnone))
    · exact h.toDark hsrc
  cases hp : sl.phase with
  | dimming =>
    have hlt := h.dims hp
    rw [hattn, hgoal] at hlt
    exact absurd hlt (Nat.lt_irrefl _)
  | brightening =>
    have hlt := h.brightens hp
    rw [hattn, hgoal] at hlt
    exact absurd hlt (Nat.lt_irrefl _)
  | portWait => exact hphase hp

/-- A step of a moving slot short of its goal keeps it lawful. -/
theorem DestRecord.lawful.stepped (h : r.lawful d (some sl) iso built adopting) (hslot : r.slot ≠ none) (hphase : sl.phase ≠ .portWait)
    (hle : delta ≤ distance r.curAttn sl.goal) (hgoal : stepToward r.curAttn sl.goal delta ≠ sl.goal) :
    ({ r with curAttn := stepToward r.curAttn sl.goal delta } : DestRecord).lawful d (some sl) iso built adopting := by
  have hf := h.follows sl rfl
  have hsrc := hf.moving h.darkNone hphase
  have hstep := stepToward_toNat hle
  have hne : (stepToward r.curAttn sl.goal delta).toNat ≠ sl.goal.toNat := fun he => hgoal (BitVec.eq_of_toNat_eq he)
  unfold distance at hle
  refine ⟨h.moved hslot rfl h.current (fun hnone => absurd hnone hsrc) rfl rfl rfl, fun q hq => ?_⟩
  obtain rfl := Option.some.inj hq
  refine ⟨fun hp => ?_, fun hp => ?_, fun hp => absurd hp hphase, hf.toTarget, hf.toDark⟩
  · have hlt := hf.dims hp
    rw [if_pos hlt] at hstep
    dsimp only
    omega
  · have hlt := hf.brightens hp
    rw [if_neg (by omega)] at hstep
    dsimp only
    omega

/-- A step of a moving slot to its goal, phase-evaluated. -/
theorem DestRecord.lawful.arrived (h : r.lawful d (some sl) iso built adopting) (hslot : r.slot ≠ none)
    (hphase : sl.phase ≠ .portWait) (a : Attn) (hclaimed : claimed = true → r.intentSrc ≠ .none) :
    (({ r with curAttn := a } : DestRecord).phased d sl claimed).1.lawful d
      (({ r with curAttn := a } : DestRecord).phased d sl claimed).2 iso built adopting := by
  have hsrc := (h.follows sl rfl).moving h.darkNone hphase
  have hmoved : ({ r with curAttn := a } : DestRecord).sane d iso built adopting :=
    h.moved hslot rfl h.current (fun hnone => absurd hnone hsrc) rfl rfl rfl
  exact hmoved.phased hslot hclaimed

end Records

/-! ### The visit -/

section Visit
variable {s : State} {n : SlotNo} {sl : RampSlot} {maxStep left : Nat}

theorem State.begin_finish (s : State) (tag : Option Nat) : s.begin.finish tag = s := by
  have hocc : (s.re.occasionDue || false || false) = s.re.occasionDue := by rw [Bool.or_false, Bool.or_false]
  show ({ s with re := { s.re with occasionDue := s.re.occasionDue || false || false } } : State) = s
  rw [hocc]

/-- A write at a destination's own source leaves the port map alone. -/
theorem Work.writeCurrent_own_ports {w : Work} {d : Dest} (h : w.st.coreLaw) (hmap : w.st.mapStands) (hbuilt : w.st.isBuilt d = true)
    (a : Attn) : (w.writeCurrent d (w.st.record d).curSrc a).st.dt.ports = w.st.dt.ports := by
  refine Vector.ext fun i hi => ?_
  refine (w.writeCurrent_port d _ a ⟨i, hi⟩).trans ?_
  split
  · next hp =>
    rw [← (h.holders hmap ⟨i, hi⟩ d).2 ⟨hbuilt, hp⟩]
    rfl
  · rfl

theorem State.otherHolder_congr {s t : State} (h : t.dt.ports = s.dt.ports) (d : Dest) (src : Source) :
    t.otherHolder d src = s.otherHolder d src := by
  unfold State.otherHolder
  rw [h]

/-- With a slot occupied no adoption is under way. -/
theorem State.innerLaw.idle {extra : Option Nat} (h : s.innerLaw extra) (hs : s.re.slots[n] = some sl) : s.pu.adoption = none := by
  by_contra hadopt
  have hnone := (h.dests sl.dest).slotless (Option.isSome_iff_ne_none.2 hadopt)
  rw [(h.core.slots n sl hs).2] at hnone
  cases hnone

theorem State.isBuilt_of_idle (h : s.pu.adoption = none) (d : Dest) : s.isBuilt d = true := by
  unfold State.isBuilt
  rw [h]

theorem State.mapStands_of_idle (h : s.pu.adoption = none) : s.mapStands := fun a ha => by rw [h] at ha; cases ha

/-- What a visit can do: nothing, a port taken, or a step (R68, R69). -/
inductive State.visits (s : State) (maxStep left : Nat) (sl : RampSlot) : State → Nat → Prop where
  | stays : (sl.phase = .portWait ∧ (s.otherHolder sl.dest (s.record sl.dest).intentSrc).isSome = true ∨
        sl.phase ≠ .portWait ∧ findStep (s.record sl.dest).curAttn sl.goal left
          (min maxStep (distance (s.record sl.dest).curAttn sl.goal)) = none) → State.visits s maxStep left sl s left
  | moves (v : Work) (leaves : Nat) (r : DestRecord) (q : Option RampSlot) :
      s.begin.makes v sl.dest r q false (fun _ => 0) (endedOf (some sl) q) → sl.dest ∈ v.marks → s.reworks v.st →
      (sl.phase = .portWait ∧ (s.otherHolder sl.dest (s.record sl.dest).intentSrc).isSome = false ∧ leaves = left ∧
          (r, q) = ({ s.record sl.dest with curSrc := (s.record sl.dest).intentSrc } : DestRecord).towardTarget sl.dest sl ∨
        sl.phase ≠ .portWait ∧ ∃ a, findStep (s.record sl.dest).curAttn sl.goal left
            (min maxStep (distance (s.record sl.dest).curAttn sl.goal)) = some a ∧
          leaves = left - cost (s.record sl.dest).curAttn a ∧
          (r, q) = if a = sl.goal then ({ s.record sl.dest with curAttn := a } : DestRecord).phased sl.dest sl
            (s.otherHolder sl.dest (s.record sl.dest).intentSrc).isSome
            else ({ s.record sl.dest with curAttn := a }, some sl)) →
      State.visits s maxStep left sl (v.finish none) leaves

theorem Work.setPhase_same {w : Work} (hs : w.st.re.slots[n] = some sl) : w.setPhase n sl.phase sl.goal = w := by
  have hset : w.st.re.slots.set n (some sl) = w.st.re.slots := by
    refine Vector.ext fun i hi => ?_
    refine (getElem_set_ite w.st.re.slots n ⟨i, hi⟩ (some sl)).trans ?_
    split
    · next he => rw [← hs, he]; rfl
    · rfl
  unfold Work.setPhase
  rw [hs]
  dsimp only
  rw [if_pos rfl, State.setSlot]
  rw [show (some { sl with phase := sl.phase, goal := sl.goal } : Option RampSlot) = some sl from rfl, hset]

/-- Phase evaluation of a destination dark off its intent source (R53, R54, R72). -/
theorem Work.evaluate_switch {w : Work} (hs : w.st.re.slots[n] = some sl)
    (hsrc : (w.st.record sl.dest).curSrc ≠ (w.st.record sl.dest).intentSrc) (hattn : (w.st.record sl.dest).curAttn = dark) :
    w.evaluate n = if (w.st.otherHolder sl.dest (w.st.record sl.dest).intentSrc).isSome = true
      then w.enterPortWait n sl.dest sl.phase
      else (w.writeCurrent sl.dest (w.st.record sl.dest).intentSrc dark).evaluateGoal n sl.dest := by
  unfold Work.evaluate
  rw [hs]
  dsimp only
  rw [if_neg hsrc, if_neg (not_not.2 hattn)]

theorem State.visit_visits (h : s.innerLaw none) (hs : s.re.slots[n] = some sl) (maxStep left : Nat) :
    s.visits maxStep left sl (State.visit maxStep (s, left) n).1 (State.visit maxStep (s, left) n).2 := by
  have hadopt := h.idle hs
  have hbuilt := State.isBuilt_of_idle hadopt sl.dest
  have hmap := State.mapStands_of_idle hadopt
  have hof := h.core.slotOf_of_slots hs
  have hfollows := (h.dests sl.dest).follows sl hof
  have hdark := (h.dests sl.dest).darkNone
  have hwait := fun hp => (hfollows.waiting hp).1
  unfold State.visit
  dsimp only
  rw [hs]
  dsimp only
  split
  · next hphase =>
    obtain ⟨hnone, hintent⟩ := hfollows.waiting hphase
    have hsrc : (s.record sl.dest).curSrc ≠ (s.record sl.dest).intentSrc := fun he => hintent (he.symm.trans hnone)
    have hattn := hdark hnone
    cases hheld : (s.otherHolder sl.dest (s.record sl.dest).intentSrc).isSome with
    | true =>
      have hsame : s.begin.evaluate n = s.begin := by
        have hphase' := Work.setPhase_same (w := s.begin) hs
        rw [hphase, hfollows.toDark hsrc] at hphase'
        refine (Work.evaluate_switch (w := s.begin) hs hsrc hattn).trans ((if_pos hheld).trans ?_)
        rw [Work.enterPortWait, if_pos hphase]
        exact hphase'
      rw [hsame, State.begin_finish]
      exact .stays (.inl ⟨hphase, hheld⟩)
    | false =>
      have hmake := Work.evaluate_makes (w := s.begin) h.core h.listed hs hbuilt hwait
      refine .moves _ _ _ _ hmake ?_ ((State.reworks.refl s).evaluate (w := s.begin) n)
        (.inl ⟨hphase, hheld, rfl, ?_⟩)
      · have hswitch := (Work.evaluate_switch (w := s.begin) hs hsrc hattn).trans
          (if_neg (by rw [Bool.not_eq_true]; exact hheld))
        rw [hswitch]
        have hwrite := Work.writeCurrent_works (w := s.begin) (d := sl.dest) h.core h.listed hbuilt
          (src := (s.record sl.dest).intentSrc) (Option.not_isSome_iff_eq_none.1 (by rw [Bool.not_eq_true]; exact hheld)) dark
        exact (Work.evaluateGoal_acts hwrite.core (n := n) (sl := sl) (by
          rw [(Work.writeCurrent_slots _ _ _ _).1]; exact hs) sl.dest).mono sl.dest (Work.writeCurrent_marked _ _ _ _)
      · show (s.record sl.dest).phased sl.dest sl (s.otherHolder sl.dest (s.record sl.dest).intentSrc).isSome = _
        rw [hheld, DestRecord.phased_switches hsrc hattn]
  · next hphase =>
    split
    · next a ha =>
      have hmake := Work.rampStep_makes (w := s.begin) h.core h.listed hs hmap hbuilt hwait a
      refine .moves _ _ _ _ hmake ?_ ((State.reworks.refl s).rampStep (w := s.begin) n sl a) (.inr ⟨hphase, a, ha, rfl, ?_⟩)
      · unfold Work.rampStep
        dsimp only
        split
        · have hwrite := Work.writeCurrent_works (w := s.begin) (d := sl.dest) h.core h.listed hbuilt (h.core.otherHolder_own hmap hbuilt) a
          exact (Work.evaluate_acts hwrite.core (n := n) (sl := sl) (by
            rw [(Work.writeCurrent_slots _ _ _ _).1]; exact hs) ((hwrite.isBuilt _).trans hbuilt)).mono sl.dest (Work.writeCurrent_marked _ _ _ _)
        · exact Work.writeCurrent_marked _ _ _ _
      · have hports := Work.writeCurrent_own_ports (w := s.begin) (d := sl.dest) h.core hmap hbuilt a
        dsimp only
        rw [State.otherHolder_congr hports]
        rfl
    · next ha => exact .stays (.inr ⟨hphase, ha⟩)

end Visit

end Sys2Proof.Machine

/-! The pass of a way (R67 to R69). -/

namespace Sys2Proof.Machine

/-- A request that leaves the set queue, the queued marks and everything outside the table alone keeps the table laws with
its inner laws. -/
theorem State.tableLaw_of_request {s t : State} (h : s.tableLaw) (hinner : t.innerLaw none) (hout : s.keepsOutsideTable t)
    (hcsa : t.csa = { s.csa with settling := t.csa.settling }) (hqueued : ∀ d, (t.record d).queued = (s.record d).queued) :
    t.tableLaw := by
  have hopen : t.csa.openSet = s.csa.openSet := by rw [hcsa]
  have hqueue : t.csa.queue = s.csa.queue := by rw [hcsa]
  refine State.tableLaw_of_parts hinner ⟨?_, ?_, ?_, ?_⟩ (fun d => ?_) ⟨?_, ?_, ?_, ?_⟩
  · rw [hopen]; exact h.openDests
  · rw [hopen]; exact h.openBound
  · rw [hqueue]; exact h.sets
  · rw [hqueue]; exact h.setBound
  · rw [hqueue, hqueued]; exact h.marks d
  · rw [hout.xe, hout.pu, hout.cbp]; exact h.exclusive
  · rw [hout.cbp, hout.pu]; exact h.masking
  · rw [hout.xe]; exact h.swapWord
  · rw [hout.pu, hqueue]; exact h.apart.adopting

/-- What a visit and a pass do to the part: they free slots and move currents. -/
structure State.passes (s t : State) : Prop where
  table : t.tableLaw
  free : ∀ n : SlotNo, s.re.slots[n] = none → t.re.slots[n] = none
  flags : ∀ d, (t.record d).intentSrc = (s.record d).intentSrc ∧ (t.record d).intentAttn = (s.record d).intentAttn ∧
    (t.record d).blocked = (s.record d).blocked ∧ (t.record d).forced = (s.record d).forced ∧
    (t.record d).queued = (s.record d).queued
  wanted : ∀ d, (t.record d).wanted = (s.record d).wanted
  outside : s.keepsOutsideTable t
  raised : s.onlyRaises t
  dt : t.dt = { s.dt with records := t.dt.records, ports := t.dt.ports, updates := t.dt.updates }
  sets : t.csa = { s.csa with settling := t.csa.settling }
  ids : (t.csa.settling.map SettlingSet.id).Sublist (s.csa.settling.map SettlingSet.id)
  ticks : s.keepsTicks t
  occasion : t.re.occasionDue = true ↔ s.re.occasionDue = true ∨ ∃ n : SlotNo, s.re.slots[n] ≠ none ∧ t.re.slots[n] = none

section Pass
variable {s t u : State} {n : SlotNo} {sl : RampSlot} {maxStep left leaves : Nat} {r : DestRecord} {q : Option RampSlot} {w : Way}

theorem State.passes.refl (h : s.tableLaw) : s.passes s where
  table := h
  free := fun _ => id
  flags := fun _ => ⟨rfl, rfl, rfl, rfl, rfl⟩
  wanted := fun _ => rfl
  outside := .refl s
  raised := .refl s
  dt := rfl
  sets := rfl
  ids := .refl _
  ticks := rfl
  occasion := (or_iff_left fun ⟨_, hn, hnone⟩ => hn hnone).symm

theorem State.passes.trans (h : s.passes t) (k : t.passes u) : s.passes u where
  table := k.table
  free := fun n hn => k.free n (h.free n hn)
  flags := fun d => by
    obtain ⟨h1, h2, h3, h4, h5⟩ := h.flags d
    obtain ⟨k1, k2, k3, k4, k5⟩ := k.flags d
    exact ⟨k1.trans h1, k2.trans h2, k3.trans h3, k4.trans h4, k5.trans h5⟩
  wanted := fun d => (k.wanted d).trans (h.wanted d)
  outside := h.outside.trans k.outside
  raised := h.raised.trans k.raised
  dt := by rw [k.dt, h.dt]
  sets := by rw [k.sets, h.sets]
  ids := k.ids.trans h.ids
  ticks := by
    have hk := k.ticks
    unfold State.keepsTicks at hk
    rw [h.ticks] at hk
    exact hk
  occasion := by
    rw [k.occasion, h.occasion, or_assoc]
    refine or_congr_right ⟨?_, ?_⟩
    · rintro (⟨n, hs, ht⟩ | ⟨n, ht, hu⟩)
      · exact ⟨n, hs, k.free n ht⟩
      · exact ⟨n, fun hs => ht (h.free n hs), hu⟩
    · rintro ⟨n, hs, hu⟩
      by_cases ht : t.re.slots[n] = none
      · exact .inl ⟨n, hs, ht⟩
      · exact .inr ⟨n, ht, hu⟩

theorem State.passes.occasionFollows (h : s.passes t) : s.occasionFollows t := by
  unfold State.occasionFollows
  rw [h.occasion]
  refine or_congr_right (or_iff_left ?_).symm
  rintro ⟨d, hoff, hon⟩
  rw [h.wanted d] at hon
  exact absurd (hoff.symm.trans hon) nofun

/-- The record and slot that a visit's move leaves are lawful, and the record keeps its intent, flags and marks. -/
structure DestRecord.movedTo (d : Dest) (r r' : DestRecord) (sl : RampSlot) (q : Option RampSlot) : Prop where
  record : r' = { r with curSrc := r'.curSrc, curAttn := r'.curAttn, slot := r'.slot }
  lawful : ∀ iso built adopting, r.lawful d (some sl) iso built adopting → r'.lawful d q iso built adopting
  serves : ∀ x, oneOf (q.bind RampSlot.serves) x + endedOf (some sl) q x = oneOf sl.serves x

theorem DestRecord.movedTo_step {d : Dest} {r : DestRecord} {claimed : Bool} {delta : Nat} (hslot : r.slot ≠ none)
    (hphase : sl.phase ≠ .portWait) (hle : delta ≤ distance r.curAttn sl.goal) (hclaimed : claimed = true → r.intentSrc ≠ .none) :
    let left := if stepToward r.curAttn sl.goal delta = sl.goal
      then ({ r with curAttn := stepToward r.curAttn sl.goal delta } : DestRecord).phased d sl claimed
      else ({ r with curAttn := stepToward r.curAttn sl.goal delta }, some sl)
    r.movedTo d left.1 sl left.2 := by
  dsimp only
  split
  · refine ⟨?_, fun iso built adopting h => h.arrived hslot hphase _ hclaimed, fun x => DestRecord.phased_serves x⟩
    conv_lhs => rw [DestRecord.phased_record]
    rw [DestRecord.phased_record]
  · next hne =>
    exact ⟨rfl, fun iso built adopting h => h.stepped hslot hphase hle hne, fun x => by rw [endedOf_some]; rfl⟩

theorem DestRecord.movedTo_switch {d : Dest} {r : DestRecord} (hslot : r.slot ≠ none) (hsrc : r.curSrc ≠ r.intentSrc)
    (hattn : r.curAttn = dark) : r.movedTo d (({ r with curSrc := r.intentSrc } : DestRecord).towardTarget d sl).1 sl
      (({ r with curSrc := r.intentSrc } : DestRecord).towardTarget d sl).2 := by
  rw [← DestRecord.phased_switches hsrc hattn]
  refine ⟨?_, fun iso built adopting h => h.tosane.phased hslot nofun, fun x => DestRecord.phased_serves x⟩
  conv_lhs => rw [DestRecord.phased_record]
  rw [DestRecord.phased_record]

theorem DestRecord.movedTo_same (d : Dest) (r : DestRecord) : r.movedTo d r sl (some sl) :=
  ⟨rfl, fun _ _ _ => id, fun x => by rw [endedOf_some]; rfl⟩

/-- Every visit is one request on its destination. -/
theorem State.visits.makes (k : s.visits maxStep left sl t leaves) (h : s.innerLaw none) (hs : s.re.slots[n] = some sl) :
    ∃ v r q, t = v.finish none ∧ s.begin.makes v sl.dest r q false (fun _ => 0) (endedOf (some sl) q) ∧ s.reworks v.st ∧
      (s.record sl.dest).movedTo sl.dest r sl q := by
  have hslot : (s.record sl.dest).slot ≠ none := by rw [(h.core.slots n sl hs).2]; exact nofun
  have hof := h.core.slotOf_of_slots hs
  have hfollows := (h.dests sl.dest).follows sl hof
  cases k with
  | stays _ =>
    refine ⟨s.begin, s.record sl.dest, some sl, (s.begin_finish none).symm, ?_, .refl s, DestRecord.movedTo_same _ _⟩
    rw [endedOf_some]
    exact (Work.works.refl (w := s.begin) h.core h.listed sl.dest).toMakes rfl hof
  | moves v leaves r q hmake _ hre hcase =>
    refine ⟨v, r, q, rfl, hmake, hre, ?_⟩
    obtain ⟨hphase, -, -, hrq⟩ | ⟨hphase, a, ha, -, hrq⟩ := hcase
    · obtain ⟨hnone, hintent⟩ := hfollows.waiting hphase
      have hmoved := DestRecord.movedTo_switch (d := sl.dest) (sl := sl) hslot (fun he => hintent (he.symm.trans hnone))
        ((h.dests sl.dest).darkNone hnone)
      rw [← hrq] at hmoved
      exact hmoved
    · obtain ⟨delta, -, hle, rfl, -⟩ := findStep_some ha
      have hmoved := DestRecord.movedTo_step (d := sl.dest) (claimed := (s.otherHolder sl.dest (s.record sl.dest).intentSrc).isSome)
        hslot hphase (hle.trans (Nat.min_le_right _ _)) State.claimed_iff
      dsimp only at hmoved
      rw [← hrq] at hmoved
      exact hmoved

theorem State.visits.one (k : s.visits maxStep left sl t leaves) (h : s.innerLaw none) (hs : s.re.slots[n] = some sl) :
    ∃ r q, s.reworksOne t sl.dest r q ∧ (s.record sl.dest).movedTo sl.dest r sl q ∧ t.innerLaw none := by
  obtain ⟨v, r, q, rfl, hmake, hre, hmoved⟩ := k.makes h hs
  have hof := h.core.slotOf_of_slots hs
  have hwanted : r.wanted = (s.record sl.dest).wanted := by rw [hmoved.record]
  have hintent : r.intentSrc = (s.record sl.dest).intentSrc := by rw [hmoved.record]
  refine ⟨r, q, ?_, hmoved, ?_⟩
  · rw [← hof] at hmake
    refine hmake.finish h hre ⟨nofun, fun ⟨hoff, hon⟩ => ?_⟩
    rw [hwanted, hoff] at hon
    cases hon
  · refine (hmake.innerLaw h hre hintent ?_ fun x => ?_).congr rfl rfl rfl rfl rfl rfl (le_refl _) rfl
    · have hlaw := h.dests sl.dest
      unfold State.destLaw at hlaw
      rw [hof] at hlaw
      rw [hintent]
      exact hmoved.lawful _ _ _ hlaw
    · rw [Nat.zero_add]
      refine (hmoved.serves x).trans ?_
      show _ = oneOf ((s.slotOf sl.dest).bind RampSlot.serves) x
      rw [hof]
      rfl

/-- A request that moves one slot is of the kind that passes are made of. -/
theorem State.reworksOne.passes (k : s.reworksOne t sl.dest r q) (h : s.tableLaw) (hs : s.re.slots[n] = some sl)
    (hmoved : (s.record sl.dest).movedTo sl.dest r sl q) (hinner : t.innerLaw none) : s.passes t := by
  have hslot : (s.record sl.dest).slot = some n := (h.core.slots n sl hs).2
  have hrecord : ∀ d, t.record d = { s.record d with
      curSrc := (t.record d).curSrc, curAttn := (t.record d).curAttn, slot := (t.record d).slot } := fun d => by
    by_cases hd : d = sl.dest
    · rw [hd, k.record]
      exact hmoved.record
    · rw [k.others d hd]
  have hwanted : ∀ d, (t.record d).wanted = (s.record d).wanted := fun d => by rw [hrecord d]
  exact {
    table := State.tableLaw_of_request h hinner k.outside k.sets fun d => by rw [hrecord d]
    free := fun j hj => by
      by_cases hjn : j = n
      · rw [hjn, hs] at hj
        cases hj
      · rw [k.slots j (by rw [hslot]; exact fun he => hjn (Option.some.inj he).symm), hj]
    flags := fun d => by rw [hrecord d]; exact ⟨rfl, rfl, rfl, rfl, rfl⟩
    wanted := hwanted, outside := k.outside, raised := k.raised, dt := k.dt, sets := k.sets, ids := k.ids, ticks := k.ticks
    occasion := k.occasion.trans (or_congr_right (or_iff_left fun ⟨d, hoff, hon⟩ => by
      rw [hwanted d, hoff] at hon
      cases hon)) }

end Pass

end Sys2Proof.Machine

/-! The visits of a pass, one by one and together (R67 to R69). -/

namespace Sys2Proof.Machine

section Visit
variable {s t : State} {n : SlotNo} {sl : RampSlot} {maxStep left leaves : Nat} {r : DestRecord} {q : Option RampSlot}

/-- One visit: its slot and destination alone change, and a slot freed counts as settled. -/
theorem State.visits.keeps (k : s.visits maxStep left sl t leaves) (h : s.tableLaw) (hs : s.re.slots[n] = some sl) :
    s.passes t ∧ (∀ e, e ≠ sl.dest → t.record e = s.record e) ∧ (∀ j : SlotNo, j ≠ n → t.re.slots[j] = s.re.slots[j]) ∧
      t.re.slots[n] = t.slotOf sl.dest ∧
      (t.re.list = if t.re.slots[n] = none then s.re.list.erase n else s.re.list) ∧
      s.countsOff t (fun _ => false) fun e => e == sl.dest && (t.record sl.dest).slot.isNone := by
  obtain ⟨r, q, hone, hmoved, hinner⟩ := k.one h.inner hs
  have hslot : (s.record sl.dest).slot = some n := (h.core.slots n sl hs).2
  refine ⟨hone.passes h hs hmoved hinner, hone.others, fun j hj => hone.slots j (by rw [hslot]; exact fun he => hj (Option.some.inj he).symm),
    (hone.slot n hslot).trans hone.content.symm, ?_, ?_⟩
  · have hlist := hone.list
    rw [hslot] at hlist
    exact hlist
  · have hoff := hone.off
    rw [hslot] at hoff
    simp only [Option.isSome_some, Bool.and_true] at hoff
    exact hoff

/-- What a visit that is not of a waiting slot finds. -/
def State.fits (s : State) (sl : RampSlot) (maxStep left delta : Nat) : Prop :=
  1 ≤ delta ∧ delta ≤ min maxStep (distance (s.record sl.dest).curAttn sl.goal) ∧
    cost (s.record sl.dest).curAttn (stepToward (s.record sl.dest).curAttn sl.goal delta) ≤ left

/-- A visit that no step fits changes nothing. -/
theorem State.visits.still (k : s.visits maxStep left sl t leaves) (hphase : sl.phase ≠ .portWait)
    (hnone : ∀ delta, ¬ s.fits sl maxStep left delta) : t = s ∧ leaves = left := by
  cases k with
  | stays _ => exact ⟨rfl, rfl⟩
  | moves v leaves r q _ _ _ hcase =>
    obtain ⟨hwait, -⟩ | ⟨-, a, ha, -⟩ := hcase
    · exact absurd hwait hphase
    · obtain ⟨delta, hpos, hle, rfl, hcost, -⟩ := findStep_some ha
      exact absurd ⟨hpos, hle, hcost⟩ (hnone delta)

/-- A visit makes the largest step that fits. -/
theorem State.visits.step {delta : Nat} (k : s.visits maxStep left sl t leaves) (hphase : sl.phase ≠ .portWait)
    (hfit : s.fits sl maxStep left delta) (hmax : ∀ more, delta < more → ¬ s.fits sl maxStep left more) :
    let a := stepToward (s.record sl.dest).curAttn sl.goal delta
    leaves + cost (s.record sl.dest).curAttn a = left ∧ (∃ x ∈ t.dt.updates, x.dest = sl.dest) ∧
      (s.marksUpdates t none fun e => e == sl.dest) ∧
      (t.record sl.dest, t.slotOf sl.dest) = if a = sl.goal then ({ s.record sl.dest with curAttn := a } : DestRecord).phased sl.dest sl
        (s.otherHolder sl.dest (s.record sl.dest).intentSrc).isSome else ({ s.record sl.dest with curAttn := a }, some sl) := by
  cases k with
  | stays hcase =>
    obtain ⟨hwait, -⟩ | ⟨-, hfind⟩ := hcase
    · exact absurd hwait hphase
    · exact absurd hfit.2.2 (findStep_none hfind hfit.1 hfit.2.1)
  | moves v leaves r q hmake hmark hre hcase =>
    obtain ⟨hwait, -⟩ | ⟨-, a, ha, hleaves, hrq⟩ := hcase
    · exact absurd hwait hphase
    · obtain ⟨delta', hpos, hle, rfl, hcost, hlargest⟩ := findStep_some ha
      obtain rfl : delta' = delta := by
        refine le_antisymm (not_lt.1 fun hlt => hmax delta' hlt ⟨hpos, hle, hcost⟩) (not_lt.1 fun hlt => ?_)
        exact hlargest delta hlt hfit.2.1 hfit.2.2
      refine ⟨by rw [hleaves]; exact Nat.sub_add_cancel hcost, Work.finish_listed hmark, hmake.finish_marks hre hmark, ?_⟩
      rw [← hrq]
      exact Prod.ext hmake.record hmake.content

/-- A visit of a waiting slot. -/
theorem State.visits.waiting (k : s.visits maxStep left sl t leaves) (h : s.innerLaw none) (hs : s.re.slots[n] = some sl)
    (hphase : sl.phase = .portWait) :
    leaves = left ∧ ((s.otherHolder sl.dest (s.record sl.dest).intentSrc).isSome = true → t = s) ∧
      ((s.otherHolder sl.dest (s.record sl.dest).intentSrc).isSome = false →
        (t.record sl.dest, t.slotOf sl.dest) =
          ({ s.record sl.dest with curSrc := (s.record sl.dest).intentSrc } : DestRecord).towardTarget sl.dest sl ∧
        (∀ p, (s.record sl.dest).intentSrc = .port p → t.dt.ports[p].holder = some sl.dest) ∧
        (∃ x ∈ t.dt.updates, x.dest = sl.dest) ∧ s.marksUpdates t none fun e => e == sl.dest) := by
  cases k with
  | stays hcase =>
    obtain ⟨-, hheld⟩ | ⟨hmoves, -⟩ := hcase
    · exact ⟨rfl, fun _ => rfl, fun hfree => absurd (hheld.symm.trans hfree) nofun⟩
    · exact absurd hphase hmoves
  | moves v leaves r q hmake hmark hre hcase =>
    obtain ⟨-, hfree, hleaves, hrq⟩ | ⟨hmoves, -⟩ := hcase
    · refine ⟨hleaves, fun hheld => absurd (hheld.symm.trans hfree) nofun, fun _ => ⟨?_, fun p hp => ?_,
        Work.finish_listed hmark, hmake.finish_marks hre hmark⟩⟩
      · rw [← hrq]
        exact Prod.ext hmake.record hmake.content
      · have hidle : v.st.pu.adoption = none := by rw [hre.outside.pu]; exact h.idle hs
        have hrecord : (v.st.record sl.dest).curSrc = .port p := by
          rw [hmake.record, show r = _ from congrArg Prod.fst hrq, DestRecord.towardTarget_record]
          exact hp
        exact (hmake.core.holders (State.mapStands_of_idle hidle) p sl.dest).2 ⟨State.isBuilt_of_idle hidle _, hrecord⟩
    · exact absurd hphase hmoves

end Visit

end Sys2Proof.Machine

/-! The pass as a whole (R67). -/

namespace Sys2Proof.Machine

section Pass
variable {s t : State} {n : SlotNo} {sl : RampSlot} {maxStep left : Nat}

theorem State.visit_free (h : s.re.slots[n] = none) : State.visit maxStep (s, left) n = (s, left) := by
  unfold State.visit
  dsimp only
  rw [h]

theorem State.visit_keeps (h : s.tableLaw) (hs : s.re.slots[n] = some sl) (maxStep left : Nat) :
    s.passes (State.visit maxStep (s, left) n).1 ∧
      (∀ e, e ≠ sl.dest → (State.visit maxStep (s, left) n).1.record e = s.record e) ∧
      ∀ j : SlotNo, j ≠ n → (State.visit maxStep (s, left) n).1.re.slots[j] = s.re.slots[j] := by
  obtain ⟨hpass, hothers, hslots, -⟩ := (State.visit_visits h.inner hs maxStep left).keeps h hs
  exact ⟨hpass, hothers, hslots⟩

/-- The slots that a series of visits does not reach stand, and so do their destinations' records. -/
theorem State.visits_foldl (maxStep : Nat) (slots : List SlotNo) {s : State} (h : s.tableLaw) (left : Nat) :
    s.passes (slots.foldl (State.visit maxStep) (s, left)).1 ∧
      (∀ d, (∀ n ∈ slots, ∀ sl, s.re.slots[n] = some sl → sl.dest ≠ d) →
        (slots.foldl (State.visit maxStep) (s, left)).1.record d = s.record d) ∧
      ∀ j, j ∉ slots → (slots.foldl (State.visit maxStep) (s, left)).1.re.slots[j] = s.re.slots[j] := by
  induction slots generalizing s left with
  | nil => exact ⟨.refl h, fun _ _ => rfl, fun _ _ => rfl⟩
  | cons n slots ih =>
    rw [List.foldl_cons]
    cases hs : s.re.slots[n] with
    | none =>
      rw [State.visit_free hs]
      obtain ⟨hpass, hrecord, hslots⟩ := ih h left
      exact ⟨hpass, fun d hd => hrecord d fun j hj => hd j (List.mem_cons_of_mem _ hj),
        fun j hj => hslots j fun hmem => hj (List.mem_cons_of_mem _ hmem)⟩
    | some sl =>
      obtain ⟨hfirst, hothers, hstand⟩ := State.visit_keeps h hs maxStep left
      obtain ⟨hpass, hrecord, hslots⟩ := ih hfirst.table (State.visit maxStep (s, left) n).2
      refine ⟨hfirst.trans hpass, fun d hd => ?_, fun j hj => ?_⟩
      · have hne := hd n List.mem_cons_self sl hs
        refine (hrecord d fun j hj x hx => ?_).trans (hothers d (Ne.symm hne))
        by_cases hjn : j = n
        · subst hjn
          intro hdx
          have hslot := (hfirst.table.core.slots j x hx).2
          rw [hdx, hothers d (Ne.symm hne)] at hslot
          obtain ⟨y, hy, hyd⟩ := h.core.slotNames d j hslot
          rw [hs] at hy
          exact hne (Option.some.inj hy ▸ hyd)
        · exact hd j (List.mem_cons_of_mem _ hj) x ((hstand j hjn).symm.trans hx)
      · exact (hslots j fun hmem => hj (List.mem_cons_of_mem _ hmem)).trans (hstand j fun he => hj (he ▸ List.mem_cons_self))

/-- Waiting slots spend nothing of the budget. -/
theorem State.waiting_foldl (maxStep : Nat) {slots : List SlotNo} (hnodup : slots.Nodup) {s : State} (h : s.tableLaw)
    (left : Nat) (hwait : ∀ k ∈ slots, ∃ q, s.re.slots[k] = some q ∧ q.phase = .portWait) :
    (slots.foldl (State.visit maxStep) (s, left)).2 = left := by
  induction slots generalizing s with
  | nil => rfl
  | cons n slots ih =>
    obtain ⟨hn, hrest⟩ := List.nodup_cons.1 hnodup
    obtain ⟨sl, hs, hphase⟩ := hwait n List.mem_cons_self
    obtain ⟨hfirst, -, hstand⟩ := State.visit_keeps h hs maxStep left
    have hspent := ((State.visit_visits h.inner hs maxStep left).waiting h.inner hs hphase).1
    have hrec := ih hrest hfirst.table fun k hk => by
      rw [hstand k fun he => hn (he ▸ hk)]
      exact hwait k (List.mem_cons_of_mem _ hk)
    have hpair : State.visit maxStep (s, left) n = ((State.visit maxStep (s, left) n).1, left) := Prod.ext rfl hspent
    rw [List.foldl_cons, hpair]
    exact hrec

theorem cost_unit {a g : Attn} (h : a ≠ g) : 1 ≤ distance a g ∧ cost a (stepToward a g 1) ≤ 96 := by
  have hne : a.toNat ≠ g.toNat := fun he => h (BitVec.eq_of_toNat_eq he)
  have hdist : 1 ≤ distance a g := by unfold distance; omega
  refine ⟨hdist, ?_⟩
  have hstep := stepToward_toNat hdist
  have hg := g.isLt
  have ha := a.isLt
  split at hstep
  · have hdark : a ≠ dark := fun he => by
      have : a.toNat = 255 := congrArg BitVec.toNat he
      omega
    have hnext : stepToward a g 1 = a + 1#8 := by
      refine BitVec.eq_of_toNat_eq ?_
      rw [hstep, BitVec.toNat_add]
      show _ = (a.toNat + 1) % 256
      omega
    obtain ⟨hle, hfall⟩ := weight_succ hdark
    rw [hnext]
    unfold cost
    omega
  · have hdark : stepToward a g 1 ≠ dark := fun he => by
      have : (stepToward a g 1).toNat = 255 := congrArg BitVec.toNat he
      omega
    have hnext : a = stepToward a g 1 + 1#8 := by
      refine BitVec.eq_of_toNat_eq ?_
      rw [BitVec.toNat_add, hstep]
      show _ = (a.toNat - 1 + 1) % 256
      omega
    obtain ⟨hle, hfall⟩ := weight_succ hdark
    rw [← hnext] at hle hfall
    unfold cost
    omega

/-- With a budget of 96 a slot short of its goal moves. -/
theorem State.visit_approaches (h : s.tableLaw) (hs : s.re.slots[n] = some sl) (hphase : sl.phase ≠ .portWait)
    (hstep : 1 ≤ maxStep) (hleft : 96 ≤ left) (hgoal : (s.record sl.dest).curAttn ≠ sl.goal) :
    distance ((State.visit maxStep (s, left) n).1.record sl.dest).curAttn sl.goal <
      distance (s.record sl.dest).curAttn sl.goal := by
  obtain ⟨hdist, hcost⟩ := cost_unit hgoal
  have hfit : s.fits sl maxStep left 1 := ⟨le_refl _, le_min hstep hdist, hcost.trans hleft⟩
  classical
  obtain ⟨delta, hmax, hfits⟩ : ∃ delta, (∀ more, delta < more → ¬ s.fits sl maxStep left more) ∧ s.fits sl maxStep left delta := by
    let top := Nat.findGreatest (s.fits sl maxStep left) (min maxStep (distance (s.record sl.dest).curAttn sl.goal))
    have hbest : s.fits sl maxStep left top := Nat.findGreatest_spec hfit.2.1 hfit
    exact ⟨top, fun more hlt hmore => absurd (Nat.le_findGreatest hmore.2.1 hmore) (not_le.2 hlt), hbest⟩
  obtain ⟨-, -, -, hrecord⟩ := (State.visit_visits h.inner hs maxStep left).step hphase hfits hmax
  have hmoved := (distance_stepToward (hfits.2.1.trans (Nat.min_le_right _ _))).2
  have hattn : ((State.visit maxStep (s, left) n).1.record sl.dest).curAttn =
      stepToward (s.record sl.dest).curAttn sl.goal delta := by
    have hfst := congrArg Prod.fst hrecord
    dsimp only at hfst
    rw [hfst]
    split
    · rw [DestRecord.phased_record]
    · rfl
  rw [hattn]
  have := hfits.1
  omega

end Pass

end Sys2Proof.Machine

/-! What a pass does (R67 to R69): O40. -/

namespace Sys2Proof.Machine

theorem State.tableLaw.takePass {s : State} (h : s.tableLaw) (w : Way) : (s.takePass w).tableLaw :=
  State.tableLaw_of_parts (h.inner.congr rfl rfl rfl rfl rfl rfl (le_refl _) rfl) h.bounded h.marks
    ⟨h.exclusive, h.masking, h.swapWord, h.apart.adopting⟩

/-- A pass that reaches a slot short of its goal moves it, where the waiting slots ahead of it spend nothing. -/
theorem State.pass_approaches {s : State} (h : s.tableLaw) {maxStep left : Nat} (hstep : 1 ≤ maxStep) (hleft : 96 ≤ left)
    {waiting later : List SlotNo} {n : SlotNo} {sl : RampSlot} (hnodup : (waiting ++ n :: later).Nodup)
    (hwait : ∀ k ∈ waiting, ∃ q, s.re.slots[k] = some q ∧ q.phase = .portWait) (hs : s.re.slots[n] = some sl)
    (hphase : sl.phase ≠ .portWait) (hgoal : (s.record sl.dest).curAttn ≠ sl.goal) :
    distance (((waiting ++ n :: later).foldl (State.visit maxStep) (s, left)).1.record sl.dest).curAttn sl.goal <
      distance (s.record sl.dest).curAttn sl.goal := by
  obtain ⟨hfront, hback, hapart⟩ := List.nodup_append.1 hnodup
  have hn : n ∉ waiting := fun hmem => hapart n hmem n List.mem_cons_self rfl
  have hslot := (h.core.slots n sl hs).2
  have hpair : waiting.foldl (State.visit maxStep) (s, left) = ((waiting.foldl (State.visit maxStep) (s, left)).1, left) :=
    Prod.ext rfl (State.waiting_foldl maxStep hfront h left hwait)
  obtain ⟨hpass, hrecord, hslots⟩ := State.visits_foldl maxStep waiting h left
  rw [List.foldl_append, hpair, List.foldl_cons]
  have hsame := hrecord sl.dest fun k hk x hx hd => by
    have hother := (h.core.slots k x hx).2
    rw [hd, hslot] at hother
    exact hn (Option.some.inj hother ▸ hk)
  have hs' := (hslots n hn).trans hs
  have hmoves := State.visit_approaches hpass.table hs' hphase hstep hleft (by rw [hsame]; exact hgoal)
  obtain ⟨hnext, -, hstand⟩ := State.visit_keeps hpass.table hs' maxStep left
  rw [hsame] at hmoves
  have hlast := (State.visits_foldl maxStep later hnext.table
    (State.visit maxStep ((waiting.foldl (State.visit maxStep) (s, left)).1, left) n).2).2.1 sl.dest fun k hk x hx hd => by
      have hkn : k ≠ n := fun he => (List.nodup_cons.1 hback).1 (he ▸ hk)
      have hother := (hpass.table.core.slots k x ((hstand k hkn).symm.trans hx)).2
      rw [hd, hsame, hslot] at hother
      exact hkn (Option.some.inj hother).symm
  rw [Prod.mk.eta] at hlast
  rw [hlast]
  exact hmoves

/-- Settles O40: a pass is its visits in ramp-list order, and each visit one request on its slot's destination. -/
theorem passMovesItsFirstSlot : Obligations.PassMovesItsFirstSlot := by
  unfold Obligations.PassMovesItsFirstSlot
  refine ⟨fun w s h hdue hfloor hstep => ⟨_, exec_wayPass hdue, ?_⟩, fun w s hdue => exec_wayPass hdue, ?_⟩
  · obtain ⟨hpass, hrecord, -⟩ := State.visits_foldl s.pu.params.maxStep (s.slotsOfWay w) (h.takePass w)
      (passBudget s.pu.params.budgetFloor s.pu.params.slewFraction s.re.loads[w])
    refine ⟨fun waiting later n sl hsplit hwait hs hphase hgoal => ?_, hrecord, hpass.flags, ?_,
      ⟨hpass.raised.writer, hpass.raised.queue, hpass.raised.dropped⟩, hpass.dt, ⟨hpass.sets, hpass.ids⟩, hpass.ticks, hpass.occasionFollows⟩
    swap
    · have hout := hpass.outside
      exact ⟨hout.pending, hout.cbp, hout.masks, hout.lm, hout.xe, hout.tmp, hout.pu, hout.los, hout.mem, hout.freeCount⟩
    have hnodup : (s.slotsOfWay w).Nodup := h.core.list.1.filter _
    have hmoves := State.pass_approaches (h.takePass w) hstep (left := passBudget s.pu.params.budgetFloor
      s.pu.params.slewFraction s.re.loads[w]) (hfloor.trans (Nat.le_max_left _ _)) (hsplit ▸ hnodup) hwait hs hphase hgoal
    rw [← hsplit] at hmoves
    exact hmoves
  · intro s n sl maxStep left h hs d r held t leaves fits
    have hvisits := State.visit_visits h.inner hs maxStep left
    obtain ⟨hpass, hothers, hslots, hown, hlist, hoff⟩ := hvisits.keeps h hs
    refine ⟨⟨hpass.table, hothers, hslots, hlist, hpass.occasionFollows, hoff, hpass.ticks, hpass.outside, hpass.raised,
      hpass.dt, hpass.sets, hpass.ids⟩, fun hphase => ?_, fun hphase => ⟨hvisits.still hphase, fun delta hfit hmax => ?_⟩⟩
    · obtain ⟨hleaves, hheld, hfree⟩ := hvisits.waiting h.inner hs hphase
      refine ⟨hleaves, hheld, fun hnot => ?_⟩
      obtain ⟨hrq, hport, hmark, hlisted⟩ := hfree hnot
      exact ⟨hown ▸ hrq, hport, hmark, hlisted⟩
    · obtain ⟨hleaves, hmark, hlisted, hrq⟩ := hvisits.step hphase hfit hmax
      refine ⟨distance_stepToward (hfit.2.1.trans (Nat.min_le_right _ _)), hleaves, hmark, hlisted, fun hgoal => ?_, fun hgoal => ?_⟩
      · rw [if_neg hgoal, ← hown] at hrq
        exact ⟨congrArg Prod.fst hrq, congrArg Prod.snd hrq⟩
      · rw [if_pos hgoal, ← hown] at hrq
        exact hrq

end Sys2Proof.Machine

/-! The path words of adoption (R150): O36. -/

namespace Sys2Proof.Machine

section Fix
variable {s : State} {d : Dest} {w : Word} {src : Source}

theorem State.fixFor_undecoded (h : pathSource d w = none) : s.fixFor d w = some (.badContent, none) := by
  rw [State.fixFor, h]

theorem State.fixFor_decoded (h : pathSource d w = some src) : s.fixFor d w =
    if src = .none ∧ pathAttn w ≠ dark then some (.badContent, none)
    else if isUturn d src then some (.uturn, none)
    else match s.adoptedHolder src with
      | some h => some (.portTwice, some h)
      | none => none := by
  rw [State.fixFor, h] <;> rfl

theorem State.adoptedHolder_eq_none (h : ∀ p c, src = .port p → s.dt.ports[p].holder ≠ some c) : s.adoptedHolder src = none := by
  cases src with
  | port p => exact Option.eq_none_iff_forall_ne_some.2 fun c => h p c rfl
  | none => rfl
  | express w => rfl
  | drop p q => rfl

/-- A word that needs no fix names a source. -/
theorem State.source_of_fixFor (h : s.fixFor d w = none) : pathSource d w = some ((pathSource d w).getD .none) := by
  cases hsrc : pathSource d w with
  | none => rw [State.fixFor_undecoded hsrc] at h; cases h
  | some src => rfl

end Fix

section Build
variable {s : State} {d : Dest} {r : DestRecord}

theorem State.buildRecord_exists (s : State) (d : Dest) (r : DestRecord) : ∃ ports loads, s.buildRecord d r = { s with
    dt := { s.dt with records := s.dt.records.set d (some r), ports := ports }, re := { s.re with loads := loads } } := by
  have hload : ∀ u : State, ∃ loads, u.reportLoad d (s.record d) r = { u with re := { u.re with loads := loads } } := fun u => by
    unfold State.reportLoad
    split
    · exact ⟨_, rfl⟩
    · exact ⟨u.re.loads, rfl⟩
  have hholder : ∀ (u : State) (src : Source), ∃ ports, u.takeHolder d src = { u with dt := { u.dt with ports := ports } } :=
    fun u src => by cases src <;> exact ⟨_, rfl⟩
  have hclaimant : ∀ (u : State) (src : Source), ∃ ports, u.takeClaimant d src = { u with dt := { u.dt with ports := ports } } :=
    fun u src => by cases src <;> exact ⟨_, rfl⟩
  unfold State.buildRecord
  obtain ⟨loads, h1⟩ := hload (s.setRecord d r)
  rw [h1]
  obtain ⟨ports, h2⟩ := hholder { s.setRecord d r with re := { (s.setRecord d r).re with loads := loads } } r.curSrc
  rw [h2]
  obtain ⟨ports', h3⟩ := hclaimant { s.setRecord d r with
    dt := { (s.setRecord d r).dt with ports := ports }, re := { (s.setRecord d r).re with loads := loads } } r.intentSrc
  exact ⟨ports', loads, h3⟩

theorem State.buildRecord_port (h : r.curSrc = r.intentSrc) (p : Port) : (s.buildRecord d r).dt.ports[p] =
    if r.intentSrc = .port p then { holder := some d, claimant := some d } else s.dt.ports[p] := by
  have hload : ((s.setRecord d r).reportLoad d (s.record d) r).dt.ports = s.dt.ports := by rw [State.reportLoad_dt]; rfl
  unfold State.buildRecord
  rw [h]
  generalize (s.setRecord d r).reportLoad d (s.record d) r = u at hload
  cases r.intentSrc with
  | port q =>
    have hset : ∀ (v : State) (x : PortRecord), (v.setPort q x).dt.ports[p] = if q = p then x else v.dt.ports[p] :=
      fun v x => getElem_set_ite _ _ _ _
    show ((u.setPort q { u.dt.ports[q] with holder := some d }).setPort q
      { (u.setPort q { u.dt.ports[q] with holder := some d }).dt.ports[q] with claimant := some d }).dt.ports[p] = _
    have hown : (u.setPort q { u.dt.ports[q] with holder := some d }).dt.ports[q] = { u.dt.ports[q] with holder := some d } :=
      (getElem_set_ite _ _ _ _).trans (if_pos rfl)
    rw [hset, hset, hown]
    by_cases hq : q = p
    · rw [if_pos hq, if_pos (congrArg _ hq)]
    · rw [if_neg hq, if_neg hq, if_neg fun he => hq (Source.port.inj he), hload]
  | none => exact (congrArg (fun v : Vector PortRecord 48 => v[p]) hload).trans (if_neg nofun).symm
  | express w => exact (congrArg (fun v : Vector PortRecord 48 => v[p]) hload).trans (if_neg nofun).symm
  | drop a b => exact (congrArg (fun v : Vector PortRecord 48 => v[p]) hload).trans (if_neg nofun).symm

theorem State.buildRecord_record (s : State) (d : Dest) (r : DestRecord) (e : Dest) :
    (s.buildRecord d r).record e = if e = d then r else s.record e := by
  have hrec : (s.buildRecord d r).record e = (s.setRecord d r).record e := by
    obtain ⟨ports, loads, he⟩ := s.buildRecord_exists d r
    rw [he]
    rfl
  rw [hrec]
  split
  · next he => rw [he, State.record_setRecord_same]
  · next he => exact State.record_setRecord_other s r he

/-- One destination marked. -/
theorem State.markAll_one {t : State} (h : t.dt.updates = s.dt.updates) (d : Dest) :
    (∃ u ∈ (t.markAll none [d]).dt.updates, u.dest = d) ∧ s.marksUpdates (t.markAll none [d]) none fun e => e == d := by
  refine ⟨List.mem_map.1 (mem_foldl_markUpdate_iff.2 (.inr (List.mem_singleton.2 rfl))), fun hl => ?_⟩
  have hmarks := marks_eq_filter (marks := [d]) (hit := fun e => e == d) (List.pairwise_singleton _ _) fun e => by
    rw [List.mem_singleton, beq_iff_eq]
  rw [← hmarks, ← foldl_markUpdate_eq (List.pairwise_singleton _ _) hl, ← h]
  rfl

end Build

end Sys2Proof.Machine

/-! O36. -/

namespace Sys2Proof.Machine

section Adopt
variable {s : State} {a : Adoption} {d : Dest} {w : Word} {moved : MemoryPort}

theorem State.adoptedRecord_eq (s : State) (d : Dest) (src : Source) (attn : Attn) : s.adoptedRecord d src attn =
    { intentSrc := src, intentAttn := attn, curSrc := src, curAttn := if s.forcedFor src = true then dark else attn
      blocked := s.maskBit d, forced := s.forcedFor src, queued := 0
      wanted := s.maskBit d && !s.forcedFor src && decide (attn ≠ dark), slot := none } := by
  unfold State.adoptedRecord
  cases s.forcedFor src with
  | true => simp
  | false => rfl

theorem State.adoptedRecord_none (s : State) (d : Dest) : s.adoptedRecord d .none dark =
    { intentSrc := .none, intentAttn := dark, curSrc := .none, curAttn := dark, blocked := s.maskBit d, forced := false
      queued := 0, wanted := false, slot := none } := by
  rw [State.adoptedRecord_eq, show s.forcedFor .none = false from rfl]
  simp

/-- A word adopted as found. -/
theorem State.adoptFound_cases (s : State) (a : Adoption) (d : Dest) (w : Word) (src : Source) :
    let built := (s.buildRecord d (s.adoptedRecord d src (pathAttn w))).setAdoption
      (some { a with stage := stageAfter d, adopted := a.adopted + 1 })
    (built.currentWord d = w ∧ s.adoptFound a d w src = built ∨
      built.currentWord d ≠ w ∧ s.adoptFound a d w src = built.markAll none [d]) := by
  dsimp only
  unfold State.adoptFound
  dsimp only
  split
  · next h => exact .inl ⟨h, rfl⟩
  · next h => exact .inr ⟨h, rfl⟩

theorem State.currentWord_adoption (s : State) (tag : Option Nat) (ds : List Dest) (a : Option Adoption) (d : Dest) :
    ((s.markAll tag ds).setAdoption a).currentWord d = s.currentWord d := rfl


/-- A path word that needs no fix. -/
theorem State.adoptFound_spec {src : Source} (s : State) (a : Adoption) (d : Dest) (w : Word) :
    let t := s.adoptFound a d w src
    t.record d = s.adoptedRecord d src (pathAttn w) ∧ (∀ e, e ≠ d → t.record e = s.record e) ∧
      (∀ p, src = .port p → t.dt.ports[p] = { holder := some d, claimant := some d }) ∧
      (∀ p, src ≠ .port p → t.dt.ports[p] = s.dt.ports[p]) ∧ (t.currentWord d = w → t.dt.updates = s.dt.updates) ∧
      (t.currentWord d ≠ w → (∃ u ∈ t.dt.updates, u.dest = d) ∧ s.marksUpdates t none fun e => e == d) ∧
      t.dt = { s.dt with records := t.dt.records, ports := t.dt.ports, updates := t.dt.updates } ∧
      t = { s with
        dt := t.dt, re := { s.re with loads := t.re.loads }
        pu := { s.pu with adoption := some { stage := stageAfter d, adopted := a.adopted + 1, fixed := a.fixed } } } := by
  have hcases := s.adoptFound_cases a d w src
  dsimp only at hcases ⊢
  obtain ⟨ports, loads, hframe⟩ := s.buildRecord_exists d (s.adoptedRecord d src (pathAttn w))
  have hrecord := s.buildRecord_record d (s.adoptedRecord d src (pathAttn w))
  have hport := State.buildRecord_port (s := s) (d := d) (r := s.adoptedRecord d src (pathAttn w)) rfl
  have hsource : (s.adoptedRecord d src (pathAttn w)).intentSrc = src := rfl
  rw [hsource] at hport
  generalize s.adoptedRecord d src (pathAttn w) = r at *
  generalize s.buildRecord d r = b at *
  have hown : b.record d = r := (hrecord d).trans (if_pos rfl)
  have hothers : ∀ e, e ≠ d → b.record e = s.record e := fun e he => (hrecord e).trans (if_neg he)
  have hupdates : b.dt.updates = s.dt.updates := by rw [hframe]
  obtain ⟨hword, he⟩ | ⟨hword, he⟩ := hcases <;> rw [he]
  · refine ⟨hown, hothers, fun p hp => (hport p).trans (if_pos hp), fun p hp => (hport p).trans (if_neg hp),
      fun _ => hupdates, fun hne => absurd hword hne, ?_, ?_⟩
    · rw [hframe]; rfl
    · rw [hframe]; rfl
  · refine ⟨hown, hothers, fun p hp => (hport p).trans (if_pos hp), fun p hp => (hport p).trans (if_neg hp),
      fun hsame => absurd hsame hword, fun _ => State.markAll_one hupdates d, ?_, ?_⟩
    · rw [hframe]; rfl
    · rw [hframe]; rfl

/-- A path word that is fixed. -/
theorem State.adoptFixed_spec (s : State) (a : Adoption) (d : Dest) (w : Word) (reason : FixReason) (keeper : Option Dest) :
    let t := s.adoptFixed a d w reason keeper
    t.record d = s.adoptedRecord d .none dark ∧ (∀ e, e ≠ d → t.record e = s.record e) ∧ t.dt.ports = s.dt.ports ∧
      (∃ u ∈ t.dt.updates, u.dest = d) ∧ (s.marksUpdates t none fun e => e == d) ∧
      t.dt = { s.dt with records := t.dt.records, updates := t.dt.updates } ∧
      t.ew = (s.emit .adoptionFixed reason.code (BitVec.ofNat 16 d.val) w
        (BitVec.ofNat 32 (match keeper with | some h => h.val | none => 0))).ew ∧
      t = { s with
        dt := t.dt, re := { s.re with loads := t.re.loads }, ew := t.ew
        pu := { s.pu with
          adoption := some { stage := .fixedWord d (t.currentWord d), adopted := a.adopted, fixed := a.fixed + 1 } } } := by
  obtain ⟨ports, loads, hframe⟩ := s.buildRecord_exists d (s.adoptedRecord d .none dark)
  have hrecord := s.buildRecord_record d (s.adoptedRecord d .none dark)
  have hport := State.buildRecord_port (s := s) (d := d) (r := s.adoptedRecord d .none dark) rfl
  have hsource : (s.adoptedRecord d .none dark).intentSrc = .none := rfl
  rw [hsource] at hport
  dsimp only
  unfold State.adoptFixed
  dsimp only
  generalize s.adoptedRecord d .none dark = r at *
  rw [State.emit_of (s := s) (t := s.buildRecord d r) (by rw [hframe])]
  generalize s.buildRecord d r = b at *
  have hown : b.record d = r := (hrecord d).trans (if_pos rfl)
  have hothers : ∀ e, e ≠ d → b.record e = s.record e := fun e he => (hrecord e).trans (if_neg he)
  have hupdates : b.dt.updates = s.dt.updates := by rw [hframe]
  have hports : b.dt.ports = s.dt.ports := Vector.ext fun i hi => (hport ⟨i, hi⟩).trans (if_neg nofun)
  obtain ⟨hmark, hlisted⟩ := State.markAll_one hupdates d
  refine ⟨hown, hothers, hports, hmark, hlisted, ?_, by cases keeper <;> rfl, ?_⟩
  · have hkept : ports = s.dt.ports := by rw [hframe] at hports; exact hports
    rw [hframe, hkept]
    rfl
  · rw [State.currentWord_adoption]
    generalize State.currentWord _ d = v
    rw [hframe]
    rfl

end Adopt

/-- The judgement of a path word (R150). -/
theorem State.fixFor_spec (s : State) (d : Dest) (w : Word) :
    ((pathSource d w = none ∨ pathSource d w = some .none ∧ pathAttn w ≠ dark) → s.fixFor d w = some (.badContent, none)) ∧
    ∀ src, pathSource d w = some src → ¬ (pathSource d w = none ∨ pathSource d w = some .none ∧ pathAttn w ≠ dark) →
      (isLine d = true ∧ src = .express (wayOf d) → s.fixFor d w = some (.uturn, none)) ∧
      (¬ (isLine d = true ∧ src = .express (wayOf d)) →
        (∀ p h, src = .port p → s.dt.ports[p].holder = some h → s.fixFor d w = some (.portTwice, some h)) ∧
        ((∀ p h, src = .port p → s.dt.ports[p].holder ≠ some h) → s.fixFor d w = none)) := by
  refine ⟨?_, fun src hsrc hgood => ?_⟩
  · rintro (hnone | ⟨hnone, hattn⟩)
    · exact State.fixFor_undecoded hnone
    · rw [State.fixFor_decoded hnone, if_pos ⟨rfl, hattn⟩]
  · have hnot : ¬ (src = .none ∧ pathAttn w ≠ dark) := fun ⟨he, hattn⟩ => hgood (.inr ⟨he ▸ hsrc, hattn⟩)
    rw [State.fixFor_decoded hsrc, if_neg hnot]
    refine ⟨fun hu => if_pos (isUturn_iff.2 hu), fun hu => ?_⟩
    rw [if_neg fun hx => hu (isUturn_iff.1 hx)]
    refine ⟨fun p h hp hh => ?_, fun hfree => ?_⟩
    · have hholder : s.adoptedHolder src = some h := by rw [hp]; exact hh
      rw [hholder]
    · rw [State.adoptedHolder_eq_none hfree]

/-- Settles O36: the judgement of a path word, the record built from it, and the word of a fixed one written. -/
theorem adoptionPathWords : Obligations.AdoptionPathWords := by
  unfold Obligations.AdoptionPathWords
  refine ⟨fun s d w => s.fixFor_spec d w, fun s a d hwf hgrant ha => ⟨fun hstage => ?_, fun v hstage => ?_⟩⟩
  · have haccess : s.adoptionAccess a = some (s.wordRead (pathOffset d)) := by rw [State.adoptionAccess, hstage]
    have hstep : adoptionAccessGrantStep s =
        State.adoptWord { s with tmp := (s.movePointers .xch).tmp } a d (s.loadWord (pathOffset d)) := by
      refine (adoptionAccessGrantStep_read ha hgrant haccess).trans ?_
      rw [State.adoptionStep, hstage]
    generalize (s.movePointers .xch).tmp = moved at hstep ⊢
    have hoffset : s.loadWord (pathOffset d) = s.loadWord (4 * d.val) := rfl
    rw [hoffset] at hstep
    generalize s.loadWord (4 * d.val) = w at hstep ⊢
    refine ⟨fun hfix => ?_, fun reason keeper hfix => ?_⟩
    · have hsrc := State.source_of_fixFor hfix
      have hfix' : State.fixFor { s with tmp := moved } d w = none := hfix
      rw [State.adoptWord, hfix'] at hstep
      generalize (pathSource d w).getD .none = src at hsrc hstep
      obtain ⟨hown, hothers, hport, hports, hsame, hnew, hdt, hframe⟩ :=
        State.adoptFound_spec (src := src) { s with tmp := moved } a d w
      refine ⟨_, src, congrArg Host.Outcome.next hstep, hsrc, hown.trans (State.adoptedRecord_eq _ _ _ _), hothers, hport,
        hports, hsame, hnew, hdt, ?_, hframe.trans ?_⟩
      · exact congrArg State.pu hframe
      · exact congrArg (fun p => ({ s with tmp := moved, dt := _, re := { s.re with loads := _ }, pu := p } : State))
          (congrArg State.pu hframe).symm
    · have hfix' : State.fixFor { s with tmp := moved } d w = some (reason, keeper) := hfix
      rw [State.adoptWord, hfix'] at hstep
      obtain ⟨hown, hothers, hports, hmark, hlisted, hdt, hew, hframe⟩ :=
        State.adoptFixed_spec { s with tmp := moved } a d w reason keeper
      refine ⟨_, congrArg Host.Outcome.next hstep, hown.trans (State.adoptedRecord_none _ _), hothers, hports, hmark, hlisted,
        hdt, hew.trans ?_, ?_, hframe.trans ?_⟩
      · exact State.emit_ew_congr (s := s) (t := { s with tmp := moved }) rfl _ _ _ _ _
      · exact congrArg State.pu hframe
      · exact congrArg (fun p => ({ s with tmp := moved, dt := _, re := { s.re with loads := _ }, pu := p, ew := _ } : State))
          (congrArg State.pu hframe).symm
  · have haccess : s.adoptionAccess a = some (s.wordWrite (pathOffset d) v) := by rw [State.adoptionAccess, hstage]
    obtain ⟨⟨x, he⟩, hword, hkeeps⟩ := adoptionAccessGrantStep_write ha hgrant hwf haccess
    refine ⟨(s.granted .xch).setAdoption (some { a with stage := stageAfter d }), congrArg Host.Outcome.next (he.trans ?_), hword,
      hkeeps, rfl⟩
    rw [State.adoptionStep, hstage]

end Sys2Proof.Machine

/-! A ramp slot occupied or retargeted (R39, R71, R79). -/

namespace Sys2Proof.Machine

/-- No listed set is the one that a slot would serve. -/
def State.unlisted (s : State) (serves : Option Nat) : Prop := ∀ id, serves = some id → ∀ e ∈ s.csa.settling, e.id ≠ id

section Unlisted
variable {s t : State} {w v : Work} {n : SlotNo} {sl : RampSlot} {serves : Option Nat} {d : Dest}

theorem State.unlisted_none (s : State) : s.unlisted none := nofun

theorem State.unlisted.congr (h : s.unlisted serves) (hset : t.csa.settling = s.csa.settling) : t.unlisted serves := by
  unfold State.unlisted
  rw [hset]
  exact h

theorem State.releaseSet_unlisted (h : s.unlisted serves) (interrupted : Bool) : s.releaseSet serves interrupted = s := by
  unfold State.releaseSet
  cases serves with
  | none => rfl
  | some id =>
    have hfind : (s.csa.settling.find? fun e => e.id == id) = none := List.find?_eq_none.2 fun e he => by
      rw [beq_iff_eq]
      exact h id rfl e he
    dsimp only
    rw [hfind]

theorem Work.settleSlot_keepsSets (hs : w.st.re.slots[n] = some sl) (h : w.st.unlisted sl.serves) :
    w.st.keepsSets (w.settleSlot n).st := by
  rw [Work.settleSlot, hs]
  dsimp only
  rw [State.releaseSet_unlisted h, Work.freeSlot_eq hs]
  exact ⟨rfl, rfl⟩

theorem Work.evaluateGoal_keepsSets (hs : w.st.re.slots[n] = some sl) (h : w.st.unlisted sl.serves) (d : Dest) :
    w.st.keepsSets (w.evaluateGoal n d).st := by
  unfold Work.evaluateGoal
  dsimp only
  split
  · exact Work.settleSlot_keepsSets hs h
  · split <;> exact w.setPhase_keepsSets n _ _

theorem State.keepsSets.trans {u : State} (h : s.keepsSets t) (k : t.keepsSets u) : s.keepsSets u :=
  ⟨k.1.trans h.1, k.2.trans h.2⟩

/-- Phase evaluation of a slot that serves no listed set. -/
theorem Work.evaluate_keepsSets (hs : w.st.re.slots[n] = some sl) (h : w.st.unlisted sl.serves) :
    w.st.keepsSets (w.evaluate n).st := by
  have hwrite : ∀ src, w.st.keepsSets (w.writeCurrent sl.dest src dark).st := fun src => w.writeCurrent_keepsSets _ _ _
  have hslots : ∀ src, (w.writeCurrent sl.dest src dark).st.re.slots[n] = some sl := fun src => by
    rw [(w.writeCurrent_slots sl.dest src dark).1, hs]
  unfold Work.evaluate
  rw [hs]
  dsimp only
  split
  · exact Work.evaluateGoal_keepsSets hs h _
  · split
    · exact w.setPhase_keepsSets n _ _
    · split
      · unfold Work.enterPortWait
        split
        · exact w.setPhase_keepsSets n _ _
        · exact (hwrite _).trans (Work.setPhase_keepsSets _ n _ _)
      · exact (hwrite _).trans (Work.evaluateGoal_keepsSets (hslots _) (h.congr (hwrite _).1) _)

end Unlisted

/-! ### A slot occupied -/

/-- A free slot just occupied, before it is phase-evaluated. -/
def Work.occupied (w : Work) (n : SlotNo) (d : Dest) (serves : Option Nat) : Work :=
  let s1 := w.st.setSlot n (some { dest := d, phase := .dimming, goal := dark, serves := serves })
  let s2 := { s1 with re := { s1.re with list := s1.re.list ++ [n] } }
  { w with st := s2.setRecord d { s2.record d with slot := some n, wanted := false } }.mark d

section Occupy
variable {w : Work} {n : SlotNo} {d : Dest} {serves : Option Nat}

theorem Work.occupySlot_eq (w : Work) (n : SlotNo) (d : Dest) (serves : Option Nat) :
    w.occupySlot n d serves = (w.occupied n d serves).evaluate n := rfl

theorem Work.occupied_record (w : Work) (n : SlotNo) (d : Dest) (serves : Option Nat) (e : Dest) :
    (w.occupied n d serves).st.record e = if e = d then { w.st.record d with slot := some n, wanted := false } else w.st.record e := by
  unfold Work.occupied
  split
  · next he =>
    rw [he]
    exact State.record_setRecord_same _ _ _
  · next he => exact State.record_setRecord_other _ _ he

theorem Work.occupied_slots (w : Work) (n : SlotNo) (d : Dest) (serves : Option Nat) (k : SlotNo) :
    (w.occupied n d serves).st.re.slots[k] =
      if n = k then some { dest := d, phase := .dimming, goal := dark, serves := serves } else w.st.re.slots[k] :=
  getElem_set_ite w.st.re.slots n k _

theorem Work.occupied_acts (h : w.st.coreLaw) (hfree : w.st.re.slots[n] = none) (hline : isLine d = true)
    (hslot : (w.st.record d).slot = none) : w.acts (w.occupied n d serves) d where
  core := {
    slots := fun m x hx => by
      rw [Work.occupied_slots] at hx
      rw [Work.occupied_record]
      split at hx
      · next hm =>
        obtain rfl := Option.some.inj hx
        exact ⟨hline, by rw [if_pos rfl, hm]⟩
      · have hold := h.slots m x hx
        have hne : x.dest ≠ d := fun he => by
          rw [he, hslot] at hold
          exact nomatch hold.2
        rw [if_neg hne]
        exact hold
    slotNames := fun e m hm => by
      rw [Work.occupied_record] at hm
      rw [Work.occupied_slots]
      split at hm
      · next he =>
        rw [if_pos (Option.some.inj hm)]
        exact ⟨_, rfl, he.symm⟩
      · obtain ⟨x, hx, hxe⟩ := h.slotNames e m hm
        rw [if_neg fun hnm => by rw [← hnm, hfree] at hx; cases hx]
        exact ⟨x, hx, hxe⟩
    list := by
      have hn : n ∉ w.st.re.list := fun hmem => by
        have := (h.list.2 n).1 hmem
        rw [hfree] at this
        cases this
      refine ⟨List.nodup_append.2 ⟨h.list.1, List.nodup_singleton n, fun a ha b hb he => ?_⟩, fun m => ?_⟩
      · rw [List.mem_singleton.1 hb] at he
        exact hn (he ▸ ha)
      · rw [Work.occupied_slots]
        show m ∈ w.st.re.list ++ [n] ↔ _
        rw [List.mem_append, List.mem_singleton, h.list.2 m]
        split
        · next hm => exact iff_of_true (.inr hm.symm) rfl
        · next hm => exact or_iff_left fun he => hm he.symm
    holders := fun hm p e => by
      have hcur : ((w.occupied n d serves).st.record e).curSrc = (w.st.record e).curSrc := by
        rw [Work.occupied_record]
        split
        · next he => rw [he]
        · rfl
      rw [hcur]
      exact h.holders hm p e }
  outside := ⟨rfl, rfl, rfl, rfl, rfl, rfl, rfl, rfl, rfl, rfl⟩
  others := fun e he => by rw [Work.occupied_record, if_neg he]
  slotOf := fun e he => State.slotOf_congr (by rw [Work.occupied_record, if_neg he]) fun m hm => by
    rw [Work.occupied_slots, if_neg]
    rintro rfl
    obtain ⟨x, hx, -⟩ := h.slotNames e n hm
    rw [hfree] at hx
    cases hx
  claims := fun _ => rfl
  sorted := fun hs => (insertDest_spec d w.marks hs).1
  mono := fun _ he => mem_insertDest.2 (.inr he)
  only := fun _ he => (mem_insertDest.1 he).symm

/-- What becomes of a destination that occupies a free slot, serving no listed set (R39, R71, R79). -/
theorem Work.occupySlot_spec (h : w.st.coreLaw) (hfree : w.st.re.slots[n] = none) (hline : isLine d = true)
    (hslot : (w.st.record d).slot = none) (hidle : w.st.pu.adoption = none) (hset : w.st.unlisted serves) :
    let sl : RampSlot := { dest := d, phase := .dimming, goal := dark, serves := serves }
    let r := { w.st.record d with slot := some n, wanted := false }
    let left := r.phased d sl (w.st.otherHolder d r.intentSrc).isSome
    let v := w.occupySlot n d serves
    w.acts v d ∧ v.st.record d = left.1 ∧ v.st.slotOf d = left.2 ∧ w.st.keepsSets v.st ∧ d ∈ v.marks ∧
      w.st.evaluates v.st n sl r (w.st.re.list ++ [n]) := by
  intro sl r left v
  have hacts := Work.occupied_acts (serves := serves) h hfree hline hslot
  have hs : (w.occupied n d serves).st.re.slots[n] = some sl := (w.occupied_slots n d serves n).trans (if_pos rfl)
  have hrecord : (w.occupied n d serves).st.record d = r := (w.occupied_record n d serves d).trans (if_pos rfl)
  have hidle' : (w.occupied n d serves).st.pu.adoption = none := hidle
  have hbuilt := State.isBuilt_of_idle hidle' d
  have heval := Work.evaluate_acts hacts.core hs hbuilt
  have hleaves := Work.evaluate_leavesSlot hs nofun
  have hholder : ∀ src, (w.occupied n d serves).st.otherHolder d src = w.st.otherHolder d src := fun _ => rfl
  dsimp only at hleaves
  rw [show sl.dest = d from rfl, hrecord, hholder] at hleaves
  change (w.occupied n d serves).leavesSlot v n d left.1 left.2 at hleaves
  have hlist : (w.occupied n d serves).st.re.list = w.st.re.list ++ [n] := rfl
  refine ⟨hacts.trans heval, hleaves.record, ?_, ?_, heval.mono d (mem_insertDest.2 (.inl rfl)), Prod.ext hleaves.record hleaves.slot,
    fun k hk => ?_, ?_⟩
  · have hslot' : (v.st.record d).slot = if left.2 = none then none else some n := by
      rw [hleaves.record, DestRecord.phased_slot]
    by_cases hnone : left.2 = none
    · rw [if_pos hnone] at hslot'
      rw [State.slotOf_none hslot', hnone]
    · rw [if_neg hnone] at hslot'
      rw [State.slotOf_some hslot']
      exact hleaves.slot
  · exact Work.evaluate_keepsSets hs hset
  · rw [hleaves.slots k hk, Work.occupied_slots, if_neg (Ne.symm hk)]
  · rw [hleaves.list, hleaves.slot, hlist]

end Occupy

end Sys2Proof.Machine

/-! The laws of a destination whose slot is replaced (R39, R41, R42). -/

namespace Sys2Proof.Machine

section Turn
variable {w v : Work} {d : Dest} {extra : Option Nat} {cut : Nat → Nat}

/-- A destination's slot given up, or taken for the set that is being applied, keeps the law of the listed sets. -/
theorem Work.acts.servesLaw (k : w.acts v d) (hcore : w.st.coreLaw) (h : w.st.servesLaw extra)
    (kc : w.st.counts v.st cut fun _ => 0) (hnext : w.st.csa.nextSet ≤ v.st.csa.nextSet)
    (hfresh : ∀ e ∈ w.st.csa.settling, extra ≠ some e.id)
    (hserve : ∀ x, extra ≠ some x → v.st.servesOf d x + cut x = w.st.servesOf d x) : v.st.servesLaw extra := by
  have hcount : ∀ x, extra ≠ some x → v.st.servingCount x + cut x = w.st.servingCount x := fun x hx => by
    have hchange := servingCount_change hcore k.core k.slotOf x
    have := hserve x hx
    omega
  refine ⟨fun e he => ?_, (h.setsListed.counts kc).ids, fun e x he => ?_⟩
  · rw [kc.settling] at he
    obtain ⟨y, hy, hlt, rfl⟩ := mem_settleOff.1 he
    obtain ⟨hid, hpos, hrem⟩ := h.listed y hy
    have := hcount y.id (hfresh y hy)
    dsimp only
    exact ⟨by omega, by omega, by omega⟩
  · by_cases hx : extra = some x
    · exact .inr hx
    · have hold : w.st.servesOf e x ≠ 0 := by
        by_cases hed : e = d
        · rw [hed] at he ⊢
          have := hserve x hx
          omega
        · rw [State.servesOf, k.slotOf e hed] at he
          exact he
      obtain ⟨y, hy, rfl⟩ := List.mem_map.1 ((h.serving e x hold).resolve_right hx)
      obtain ⟨-, hpos, hrem⟩ := h.listed y hy
      have hone : v.st.servesOf e y.id ≤ v.st.servingCount y.id := by
        rw [k.core.servingCount_eq]
        exact Finset.single_le_sum (f := fun c => v.st.servesOf c y.id) (fun _ _ => Nat.zero_le _) (Finset.mem_univ e)
      have := hcount y.id hx
      refine .inl ?_
      rw [kc.settling]
      exact List.mem_map.2 ⟨_, mem_settleOff.2 ⟨y, hy, by omega, rfl⟩, rfl⟩

theorem DestRecord.sane.occupied {r : DestRecord} {iso built adopting : Bool} (h : r.sane d iso built adopting)
    (hforced : r.forced = false) (hline : isLine d = true) (hadopt : adopting = false) (n : SlotNo) :
    ({ r with slot := some n, wanted := false } : DestRecord).sane d iso built adopting where
  intent := h.intent
  current := h.current
  darkNone := h.darkNone
  drop := fun hd => absurd (hline.symm.trans hd) nofun
  slotless := fun had => absurd (hadopt.symm.trans had) nofun
  rebuilt := h.rebuilt
  wanted := nofun
  unbuilt := fun _ => rfl
  forcedFlag := h.forcedFlag
  forcedRest := fun hf => absurd (hforced.symm.trans hf) nofun

/-- A destination worked on keeps its law where its record and slot are left lawful. -/
theorem Work.acts.ownLaw (k : w.acts v d) (hiso : v.st.dt.isolated = w.st.dt.isolated)
    (hlaw : (v.st.record d).lawful d (v.st.slotOf d) (w.st.forcedFor (v.st.record d).intentSrc) (w.st.isBuilt d)
      w.st.pu.adoption.isSome) : v.st.destLaw d := by
  unfold State.destLaw
  rw [k.isBuilt, k.outside.pu]
  unfold State.forcedFor at hlaw ⊢
  rw [hiso]
  exact hlaw

end Turn

end Sys2Proof.Machine

/-! The admission of wanted destinations (R79). -/

namespace Sys2Proof.Machine

section Free
variable {s t : State} {n : SlotNo} {rest : List SlotNo}

theorem State.mem_freeSlots {k : SlotNo} : k ∈ s.freeSlots ↔ s.re.slots[k] = none := by
  unfold State.freeSlots
  rw [List.mem_filter, Option.isNone_iff_eq_none]
  exact and_iff_right (List.mem_finRange k)

theorem State.freeSlots_sorted (s : State) : s.freeSlots.Pairwise (· < ·) := (List.pairwise_lt_finRange 16).filter _

theorem State.freeSlots_congr (h : t.re.slots = s.re.slots) : t.freeSlots = s.freeSlots := by
  unfold State.freeSlots
  rw [h]

/-- The first free slot is the lowest-numbered one. -/
theorem State.freeSlots_head (h : s.freeSlots = n :: rest) : s.re.slots[n] = none ∧ ∀ k < n, s.re.slots[k] ≠ none := by
  have hsorted := s.freeSlots_sorted
  rw [h] at hsorted
  refine ⟨State.mem_freeSlots.1 (h ▸ List.mem_cons_self), fun k hk hfree => ?_⟩
  have hmem := State.mem_freeSlots.2 hfree
  rw [h] at hmem
  obtain rfl | hmem := List.mem_cons.1 hmem
  · exact lt_irrefl k hk
  · exact lt_asymm hk ((List.pairwise_cons.1 hsorted).1 k hmem)

/-- The free slots after a change of the first of them. -/
theorem State.freeSlots_change (h : s.freeSlots = n :: rest) (hother : ∀ k : SlotNo, k ≠ n → t.re.slots[k] = s.re.slots[k]) :
    t.freeSlots = if t.re.slots[n] = none then s.freeSlots else rest := by
  have hsorted := s.freeSlots_sorted
  refine t.freeSlots_sorted.eq_of_mem_iff ?_ fun k => ?_
  · split
    · exact hsorted
    · rw [h] at hsorted
      exact (List.pairwise_cons.1 hsorted).2
  · rw [State.mem_freeSlots]
    split
    · next hfree =>
      rw [State.mem_freeSlots]
      by_cases hk : k = n
      · rw [hk]
        exact iff_of_true hfree (State.freeSlots_head h).1
      · rw [hother k hk]
    · next htaken =>
      by_cases hk : k = n
      · rw [hk]
        rw [h] at hsorted
        exact iff_of_false htaken fun hmem => lt_irrefl n ((List.pairwise_cons.1 hsorted).1 n hmem)
      · rw [hother k hk, ← State.mem_freeSlots, h, List.mem_cons]
        exact or_iff_right hk

end Free

section Admit
variable {w v : Work} {d : Dest}

/-- What the turn of one wanted destination leaves. -/
structure Work.admits (w v : Work) (d : Dest) : Prop where
  acts : w.acts v d
  law : v.st.innerLaw none
  sets : w.st.keepsSets v.st
  turn : w.st.admitsWanted v.st d
  record : v.st.record d = { w.st.record d with
    curSrc := (v.st.record d).curSrc, wanted := (v.st.record d).wanted, slot := (v.st.record d).slot }
  held : ∀ n : SlotNo, w.st.re.slots[n] ≠ none → v.st.re.slots[n] = w.st.re.slots[n]
  outcome : w.st.freeSlots = [] ∧ v = w ∨ ∃ n rest, w.st.freeSlots = n :: rest ∧ (v.st.record d).wanted = false ∧ d ∈ v.marks ∧
    ((v.st.record d).slot = none ∧ atRest d (v.st.record d) = true ∧ v.st.freeSlots = w.st.freeSlots ∧
        v.st.re.list = w.st.re.list ∨
      (v.st.record d).slot = some n ∧ v.st.freeSlots = rest ∧ v.st.re.list = w.st.re.list ++ [n])

/-- A slot that phase evaluation frees leaves its destination at rest. -/
theorem DestRecord.phased_atRest {r : DestRecord} {sl : RampSlot} {claimed : Bool} (h : (r.phased d sl claimed).2 = none) :
    atRest d (r.phased d sl claimed).1 = true := by
  have htoward : ∀ q : DestRecord, q.curSrc = q.intentSrc → (q.towardTarget d sl).2 = none →
      atRest d (q.towardTarget d sl).1 = true := fun q hsrc hq => by
    unfold DestRecord.towardTarget at hq ⊢
    dsimp only at hq ⊢
    split at hq
    · next hattn =>
      rw [if_pos hattn, atRest_iff]
      exact ⟨hsrc, hattn⟩
    · split at hq <;> cases hq
  unfold DestRecord.phased at h ⊢
  split at h
  · next hsrc =>
    rw [if_pos hsrc]
    exact htoward _ hsrc h
  · next hsrc =>
    rw [if_neg hsrc]
    split at h
    · cases h
    · next hattn =>
      rw [if_neg hattn]
      split at h
      · cases h
      · next hheld =>
        rw [if_neg hheld]
        exact htoward _ rfl h

/-- What phase evaluation leaves of a record `r` in the slot content `sl`. -/
structure DestRecord.evaluated (d : Dest) (r : DestRecord) (sl : RampSlot) (r' : DestRecord) (q : Option RampSlot) : Prop where
  record : r' = { r with curSrc := r'.curSrc, slot := r'.slot }
  slot : r'.slot = if q = none then none else r.slot
  rest : q = none → atRest d r' = true
  serves : ∀ x, oneOf (q.bind RampSlot.serves) x + endedOf (some sl) q x = oneOf sl.serves x

theorem DestRecord.phased_evaluated (d : Dest) (r : DestRecord) (sl : RampSlot) (claimed : Bool) :
    r.evaluated d sl (r.phased d sl claimed).1 (r.phased d sl claimed).2 where
  record := DestRecord.phased_record d r sl claimed
  slot := DestRecord.phased_slot d r sl claimed
  rest := DestRecord.phased_atRest
  serves := DestRecord.phased_serves

theorem DestRecord.evaluated.serves_none {r r' : DestRecord} {sl : RampSlot} {q : Option RampSlot} (h : r.evaluated d sl r' q)
    {x : Nat} (hx : sl.serves ≠ some x) : oneOf (q.bind RampSlot.serves) x = 0 := by
  have hsum := h.serves x
  rw [oneOf, oneOf, if_neg hx] at hsum
  rw [oneOf]
  omega

theorem Work.admitWanted_admits (h : w.st.innerLaw none) (hidle : w.st.pu.adoption = none)
    (hwant : (w.st.record d).wanted = true) : w.admits (w.admitWanted d) d := by
  have hlaw := h.dests d
  obtain ⟨hslot, hforced⟩ := hlaw.wanted hwant
  have hline : isLine d = true := by
    by_contra hdrop
    have := (hlaw.drop ((Bool.not_eq_true _).mp hdrop)).2.1
    rw [hwant] at this
    cases this
  unfold Work.admitWanted
  rw [hline, hwant, Bool.and_self, if_pos rfl]
  cases hfree : w.st.freeSlots with
  | nil =>
    dsimp only
    have hnone : ∀ n : SlotNo, w.st.re.slots[n] ≠ none := fun n hn => by
      have := State.mem_freeSlots.2 hn
      rw [hfree] at this
      cases this
    exact {
      acts := .refl h.core d
      law := h
      sets := ⟨rfl, rfl⟩
      turn := ⟨fun _ _ => rfl, fun _ => ⟨rfl, rfl⟩, fun n hn => absurd hn (hnone n)⟩
      record := rfl
      held := fun _ _ => rfl
      outcome := .inl ⟨hfree, rfl⟩ }
  | cons n rest =>
    dsimp only
    obtain ⟨hn, hlowest⟩ := State.freeSlots_head hfree
    obtain ⟨hacts, hrecord, hcontent, hsets, hmark, heval⟩ :=
      Work.occupySlot_spec h.core hn hline hslot hidle (w.st.unlisted_none)
    dsimp only at hrecord hcontent heval
    obtain ⟨hpair, hothers, hlist⟩ := heval
    have hsane := hlaw.tosane.occupied hforced hline (by rw [hidle]; rfl) n
    have hown := hsane.phased (sl := { dest := d, phase := .dimming, goal := dark, serves := none })
      (claimed := (w.st.otherHolder d (w.st.record d).intentSrc).isSome) nofun State.claimed_iff
    have hiso : (w.occupySlot n d none).st.dt.isolated = w.st.dt.isolated := by
      rw [((State.reworks.refl w.st).occupySlot (w := w) n d none).dt]
    have hphased := DestRecord.phased_evaluated d { w.st.record d with slot := some n, wanted := false }
      { dest := d, phase := .dimming, goal := dark, serves := none } (w.st.otherHolder d (w.st.record d).intentSrc).isSome
    rw [← hrecord, ← hcontent] at hown hphased
    have hcell : (w.occupySlot n d none).st.re.slots[n] = (w.occupySlot n d none).st.slotOf d :=
      (congrArg Prod.snd hpair).trans hcontent.symm
    have hwanted : ((w.occupySlot n d none).st.record d).wanted = false := by rw [hphased.record]
    have hchange := State.freeSlots_change (t := (w.occupySlot n d none).st) hfree hothers
    refine {
      acts := hacts
      law := ⟨hacts.core, fun e => ?_, hacts.claimLaw h.claims (by rw [hphased.record]),
        hacts.servesLaw h.core h.serves (State.counts_of_keepsSets h.listed hsets) ?_ (fun _ _ => nofun) fun x _ => ?_⟩
      sets := hsets
      turn := ⟨hacts.others, fun hall => absurd hn (hall n), fun m hm hlow => ?_⟩
      record := by
        conv_lhs => rw [hphased.record]
        rw [hwanted]
      held := fun m hm => hothers m fun he => hm (he ▸ hn)
      outcome := .inr ⟨n, rest, hfree, hwanted, hmark, ?_⟩ }
    · by_cases he : e = d
      · rw [he]
        refine hacts.ownLaw hiso ?_
        rw [show ((w.occupySlot n d none).st.record d).intentSrc = (w.st.record d).intentSrc by rw [hphased.record]]
        exact hown
      · exact (h.dests e).congr (hacts.others e he) (hacts.slotOf e he) hiso hacts.outside.pu
    · rw [((State.reworks.refl w.st).occupySlot (w := w) n d none).sets]
    · rw [State.servesOf, hphased.serves_none nofun, State.servesOf, State.slotOf_none hslot]
      rfl
    · obtain rfl : m = n := le_antisymm (not_lt.1 fun hlt => hlow n hlt hn) (not_lt.1 fun hlt => hlowest m hlt hm)
      exact ⟨hpair, hothers, hlist⟩
    · have hfresh : n ∉ w.st.re.list := fun hmem => by
        have := (h.core.list.2 n).1 hmem
        rw [hn] at this
        cases this
      rw [hcell] at hchange hlist
      rw [hchange, hlist, hphased.slot]
      split
      · next hnone =>
        refine .inl ⟨rfl, hphased.rest hnone, rfl, ?_⟩
        rw [List.erase_append_right _ hfresh, List.erase_cons_head, List.append_nil]
      · exact .inr ⟨rfl, rfl, rfl⟩

end Admit

end Sys2Proof.Machine

/-! The wanted destinations admitted in order (R79): O43. -/

namespace Sys2Proof.Machine

/-- The destinations of a list that hold a slot. -/
def State.taken (s : State) (l : List Dest) : List Dest := l.filter fun d => (s.record d).slot.isSome

/-- What the turns of the wanted destinations `l`, in order, leave. -/
structure Work.admissions (w v : Work) (l : List Dest) : Prop where
  law : v.st.innerLaw none
  sets : w.st.keepsSets v.st
  pu : v.st.pu = w.st.pu
  others : ∀ e, e ∉ l → v.st.record e = w.st.record e
  record : ∀ e, v.st.record e = { w.st.record e with
    curSrc := (v.st.record e).curSrc, wanted := (v.st.record e).wanted, slot := (v.st.record e).slot }
  held : ∀ n : SlotNo, w.st.re.slots[n] ≠ none → v.st.re.slots[n] = w.st.re.slots[n]
  sorted : w.marks.Pairwise (· < ·) → v.marks.Pairwise (· < ·)
  marks : ∀ e, e ∈ v.marks ↔ e ∈ w.marks ∨ e ∈ l ∧ (v.st.record e).wanted = false
  rest : ∀ e ∈ l, (v.st.record e).wanted = false → (v.st.record e).slot = none → atRest e (v.st.record e) = true
  left : ∀ e ∈ l, (v.st.record e).wanted = true → v.st.freeSlots = [] ∧ v.st.record e = w.st.record e ∧
    ∀ c ∈ l, e < c → (v.st.record c).wanted = true
  slots : (v.st.taken l).map (fun e => (v.st.record e).slot) = (w.st.freeSlots.take (v.st.taken l).length).map some ∧
    v.st.freeSlots = w.st.freeSlots.drop (v.st.taken l).length ∧
    v.st.re.list = w.st.re.list ++ w.st.freeSlots.take (v.st.taken l).length

section Admissions
variable {w v : Work} {l : List Dest}

theorem Work.admissions.refl (h : w.st.innerLaw none) : w.admissions w [] where
  law := h
  sets := ⟨rfl, rfl⟩
  pu := rfl
  others := fun _ _ => rfl
  record := fun _ => rfl
  held := fun _ _ => rfl
  sorted := id
  marks := fun e => (or_iff_left fun h => List.not_mem_nil h.1).symm
  rest := fun _ he => absurd he List.not_mem_nil
  left := fun _ he => absurd he List.not_mem_nil
  slots := ⟨rfl, rfl, (List.append_nil _).symm⟩

/-- With no slot free no turn changes anything. -/
theorem Work.admitWanted_full (h : w.st.freeSlots = []) (d : Dest) : w.admitWanted d = w := by
  unfold Work.admitWanted
  rw [h]
  exact ite_self w

theorem Work.foldl_admitWanted_full (h : w.st.freeSlots = []) (l : List Dest) : l.foldl Work.admitWanted w = w := by
  induction l with
  | nil => rfl
  | cons d l ih => rw [List.foldl_cons, Work.admitWanted_full h, ih]

theorem Work.admissions.full (h : w.st.innerLaw none) (hfull : w.st.freeSlots = []) (hwant : ∀ d ∈ l, (w.st.record d).wanted = true) :
    w.admissions w l := by
  have hnone : w.st.taken l = [] := List.filter_eq_nil_iff.2 fun d hd => by
    rw [((h.dests d).wanted (hwant d hd)).1]
    exact nofun
  have hoff : ∀ e ∈ l, ¬ (w.st.record e).wanted = false := fun e he hf => nomatch (hwant e he).symm.trans hf
  exact {
    law := h
    sets := ⟨rfl, rfl⟩
    pu := rfl
    others := fun _ _ => rfl
    record := fun _ => rfl
    held := fun _ _ => rfl
    sorted := id
    marks := fun e => (or_iff_left fun he => hoff e he.1 he.2).symm
    rest := fun e he hf => absurd hf (hoff e he)
    left := fun e he _ => ⟨hfull, rfl, fun c hc _ => hwant c hc⟩
    slots := by
      rw [hnone, hfull]
      exact ⟨rfl, rfl, (List.append_nil _).symm⟩ }

/-- A turn that finds a slot free, and the turns that follow it. -/
theorem Work.admits.cons {u : Work} {d : Dest} (k : w.admits u d) (hfree : w.st.freeSlots ≠ []) (h : u.admissions v l) (hd : ∀ e ∈ l, d < e) :
    w.admissions v (d :: l) := by
  have hnot : d ∉ l := fun hmem => lt_irrefl d (hd d hmem)
  have hown := h.others d hnot
  obtain ⟨n, rest, hn, hoff, hmark, hcase⟩ := k.outcome.resolve_left fun hfull => hfree hfull.1
  have hothers : ∀ e, e ≠ d → u.st.record e = w.st.record e := k.acts.others
  exact {
    law := h.law
    sets := k.sets.trans h.sets
    pu := h.pu.trans k.acts.outside.pu
    others := fun e he => (h.others e fun hmem => he (List.mem_cons_of_mem _ hmem)).trans
      (hothers e fun hed => he (hed ▸ List.mem_cons_self))
    record := fun e => by
      by_cases hed : e = d
      · rw [hed, hown]
        exact k.record
      · rw [h.record e, hothers e hed]
    held := fun m hm => (h.held m (by rw [k.held m hm]; exact hm)).trans (k.held m hm)
    sorted := h.sorted ∘ k.acts.sorted
    marks := fun e => by
      rw [h.marks e, List.mem_cons]
      constructor
      · rintro (he | ⟨he, hf⟩)
        · obtain he | rfl := k.acts.only e he
          · exact .inl he
          · exact .inr ⟨.inl rfl, by rw [hown]; exact hoff⟩
        · exact .inr ⟨.inr he, hf⟩
      · rintro (he | ⟨rfl | he, hf⟩)
        · exact .inl (k.acts.mono e he)
        · exact .inl hmark
        · exact .inr ⟨he, hf⟩
    rest := fun e he hf hslot => by
      obtain rfl | he := List.mem_cons.1 he
      · rw [hown] at hslot ⊢
        obtain ⟨-, hrest, -⟩ | ⟨hsome, -⟩ := hcase
        · exact hrest
        · rw [hsome] at hslot
          cases hslot
      · exact h.rest e he hf hslot
    left := fun e he hwanted => by
      obtain rfl | htail := List.mem_cons.1 he
      · rw [hown, hoff] at hwanted
        cases hwanted
      · obtain ⟨hfull, hsame, hlater⟩ := h.left e htail hwanted
        refine ⟨hfull, hsame.trans (hothers e fun hed => hnot (hed ▸ htail)), fun c hc hlt => ?_⟩
        obtain rfl | hc := List.mem_cons.1 hc
        · exact absurd (hd e htail) (lt_asymm hlt)
        · exact hlater c hc hlt
    slots := by
      obtain ⟨hmap, hdrop, hlist⟩ := h.slots
      obtain ⟨hslot, -, hsame, hkept⟩ | ⟨hslot, hafter, hjoined⟩ := hcase
      · have htaken : v.st.taken (d :: l) = v.st.taken l := List.filter_cons_of_neg (by rw [hown, hslot]; exact nofun)
        rw [htaken, ← hsame, ← hkept]
        exact ⟨hmap, hdrop, hlist⟩
      · have htaken : v.st.taken (d :: l) = d :: v.st.taken l := List.filter_cons_of_pos (by rw [hown, hslot]; rfl)
        rw [htaken, hn, List.length_cons, List.take_succ_cons, List.drop_succ_cons, ← hafter, List.map_cons, hown, hslot, hmap,
          List.map_cons]
        refine ⟨rfl, hdrop, ?_⟩
        rw [hlist, hjoined, List.append_assoc]
        rfl }

theorem Work.foldl_admitWanted (l : List Dest) {w : Work} (h : w.st.innerLaw none) (hidle : w.st.pu.adoption = none)
    (hsorted : l.Pairwise (· < ·)) (hwant : ∀ d ∈ l, (w.st.record d).wanted = true) :
    w.admissions (l.foldl Work.admitWanted w) l := by
  induction l generalizing w with
  | nil => exact .refl h
  | cons d l ih =>
    obtain ⟨hd, htail⟩ := List.pairwise_cons.1 hsorted
    by_cases hfull : w.st.freeSlots = []
    · rw [Work.foldl_admitWanted_full hfull]
      exact .full h hfull hwant
    · have hfirst := Work.admitWanted_admits h hidle (hwant d List.mem_cons_self)
      refine hfirst.cons hfull (ih hfirst.law ?_ htail fun e he => ?_) hd
      · rw [hfirst.acts.outside.pu]
        exact hidle
      · rw [hfirst.acts.others e fun hed => lt_irrefl d (hd d (hed ▸ he))]
        exact hwant e (List.mem_cons_of_mem _ he)

/-- A destination that is not wanted has no turn. -/
theorem Work.admitWanted_idle {d : Dest} (h : (w.st.record d).wanted = false) : w.admitWanted d = w := by
  unfold Work.admitWanted
  rw [h, Bool.and_false, if_neg Bool.false_ne_true]

/-- The turns are those of the wanted destinations. -/
theorem Work.foldl_admitWanted_filter (l : List Dest) {w : Work} (h : w.st.innerLaw none) (hidle : w.st.pu.adoption = none)
    (hnodup : l.Nodup) : l.foldl Work.admitWanted w = (l.filter fun d => (w.st.record d).wanted).foldl Work.admitWanted w := by
  induction l generalizing w with
  | nil => rfl
  | cons d l ih =>
    obtain ⟨hd, htail⟩ := List.nodup_cons.1 hnodup
    cases hwant : (w.st.record d).wanted with
    | false =>
      rw [List.foldl_cons, Work.admitWanted_idle hwant, List.filter_cons_of_neg (by rw [hwant]; exact nofun)]
      exact ih h hidle htail
    | true =>
      have hfirst := Work.admitWanted_admits h hidle hwant
      have hidle' : (w.admitWanted d).st.pu.adoption = none := by rw [hfirst.acts.outside.pu]; exact hidle
      rw [List.foldl_cons, List.filter_cons_of_pos (p := fun d => (w.st.record d).wanted) hwant, List.foldl_cons, ih hfirst.law hidle' htail]
      congr 1
      refine List.filter_congr fun e he => ?_
      rw [hfirst.acts.others e fun hed => hd (hed ▸ he)]

end Admissions

end Sys2Proof.Machine

/-! O43. -/

namespace Sys2Proof.Machine

section Occasion
variable {s : State}

/-- The end of an occasion: no occasion is left due. -/
def Work.close (v : Work) : State := { v.finish none with re := { v.st.re with occasionDue := false } }

theorem Work.close_record (v : Work) (d : Dest) : v.close.record d = v.st.record d := rfl

/-- An occasion whose request leaves `v`. -/
theorem State.occasion_eq {v : Work} (h : Work.arbitrate (s.csa.queue.length + 1) s.begin = v) :
    s.occasion = v.close := by
  rw [← h]
  rfl

theorem State.requests.keepsTicks_occasion {v : Work} (h : s.requests v.st) :
    s.keepsTicks v.close := by
  unfold State.keepsTicks
  show ({ v.st.re with occasionDue := false } : RampEngine) = _
  conv_lhs => rw [h.re]
  rfl

theorem State.requests.outside_occasion {v : Work} (h : s.requests v.st) :
    s.keepsOutsideTable v.close := by
  have hout := h.outside
  exact ⟨hout.pending, hout.cbp, hout.masks, hout.lm, hout.xe, hout.tmp, hout.pu, hout.los, hout.mem, hout.freeCount⟩

theorem State.requests.dt_occasion {v : Work} (h : s.requests v.st) :
    (v.finish none).dt = { s.dt with
      records := v.st.dt.records, ports := v.st.dt.ports, updates := (v.finish none).dt.updates } := by
  show ({ v.st.dt with updates := (v.finish none).dt.updates } : DestTable) = _
  conv_lhs => rw [h.dt]

/-- The wanted destinations of a state, in ascending order. -/
def State.wantedDests (s : State) : List Dest := allDests.filter fun d => (s.record d).wanted

theorem State.mem_wantedDests {d : Dest} : d ∈ s.wantedDests ↔ (s.record d).wanted = true := by
  unfold State.wantedDests
  rw [List.mem_filter]
  exact and_iff_right (mem_allDests d)

theorem State.wantedDests_sorted (s : State) : s.wantedDests.Pairwise (· < ·) := allDests_sorted.filter _

/-- An occasion that finds the set queue empty admits the wanted destinations. -/
theorem Work.arbitrate_empty {w : Work} {fuel : Nat} (h : w.st.innerLaw none) (hidle : w.st.pu.adoption = none)
    (hqueue : w.st.csa.queue = []) :
    Work.arbitrate (fuel + 1) w = (w.st.wantedDests).foldl Work.admitWanted w := by
  unfold Work.arbitrate
  rw [hqueue]
  exact Work.foldl_admitWanted_filter allDests h hidle (List.nodup_finRange 432)

/-- The turns of the first wanted destinations, and the turn that follows them. -/
theorem Work.admissions_take {w : Work} {l : List Dest} (h : w.st.innerLaw none) (hidle : w.st.pu.adoption = none)
    (hsorted : l.Pairwise (· < ·)) (hwant : ∀ d ∈ l, (w.st.record d).wanted = true) (i : Nat) :
    w.admissions ((l.take i).foldl Work.admitWanted w) (l.take i) ∧ ∀ d, l[i]? = some d →
      ((l.take i).foldl Work.admitWanted w).st.admitsWanted ((l.take (i + 1)).foldl Work.admitWanted w).st d := by
  have hfirst := Work.foldl_admitWanted (l.take i) h hidle (hsorted.sublist (List.take_sublist i l)) fun d hd =>
    hwant d (List.mem_of_mem_take hd)
  refine ⟨hfirst, fun d hd => ?_⟩
  have hnot : d ∉ l.take i := fun hmem => by
    obtain ⟨hi, rfl⟩ := List.getElem?_eq_some_iff.1 hd
    obtain ⟨j, hj, he⟩ := List.mem_take_iff_getElem.1 hmem
    have hlt := List.pairwise_iff_getElem.1 hsorted j i (by omega) hi (by omega)
    rw [he] at hlt
    exact lt_irrefl _ hlt
  rw [List.take_succ, hd, Option.toList_some, List.foldl_append, List.foldl_cons, List.foldl_nil]
  refine (Work.admitWanted_admits hfirst.law (by rw [hfirst.pu]; exact hidle) ?_).turn
  rw [hfirst.others d hnot]
  exact hwant d (List.mem_of_getElem? hd)

theorem Work.foldl_admitWanted_reworks (l : List Dest) {w : Work} (h : s.reworks w.st) :
    s.reworks (l.foldl Work.admitWanted w).st := by
  induction l generalizing w with
  | nil => exact h
  | cons d l ih => exact ih (h.admitWanted d)

end Occasion

/-- Settles O43: an occasion with no set queued is the turns of the wanted destinations, in ascending order. -/
theorem wantedAdmittedInOrder : Obligations.WantedAdmittedInOrder := by
  unfold Obligations.WantedAdmittedInOrder
  intro s h hdue hidle hqueue
  have hwant : ∀ d ∈ s.wantedDests, (s.begin.st.record d).wanted = true := fun d => State.mem_wantedDests.1
  have harb : Work.arbitrate (s.csa.queue.length + 1) s.begin = s.wantedDests.foldl Work.admitWanted s.begin :=
    Work.arbitrate_empty h.inner hidle hqueue
  have hall := Work.foldl_admitWanted s.wantedDests (w := s.begin) h.inner hidle s.wantedDests_sorted hwant
  have hreq : s.requests (s.wantedDests.foldl Work.admitWanted s.begin).st := by
    rw [← harb]
    exact (State.requests.refl s).arbitrate (w := s.begin) _
  have hre := Work.foldl_admitWanted_reworks s.wantedDests (State.reworks.refl s) (w := s.begin)
  have htake := Work.admissions_take (w := s.begin) h.inner hidle s.wantedDests_sorted hwant
  have hrun : s.wantedDests.foldl Work.admitWanted s.begin =
      (s.wantedDests.take s.wantedDests.length).foldl Work.admitWanted s.begin := by rw [List.take_length]
  refine ⟨_, (exec_arbiterOccasion hdue hidle).trans (congrArg Host.Outcome.next (State.occasion_eq harb)), rfl, ?_⟩
  generalize hv : s.wantedDests.foldl Work.admitWanted s.begin = v at *
  have hoff : ∀ d, (s.record d).wanted = false → v.st.record d = s.record d := fun d hd =>
    hall.others d fun hmem => nomatch hd.symm.trans (hwant d hmem)
  have hfields : ∀ d, v.st.record d = { s.record d with
      curSrc := (v.st.record d).curSrc, wanted := (v.st.record d).wanted, slot := (v.st.record d).slot } := hall.record
  refine ⟨fun d hd => ?_, fun d hs ht => ⟨Work.finish_listed ((hall.marks d).2 (.inr ⟨State.mem_wantedDests.2 hs, ht⟩)),
    hall.rest d (State.mem_wantedDests.2 hs) ht⟩, hoff, fun d => ?_, ?_, ⟨fun i => ((s.wantedDests.take i).foldl Work.admitWanted s.begin).st,
      fun _ => rfl, rfl, fun i _ p d => ?_, fun i d => (htake i).2 d, fun d => ?_, ?_, ?_⟩, ?_, hreq.dt_occasion,
    ⟨hreq.keepsTicks_occasion, hall.held⟩, ?_, hreq.outside_occasion, ?_, hall.sets.2⟩
  · have hs : (s.record d).wanted = true := by
      by_contra hnot
      rw [Work.close_record, hoff d ((Bool.not_eq_true _).mp hnot)] at hd
      exact hnot hd
    obtain ⟨hfull, hsame, hlater⟩ := hall.left d (State.mem_wantedDests.2 hs) hd
    exact ⟨hs, hfull, hsame, fun e hlt he => hlater e (State.mem_wantedDests.2 he) hlt⟩
  · rw [Work.close_record, hfields d]
    exact ⟨rfl, rfl, rfl, rfl, rfl⟩
  · have htaken : (allDests.filter fun d => (s.record d).wanted && (v.st.record d).slot.isSome) = v.st.taken s.wantedDests := by
      unfold State.taken State.wantedDests
      rw [List.filter_filter]
      exact List.filter_congr fun d _ => Bool.and_comm _ _
    obtain ⟨hmap, -, hlist⟩ := hall.slots
    simp only [Work.close_record]
    rw [htaken]
    exact ⟨hmap, hlist⟩
  · have hstep := (htake i).1
    have hidle' : ((s.wantedDests.take i).foldl Work.admitWanted s.begin).st.pu.adoption = none := by
      rw [hstep.pu]
      exact hidle
    rw [hstep.law.core.holders (State.mapStands_of_idle hidle') p d]
    exact and_iff_right (State.isBuilt_of_idle hidle' d)
  · exact congrArg (fun u : Work => u.st.record d) hrun
  · exact congrArg (fun u : Work => u.st.re.slots) hrun
  · exact congrArg (fun u : Work => u.st.re.list) hrun
  · refine Work.finish_marksUpdates (by rw [hreq.dt]) (hall.sorted List.Pairwise.nil) fun e => ?_
    rw [hall.marks e, Bool.and_eq_true, Bool.not_eq_true', State.mem_wantedDests]
    exact or_iff_right List.not_mem_nil
  · exact ⟨_, hall.slots.2.2.symm⟩
  · show v.st.csa = s.csa
    calc v.st.csa = { s.csa with settling := v.st.csa.settling } := hre.sets
      _ = s.csa := by rw [hall.sets.1]; rfl

end Sys2Proof.Machine

/-! Slots given up and slots retargeted (R39, R44, R71). -/

namespace Sys2Proof.Machine

section Cells
variable {w v : Work} {d : Dest} {r : DestRecord} {q : Option RampSlot} {lift : Bool} {cut ended : Nat → Nat}

/-- What an operation that at most frees its destination's slot makes of the slots and of the ramp list. -/
theorem Work.makes.cells (k : w.makes v d r q lift cut ended) (h : w.st.coreLaw) :
    (∀ j : SlotNo, (w.st.record d).slot ≠ some j → v.st.re.slots[j] = w.st.re.slots[j]) ∧
      (∀ n : SlotNo, (w.st.record d).slot = some n → v.st.re.slots[n] = q) ∧
      v.st.re.list = w.st.re.list.filter fun n => (v.st.re.slots[n]).isSome := by
  have hnone : ∀ n : SlotNo, w.st.re.slots[n] = none → v.st.re.slots[n] = none := fun n hn => k.frees.slots_none h k.core hn
  have hsome : ∀ (n : SlotNo) sl, w.st.re.slots[n] = some sl → v.st.re.slots[n] = v.st.slotOf sl.dest :=
    fun n sl hs => k.frees.slots_some h k.core hs
  refine ⟨fun j hj => ?_, fun n hn => ?_, k.frees.list_eq h k.core⟩
  · cases hs : w.st.re.slots[j] with
    | none => exact hnone j hs
    | some x =>
      have hx : x.dest ≠ d := fun he => hj (he ▸ (h.slots j x hs).2)
      rw [hsome j x hs]
      exact (k.toacts.slotOf x.dest hx).trans (h.slotOf_of_slots hs)
  · obtain ⟨sl, hs, rfl⟩ := h.slotNames d n hn
    rw [hsome n sl hs, k.content]

/-- A list of the occupied slots less those that a change has freed. -/
theorem State.coreLaw.list_filter {s : State} (h : s.coreLaw) {p : SlotNo → Bool} :
    (∀ n : SlotNo, (s.re.slots[n]).isSome = true → p n = true) → s.re.list.filter p = s.re.list := fun hp =>
  List.filter_eq_self.2 fun n hn => hp n ((h.list.2 n).1 hn)

theorem State.coreLaw.list_erase {s : State} (h : s.coreLaw) {n : SlotNo} {p : SlotNo → Bool} (hn : p n = false)
    (hp : ∀ m : SlotNo, m ≠ n → (s.re.slots[m]).isSome = true → p m = true) : s.re.list.filter p = s.re.list.erase n := by
  rw [h.list.1.erase_eq_filter]
  refine List.filter_congr fun m hm => ?_
  by_cases hmn : m = n
  · rw [hmn, hn, bne_self_eq_false]
  · rw [hp m hmn ((h.list.2 m).1 hm), bne_iff_ne.2 hmn]

end Cells

/-! ### A line destination forced by the set that is applied (R39) -/

section Force
variable {w : Work} {d : Dest}

/-- The settling of a line entry that is forced. -/
def Work.settleForced (w : Work) (d : Dest) : Work :=
  let w1 := (w.cancelSlot d).clearWanted d
  w1.writeCurrent d (w1.st.record d).intentSrc dark

theorem Work.settleForced_makes (h : w.st.coreLaw) (hl : w.st.setsListed) (hbuilt : w.st.isBuilt d = true)
    (hfed : ∀ p, (w.st.record d).intentSrc ≠ .port p) :
    w.makes (w.settleForced d) d { w.st.record d with
      slot := none, wanted := false, curSrc := (w.st.record d).intentSrc, curAttn := dark } none false
      (endedOf (w.st.slotOf d) none) (fun _ => 0) ∧ d ∈ (w.settleForced d).marks := by
  have hcancel := Work.cancelSlot_makes h hl d
  have hclear := Work.setRecord_makes (d := d) (r := { (w.cancelSlot d).st.record d with wanted := false })
    hcancel.core (hcancel.listed hl) rfl rfl
  have hfirst := hcancel.before hclear
  have hwrite := Work.writeCurrent_makes (d := d) (src := (((w.cancelSlot d).clearWanted d).st.record d).intentSrc)
    hfirst.core (hfirst.listed hl) ((hfirst.isBuilt d).trans hbuilt)
    (State.otherHolder_of_not_port (by rw [Work.clearWanted, hfirst.record, hcancel.record]; exact hfed) _ _) dark
  refine ⟨(hfirst.before hwrite).as ?_ (hfirst.content.trans hcancel.content), Work.writeCurrent_marked _ _ _ _⟩
  rw [Work.clearWanted, hfirst.record, hcancel.record]

end Force

/-! ### A slot retargeted -/

/-- A slot just retargeted, before it is phase-evaluated. -/
def Work.retargeted (w : Work) (n : SlotNo) (sl : RampSlot) (serves : Nat) : Work :=
  let s1 := (w.st.releaseSet sl.serves true).setSlot n (some { sl with serves := some serves })
  { w with st := { s1 with re := { s1.re with list := s1.re.list.erase n ++ [n] } } }

section Retarget
variable {w : Work} {n : SlotNo} {sl : RampSlot} {id : Nat}

theorem Work.retargetSlot_eq (hs : w.st.re.slots[n] = some sl) (id : Nat) :
    w.retargetSlot n id = (w.retargeted n sl id).evaluate n := by
  unfold Work.retargetSlot
  rw [hs]
  rfl

theorem Work.retargeted_dt (w : Work) (n : SlotNo) (sl : RampSlot) (id : Nat) : (w.retargeted n sl id).st.dt = w.st.dt := by
  show (w.st.releaseSet sl.serves true).dt = w.st.dt
  rw [State.releaseSet_dt]

theorem Work.retargeted_slots (w : Work) (n : SlotNo) (sl : RampSlot) (id : Nat) (k : SlotNo) :
    (w.retargeted n sl id).st.re.slots[k] = if n = k then some { sl with serves := some id } else w.st.re.slots[k] := by
  refine (getElem_set_ite (w.st.releaseSet sl.serves true).re.slots n k _).trans ?_
  rw [State.releaseSet_re]

theorem Work.retargeted_list (w : Work) (n : SlotNo) (sl : RampSlot) (id : Nat) :
    (w.retargeted n sl id).st.re.list = w.st.re.list.erase n ++ [n] := by
  show (w.st.releaseSet sl.serves true).re.list.erase n ++ [n] = _
  rw [State.releaseSet_re]

theorem Work.retargeted_acts (h : w.st.coreLaw) (hs : w.st.re.slots[n] = some sl) :
    w.acts (w.retargeted n sl id) sl.dest := by
  have hdt := w.retargeted_dt n sl id
  have hrec : ∀ e, (w.retargeted n sl id).st.record e = w.st.record e := State.record_congr (by rw [hdt])
  have hpu : (w.retargeted n sl id).st.pu = w.st.pu := (w.st.releaseSet_keepsOutsideTable sl.serves true).pu
  have hstands : (w.retargeted n sl id).st.mapStands → w.st.mapStands := fun hm => by
    unfold State.mapStands at hm ⊢
    rwa [hpu] at hm
  have hmem : n ∈ w.st.re.list := (h.list.2 n).2 (by rw [hs]; rfl)
  exact {
    core := {
      slots := fun m x hx => by
        rw [Work.retargeted_slots] at hx
        rw [hrec]
        split at hx
        · next hm =>
          obtain rfl := Option.some.inj hx
          exact hm ▸ h.slots n sl hs
        · exact h.slots m x hx
      slotNames := fun e m hm => by
        rw [hrec] at hm
        rw [Work.retargeted_slots]
        obtain ⟨x, hx, hxe⟩ := h.slotNames e m hm
        split
        · next hnm =>
          rw [← hnm, hs] at hx
          exact ⟨_, rfl, by rw [← hxe, ← Option.some.inj hx]⟩
        · exact ⟨x, hx, hxe⟩
      list := by
        rw [Work.retargeted_list]
        have hnot : n ∉ w.st.re.list.erase n := fun hmem => (h.list.1.mem_erase_iff.1 hmem).1 rfl
        refine ⟨List.nodup_append.2 ⟨h.list.1.erase n, List.nodup_singleton n, fun a ha b hb he => ?_⟩, fun m => ?_⟩
        · rw [List.mem_singleton.1 hb] at he
          exact hnot (he ▸ ha)
        · rw [Work.retargeted_slots, List.mem_append, List.mem_singleton, h.list.1.mem_erase_iff]
          split
          · next hm => exact iff_of_true (.inr hm.symm) rfl
          · next hm =>
            rw [or_iff_left fun he => hm he.symm, and_iff_right fun he => hm he.symm]
            exact h.list.2 m
      holders := fun hm p e => by
        unfold State.isBuilt
        rw [hrec, hdt, hpu]
        exact h.holders (hstands hm) p e }
    outside := by
      have hout := w.st.releaseSet_keepsOutsideTable sl.serves true
      exact ⟨hout.pending, hout.cbp, hout.masks, hout.lm, hout.xe, hout.tmp, hout.pu, hout.los, hout.mem, hout.freeCount⟩
    others := fun e _ => hrec e
    slotOf := fun e he => State.slotOf_congr (by rw [hrec]) fun m hm => by
      rw [Work.retargeted_slots, if_neg]
      rintro rfl
      obtain ⟨x, hx, hxe⟩ := h.slotNames e n hm
      rw [hs] at hx
      exact he (hxe ▸ congrArg RampSlot.dest (Option.some.inj hx).symm)
    claims := fun p => by rw [hdt]
    sorted := fun hm => hm
    mono := fun _ he => he
    only := fun _ he => .inl he }

theorem Work.retargeted_counts (hl : w.st.setsListed) (n : SlotNo) (sl : RampSlot) (id : Nat) :
    w.st.counts (w.retargeted n sl id).st (oneOf sl.serves) fun _ => 0 := by
  obtain ⟨hsettling, hraises, hroom, hrecorded⟩ := State.releaseSet_counts hl sl.serves true
  exact ⟨hsettling, ⟨hraises.writer, hraises.queue, hraises.dropped⟩, hroom, hrecorded⟩

theorem State.unlisted.counts {s t : State} {serves : Option Nat} {cut ended : Nat → Nat} (h : s.unlisted serves)
    (k : s.counts t cut ended) : t.unlisted serves := fun id hid e he => by
  rw [k.settling] at he
  obtain ⟨x, hx, -, rfl⟩ := mem_settleOff.1 he
  exact h id hid x hx

theorem State.counts.thenKeeps {s t u : State} {cut ended : Nat → Nat} (h : s.counts t cut ended) (hl : s.setsListed)
    (k : t.keepsSets u) : s.counts u cut ended := by
  have hall := h.trans (State.counts_of_keepsSets (hl.counts h) k)
  simp only [Nat.add_zero] at hall
  exact hall

/-- What becomes of a destination whose slot a later set retargets (R39, R44, R71, R72). -/
theorem Work.retargetSlot_spec (h : w.st.coreLaw) (hl : w.st.setsListed) (hs : w.st.re.slots[n] = some sl)
    (hidle : w.st.pu.adoption = none) (hset : w.st.unlisted (some id))
    (hw : sl.phase = .portWait → (w.st.record sl.dest).curSrc = .none) :
    let sl' : RampSlot := { sl with serves := some id }
    let r := w.st.record sl.dest
    let left := r.phased sl.dest sl' (w.st.otherHolder sl.dest r.intentSrc).isSome
    let v := w.retargetSlot n id
    w.acts v sl.dest ∧ v.st.record sl.dest = left.1 ∧ v.st.slotOf sl.dest = left.2 ∧
      w.st.counts v.st (oneOf sl.serves) (fun _ => 0) ∧ w.st.evaluates v.st n sl' r (w.st.re.list.erase n ++ [n]) := by
  intro sl' r left v
  have hv : v = (w.retargeted n sl id).evaluate n := Work.retargetSlot_eq hs id
  have hacts := Work.retargeted_acts (id := id) h hs
  have hs' : (w.retargeted n sl id).st.re.slots[n] = some sl' := (w.retargeted_slots n sl id n).trans (if_pos rfl)
  have hdt := w.retargeted_dt n sl id
  have hrecord : (w.retargeted n sl id).st.record sl.dest = r := State.record_congr (by rw [hdt]) _
  have hidle' : (w.retargeted n sl id).st.pu.adoption = none := by rw [hacts.outside.pu]; exact hidle
  have heval := Work.evaluate_acts hacts.core hs' (State.isBuilt_of_idle hidle' sl'.dest)
  have hcounts := Work.retargeted_counts hl n sl id
  have hsets := Work.evaluate_keepsSets hs' (hset.counts hcounts)
  have hleaves := Work.evaluate_leavesSlot hs' (by rw [hrecord]; exact hw)
  have hholder : ∀ src, (w.retargeted n sl id).st.otherHolder sl.dest src = w.st.otherHolder sl.dest src := fun src =>
    State.otherHolder_congr (by rw [hdt]) _ _
  dsimp only at hleaves
  rw [show sl'.dest = sl.dest from rfl, hrecord, hholder, ← hv] at hleaves
  rw [← hv] at heval hsets
  refine ⟨hacts.trans heval, hleaves.record, ?_, hcounts.thenKeeps hl hsets, Prod.ext hleaves.record hleaves.slot, fun k hk => ?_, ?_⟩
  · have hslot' : (v.st.record sl.dest).slot = if left.2 = none then none else some n := by
      rw [hleaves.record, DestRecord.phased_slot, (h.slots n sl hs).2]
    by_cases hnone : left.2 = none
    · rw [if_pos hnone] at hslot'
      rw [State.slotOf_none hslot', hnone]
    · rw [if_neg hnone] at hslot'
      rw [State.slotOf_some hslot']
      exact hleaves.slot
  · rw [hleaves.slots k hk, Work.retargeted_slots, if_neg (Ne.symm hk)]
  · rw [hleaves.list, hleaves.slot, Work.retargeted_list]

end Retarget

end Sys2Proof.Machine

/-! One entry of the applied set settled (R39, R40). -/

namespace Sys2Proof.Machine

/-- What the laws say of a destination whose intent and forced flag an applied set has written, before it is settled. -/
structure State.intended (s : State) (d : Dest) : Prop where
  intent : legalSource d (s.record d).intentSrc
  current : legalSource d (s.record d).curSrc
  darkNone : (s.record d).curSrc = .none → (s.record d).curAttn = dark
  drop : isLine d = false → (s.record d).blocked = false ∧ (s.record d).wanted = false ∧ (s.record d).slot = none
  wanted : (s.record d).wanted = true → (s.record d).slot = none
  forcedFlag : (s.record d).forced = s.forcedFor (s.record d).intentSrc
  waits : ∀ sl, s.slotOf d = some sl → sl.phase = .portWait → (s.record d).curSrc = .none

/-- The record of a destination settled at once: at its effective target, without slot or wanted flag. -/
def DestRecord.direct (d : Dest) (r : DestRecord) : DestRecord :=
  { r with curSrc := r.intentSrc, curAttn := effectiveTarget d r, slot := none, wanted := false }

/-- What the settling of one entry of the set `id` leaves. -/
structure Work.settles (w v : Work) (id : Nat) (e : SetEntry) : Prop where
  acts : w.acts v e.dest
  turn : w.st.settlesEntry v.st id e
  counts : w.st.counts v.st (oneOf ((w.st.slotOf e.dest).bind RampSlot.serves)) fun _ => 0
  record : v.st.record e.dest = { w.st.record e.dest with
    curSrc := (v.st.record e.dest).curSrc, curAttn := (v.st.record e.dest).curAttn, slot := (v.st.record e.dest).slot
    wanted := false }
  lawful : (v.st.record e.dest).lawful e.dest (v.st.slotOf e.dest) (w.st.forcedFor (w.st.record e.dest).intentSrc) true false
  own : ∀ q, v.st.slotOf e.dest = some q → q.serves = some id
  rest : (v.st.record e.dest).slot = none → atRest e.dest (v.st.record e.dest) = true
  direct : isLine e.dest = false ∨ (w.st.record e.dest).forced = true →
    v.st.record e.dest = (w.st.record e.dest).direct e.dest
  free : w.st.freeSlots.length ≤ v.st.freeSlots.length +
    if isLine e.dest && (w.st.record e.dest).slot.isNone && !(w.st.record e.dest).forced &&
      !atRest e.dest (w.st.record e.dest) then 1 else 0

section Records
variable {s t : State} {d : Dest}

theorem DestRecord.atRest_direct (d : Dest) (r : DestRecord) : atRest d (r.direct d) = true := atRest_iff.2 ⟨rfl, rfl⟩

theorem State.intended.direct (h : s.intended d) :
    ((s.record d).direct d).lawful d none (s.forcedFor (s.record d).intentSrc) true false where
  intent := h.intent
  current := h.intent
  darkNone := fun hnone => if_pos (.inl hnone)
  drop := fun hd => ⟨(h.drop hd).1, rfl, rfl⟩
  slotless := fun _ => rfl
  rebuilt := fun _ _ => rfl
  wanted := nofun
  unbuilt := fun _ => rfl
  forcedFlag := h.forcedFlag
  forcedRest := fun hf => ⟨rfl, fun _ => ⟨rfl, if_pos (.inr (.inr hf))⟩⟩
  follows := nofun

/-- A record that is not forced is a sane one already. -/
theorem State.intended.sane (h : s.intended d) (hforced : (s.record d).forced = false) :
    (s.record d).sane d (s.forcedFor (s.record d).intentSrc) true false where
  intent := h.intent
  current := h.current
  darkNone := h.darkNone
  drop := h.drop
  slotless := nofun
  rebuilt := nofun
  wanted := fun hw => ⟨h.wanted hw, hforced⟩
  unbuilt := nofun
  forcedFlag := h.forcedFlag
  forcedRest := fun hf => absurd (hforced.symm.trans hf) nofun

theorem State.freeSlots_mono (h : ∀ k : SlotNo, s.re.slots[k] = none → t.re.slots[k] = none) :
    s.freeSlots.length ≤ t.freeSlots.length :=
  (List.subperm_of_subset (s.freeSlots_sorted.imp ne_of_lt) fun k hk =>
    State.mem_freeSlots.2 (h k (State.mem_freeSlots.1 hk))).length_le

/-- A forced destination is fed from a way. -/
theorem State.forced_not_port {src : Source} (h : s.forcedFor src = true) (p : Port) : src ≠ .port p := by
  rintro rfl
  cases h

end Records

section Settle
variable {w : Work} {id : Nat} {e : SetEntry}

/-- A write of a drop destination's current leaves the ramp engine alone. -/
theorem Work.writeCurrent_drop_re {d : Dest} (hline : isLine d = false) (src : Source) (attn : Attn) :
    (w.writeCurrent d src attn).st.re = w.st.re := by
  have hhold : ∀ (s : State) (o : Source), (s.clearHolder o).re = s.re := fun s o => by cases o <;> rfl
  have htake : ∀ (s : State), (s.takeHolder d src).re = s.re := fun s => by cases src <;> rfl
  rw [Work.writeCurrent]
  dsimp only [Work.mark_st]
  rw [htake, hhold, State.reportLoad, if_neg (by rw [hline]; exact nofun)]
  rfl

/-- An entry settled at once leaves its destination's slots free and its record direct. -/
theorem Work.makes.settles {v : Work} {lift : Bool} (h : w.st.intended e.dest) (hcore : w.st.coreLaw)
    (k : w.makes v e.dest ((w.st.record e.dest).direct e.dest) none lift
      (oneOf ((w.st.slotOf e.dest).bind RampSlot.serves)) fun _ => 0)
    (hturn : w.st.settlesEntry v.st id e) : w.settles v id e where
  acts := k.toacts
  turn := hturn
  counts := k.counts
  record := by
    conv_lhs => rw [k.record]
    rw [k.record]
    rfl
  lawful := by
    rw [k.record, k.content]
    exact h.direct
  own := fun q hq => by
    rw [k.content] at hq
    cases hq
  rest := fun _ => by
    rw [k.record]
    exact DestRecord.atRest_direct _ _
  direct := fun _ => k.record
  free := (State.freeSlots_mono fun j hj => k.frees.slots_none hcore k.core hj).trans (Nat.le_add_right _ _)

theorem Work.settleEntry_drop (h : w.st.intended e.dest) (hcore : w.st.coreLaw) (hl : w.st.setsListed)
    (hidle : w.st.pu.adoption = none) (hline : isLine e.dest = false) : w.settles (w.reevaluateDrop e.dest) id e := by
  obtain ⟨-, hwanted, hslot⟩ := h.drop hline
  have hport : ∀ p, (w.st.record e.dest).intentSrc ≠ .port p := fun p hp => by
    have hlegal := h.intent
    rw [hp] at hlegal
    exact nomatch hline.symm.trans hlegal
  have hmake := Work.reevaluateDrop_makes hcore hl (State.isBuilt_of_idle hidle e.dest) hport
  have hof := State.slotOf_none hslot
  have hdirect : ({ w.st.record e.dest with
      curSrc := (w.st.record e.dest).intentSrc, curAttn := effectiveTarget e.dest (w.st.record e.dest) } : DestRecord) =
      (w.st.record e.dest).direct e.dest := by
    unfold DestRecord.direct
    rw [← hwanted, ← hslot]
  have hre : (w.reevaluateDrop e.dest).st.re = w.st.re := by
    unfold Work.reevaluateDrop
    dsimp only
    split
    · rfl
    · exact Work.writeCurrent_drop_re hline _ _
  have hrecord := hmake.record
  have hnone : (fun _ => 0 : Nat → Nat) = oneOf ((w.st.slotOf e.dest).bind RampSlot.serves) := by
    funext x
    rw [hof]
    rfl
  rw [hof, hdirect, hnone] at hmake
  refine Work.makes.settles h hcore (by rw [hof] at hmake ⊢; exact hmake) ⟨hmake.others, fun _ => ⟨hrecord, hre⟩, fun hl => ?_, fun hl => ?_⟩
  · exact nomatch hline.symm.trans hl
  · exact nomatch hline.symm.trans hl

end Settle

end Sys2Proof.Machine

/-! The cases of a line entry (R39). -/

namespace Sys2Proof.Machine

theorem DestRecord.direct_of_rest {d : Dest} {r : DestRecord} (h : atRest d r = true) (hslot : r.slot = none) :
    ({ r with wanted := false } : DestRecord) = r.direct d := by
  obtain ⟨hsrc, hattn⟩ := atRest_iff.1 h
  unfold DestRecord.direct
  rw [DestRecord.mk.injEq]
  exact ⟨rfl, rfl, hsrc, hattn, rfl, rfl, rfl, rfl, hslot⟩

section Settle
variable {w : Work} {id : Nat} {e : SetEntry}

theorem Work.settleEntry_forced (h : w.st.intended e.dest) (hcore : w.st.coreLaw) (hl : w.st.setsListed)
    (hidle : w.st.pu.adoption = none) (hline : isLine e.dest = true) (hforced : (w.st.record e.dest).forced = true) :
    w.settles (w.settleForced e.dest) id e := by
  have hport := State.forced_not_port (s := w.st) (h.forcedFlag.symm.trans hforced)
  obtain ⟨hmake, -⟩ := Work.settleForced_makes hcore hl (State.isBuilt_of_idle hidle e.dest) hport
  have hdark : effectiveTarget e.dest (w.st.record e.dest) = dark := if_pos (.inr (.inr hforced))
  have hrecord := hmake.record
  obtain ⟨hothers, hown, hlist⟩ := hmake.cells hcore
  have hend : endedOf (w.st.slotOf e.dest) none = oneOf ((w.st.slotOf e.dest).bind RampSlot.serves) := funext fun x => if_pos rfl
  have hdirect : ({ w.st.record e.dest with
      slot := none, wanted := false, curSrc := (w.st.record e.dest).intentSrc, curAttn := dark } : DestRecord) =
      (w.st.record e.dest).direct e.dest := by
    unfold DestRecord.direct
    rw [hdark]
  have hcell : ∀ k : SlotNo, (w.settleForced e.dest).st.re.slots[k] =
      if (w.st.record e.dest).slot = some k then none else w.st.re.slots[k] := fun k => by
    split
    · next hk => exact hown k hk
    · next hk => exact hothers k hk
  rw [hdirect, hend] at hmake
  refine Work.makes.settles h hcore hmake ⟨hmake.others, ?_, ?_, ?_⟩
  · intro hd
    exact absurd (hline.symm.trans hd) nofun
  swap
  · intro _ hf
    exact absurd (hforced.symm.trans hf) nofun
  · intro _ _
    refine ⟨hrecord, hcell, ?_⟩
    rw [hlist]
    cases hslot : (w.st.record e.dest).slot with
    | none =>
      refine hcore.list_filter fun n hn => ?_
      rw [hcell n, hslot, if_neg nofun]
      exact hn
    | some n =>
      refine hcore.list_erase ?_ fun m hm hsome => ?_
      · rw [hcell n, if_pos hslot]
        rfl
      · rw [hcell m, hslot, if_neg fun he => hm (Option.some.inj he).symm]
        exact hsome

theorem Work.settleEntry_rest (h : w.st.intended e.dest) (hcore : w.st.coreLaw) (hl : w.st.setsListed)
    (hline : isLine e.dest = true) (hforced : (w.st.record e.dest).forced = false) (hslot : (w.st.record e.dest).slot = none)
    (hrest : atRest e.dest (w.st.record e.dest) = true) : w.settles (w.clearWanted e.dest) id e := by
  have hmake := Work.setRecord_makes (w := w) (d := e.dest) (r := { w.st.record e.dest with wanted := false }) hcore hl rfl rfl
  have hof := State.slotOf_none hslot
  have hrecord := hmake.record
  have hdirect := DestRecord.direct_of_rest hrest hslot
  have hnone : (fun _ => 0 : Nat → Nat) = oneOf ((w.st.slotOf e.dest).bind RampSlot.serves) := by
    funext x
    rw [hof]
    rfl
  have hwork : w.clearWanted e.dest = w.setRecord e.dest { w.st.record e.dest with wanted := false } := rfl
  have hmake' := hmake
  rw [← hwork, hdirect, hof, hnone] at hmake'
  refine Work.makes.settles h hcore (by rw [hof] at hmake' ⊢; exact hmake') ⟨hmake.others, ?_, ?_, ?_⟩
  · intro hd
    exact absurd (hline.symm.trans hd) nofun
  · intro _ hf
    exact absurd (hforced.symm.trans hf) nofun
  · intro _ _
    refine ⟨fun n sl hn => absurd (hslot.symm.trans hn) nofun, fun _ _ => ⟨hrecord, rfl⟩,
      fun _ hnot => absurd (hrest.symm.trans hnot) nofun⟩

theorem Work.settleEntry_moves {n : SlotNo} {rest : List SlotNo} (h : w.st.intended e.dest) (hcore : w.st.coreLaw)
    (hl : w.st.setsListed) (hidle : w.st.pu.adoption = none) (hset : w.st.unlisted (some id)) (hline : isLine e.dest = true)
    (hforced : (w.st.record e.dest).forced = false) (hslot : (w.st.record e.dest).slot = none)
    (hmoves : atRest e.dest (w.st.record e.dest) = false) (hfree : w.st.freeSlots = n :: rest) :
    w.settles (w.occupySlot n e.dest (some id)) id e := by
  obtain ⟨hn, hlowest⟩ := State.freeSlots_head hfree
  obtain ⟨hacts, hrecord, hcontent, hsets, -, heval⟩ := Work.occupySlot_spec hcore hn hline hslot hidle hset
  have hpair := heval.1
  have hcells := heval.2.1
  dsimp only at hrecord hcontent
  have hsane := (h.sane hforced).occupied hforced hline rfl n
  have hown := hsane.phased (sl := { dest := e.dest, phase := .dimming, goal := dark, serves := some id })
    (claimed := (w.st.otherHolder e.dest (w.st.record e.dest).intentSrc).isSome) nofun State.claimed_iff
  have hphased := DestRecord.phased_evaluated e.dest { w.st.record e.dest with slot := some n, wanted := false }
    { dest := e.dest, phase := .dimming, goal := dark, serves := some id }
    (w.st.otherHolder e.dest (w.st.record e.dest).intentSrc).isSome
  have hkept := fun q => DestRecord.phased_kept (d := e.dest) (r := { w.st.record e.dest with slot := some n, wanted := false })
    (sl := { dest := e.dest, phase := .dimming, goal := dark, serves := some id }) (q := q)
    (claimed := (w.st.otherHolder e.dest (w.st.record e.dest).intentSrc).isSome)
  rw [← hcontent] at hkept
  rw [← hrecord, ← hcontent] at hown hphased
  have hof := State.slotOf_none hslot
  have hslots := hphased.slot
  have hchange := State.freeSlots_change (t := (w.occupySlot n e.dest (some id)).st) hfree hcells
  exact {
    acts := hacts
    turn := by
      refine ⟨hacts.others, ?_, ?_, ?_⟩
      · intro hd
        exact absurd (hline.symm.trans hd) nofun
      · intro _ hf
        exact absurd (hforced.symm.trans hf) nofun
      · intro _ _
        exact ⟨fun m sl hm => absurd (hslot.symm.trans hm) nofun, fun _ hrest => absurd (hmoves.symm.trans hrest) nofun,
          fun _ _ => ⟨n, hn, hlowest, heval⟩⟩
    counts := by
      have hnone : oneOf ((w.st.slotOf e.dest).bind RampSlot.serves) = fun _ => 0 := by
        funext x
        rw [hof]
        rfl
      rw [hnone]
      exact State.counts_of_keepsSets hl hsets
    record := by
      conv_lhs => rw [hphased.record]
      rw [hphased.record]
    lawful := hown
    own := fun q hq => (hkept q hq).1
    rest := fun hnone => hphased.rest (by
      by_contra hsome
      rw [hslots, if_neg hsome] at hnone
      cases hnone)
    direct := fun hor => by
      obtain hd | hf := hor
      · exact absurd (hline.symm.trans hd) nofun
      · exact absurd (hforced.symm.trans hf) nofun
    free := by
      rw [hline, hslot, hforced, hmoves, hchange]
      split
      · exact Nat.le_add_right _ _
      · rw [hfree]
        exact le_refl _ }

theorem Work.settleEntry_retargets {n : SlotNo} {sl : RampSlot} (h : w.st.intended e.dest) (hcore : w.st.coreLaw)
    (hl : w.st.setsListed) (hidle : w.st.pu.adoption = none) (hset : w.st.unlisted (some id))
    (hforced : (w.st.record e.dest).forced = false) (hs : w.st.re.slots[n] = some sl) (hd : sl.dest = e.dest) :
    w.settles (w.retargetSlot n id) id e := by
  obtain ⟨d, src, attn, word⟩ := e
  obtain rfl : sl.dest = d := hd
  have hslot := (hcore.slots n sl hs).2
  have hline := (hcore.slots n sl hs).1
  have hof := hcore.slotOf_of_slots hs
  obtain ⟨hacts, hrecord, hcontent, hcounts, heval⟩ :=
    Work.retargetSlot_spec hcore hl hs hidle hset (h.waits sl hof)
  have hcells := heval.2.1
  have hown := (h.sane hforced).phased (sl := { sl with serves := some id })
    (claimed := (w.st.otherHolder sl.dest (w.st.record sl.dest).intentSrc).isSome) (by rw [hslot]; exact nofun) State.claimed_iff
  have hphased := DestRecord.phased_evaluated sl.dest (w.st.record sl.dest) { sl with serves := some id }
    (w.st.otherHolder sl.dest (w.st.record sl.dest).intentSrc).isSome
  have hkept := fun q => DestRecord.phased_kept (d := sl.dest) (r := w.st.record sl.dest) (sl := { sl with serves := some id }) (q := q)
    (claimed := (w.st.otherHolder sl.dest (w.st.record sl.dest).intentSrc).isSome)
  rw [← hcontent] at hkept
  rw [← hrecord, ← hcontent] at hown hphased
  have hslots := hphased.slot
  have hwanted : (w.st.record sl.dest).wanted = false := ((h.sane hforced).slotted (by rw [hslot]; exact nofun)).2.1
  rw [hslot] at hslots
  exact {
    acts := hacts
    turn := by
      refine ⟨hacts.others, ?_, ?_, ?_⟩
      · intro hd'
        exact absurd (hline.symm.trans hd') nofun
      · intro _ hf
        exact absurd (hforced.symm.trans hf) nofun
      · intro _ _
        refine ⟨fun m x hm hx => ?_, fun hnone => absurd (hslot.symm.trans hnone) nofun,
          fun hnone => absurd (hslot.symm.trans hnone) nofun⟩
        obtain rfl := Option.some.inj (hslot.symm.trans hm)
        obtain rfl := Option.some.inj (hs.symm.trans hx)
        exact heval
    counts := by
      rw [hof]
      exact hcounts
    record := by
      conv_lhs => rw [hphased.record]
      rw [hphased.record, ← hwanted]
    lawful := hown
    own := fun q hq => (hkept q hq).1
    rest := fun hnone => hphased.rest (by
      by_contra hsome
      rw [hslots, if_neg hsome] at hnone
      cases hnone)
    direct := fun hor => by
      obtain hd' | hf := hor
      · exact absurd (hline.symm.trans hd') nofun
      · exact absurd (hforced.symm.trans hf) nofun
    free := by
      refine (State.freeSlots_mono fun j hj => ?_).trans (Nat.le_add_right _ _)
      rw [hcells j fun hjn => by rw [hjn, hs] at hj; cases hj]
      exact hj }

/-- An entry needs a free slot (R39). -/
def State.needsFree (s : State) (d : Dest) : Bool :=
  isLine d && (s.record d).slot.isNone && !(s.record d).forced && !atRest d (s.record d)

/-- One entry settled, in whichever way. -/
theorem Work.settleEntry_settles (h : w.st.intended e.dest) (hcore : w.st.coreLaw) (hl : w.st.setsListed)
    (hidle : w.st.pu.adoption = none) (hset : w.st.unlisted (some id))
    (hfree : w.st.needsFree e.dest = true → w.st.freeSlots ≠ []) : w.settles (Work.settleEntry id w e) id e := by
  unfold Work.settleEntry
  split
  · next hline =>
    unfold Work.settleLine
    split
    · next hforced => exact Work.settleEntry_forced h hcore hl hidle hline hforced
    · next hnot =>
      have hforced := (Bool.not_eq_true _).mp hnot
      split
      · next n hslot =>
        obtain ⟨sl, hs, hd⟩ := hcore.slotNames e.dest n hslot
        exact Work.settleEntry_retargets h hcore hl hidle hset hforced hs hd
      · next hslot =>
        split
        · next hrest => exact Work.settleEntry_rest h hcore hl hline hforced hslot hrest
        · next hmoves =>
          have hmoves' := (Bool.not_eq_true _).mp hmoves
          split
          · next n rest hfree' =>
            exact Work.settleEntry_moves h hcore hl hidle hset hline hforced hslot hmoves' hfree'
          · next hnone =>
            refine absurd hnone (hfree ?_)
            unfold State.needsFree
            rw [hline, hslot, hforced, hmoves']
            rfl
  · next hdrop => exact Work.settleEntry_drop h hcore hl hidle ((Bool.not_eq_true _).mp hdrop)

end Settle

end Sys2Proof.Machine

/-! The intents of an applied set written (R38, R49). -/

namespace Sys2Proof.Machine

section Intent
variable {w v : Work} {d : Dest} {src : Source} {attn : Attn}

/-- The claimant of a port after a write of an intent (R49). -/
def claimantAfter (old : Option Dest) (former src : Source) (d : Dest) (p : Port) : Option Dest :=
  if src = .port p then some d else if former = .port p ∧ old = some d then none else old

theorem State.clearClaimant_port (s : State) (d : Dest) (former : Source) : ∃ ports, s.clearClaimant d former =
    { s with dt := { s.dt with ports := ports } } ∧ ∀ p : Port, ports[p].holder = s.dt.ports[p].holder ∧
      ports[p].claimant = if former = .port p ∧ s.dt.ports[p].claimant = some d then none else s.dt.ports[p].claimant := by
  cases former with
  | port q =>
    show ∃ ports, (if s.dt.ports[q].claimant = some d then s.setPort q { s.dt.ports[q] with claimant := none } else s) = _ ∧ _
    split
    · next hq =>
      refine ⟨_, rfl, fun p => ?_⟩
      rw [getElem_set_ite]
      by_cases hp : q = p
      · subst hp
        rw [if_pos rfl, if_pos ⟨rfl, hq⟩]
        exact ⟨rfl, rfl⟩
      · rw [if_neg hp, if_neg fun h => hp (Source.port.inj h.1)]
        exact ⟨rfl, rfl⟩
    · next hq =>
      refine ⟨s.dt.ports, rfl, fun p => ⟨rfl, (if_neg fun h => hq ?_).symm⟩⟩
      rw [Source.port.inj h.1]
      exact h.2
  | none => exact ⟨s.dt.ports, rfl, fun p => ⟨rfl, (if_neg fun h => nomatch h.1).symm⟩⟩
  | express k => exact ⟨s.dt.ports, rfl, fun p => ⟨rfl, (if_neg fun h => nomatch h.1).symm⟩⟩
  | drop a b => exact ⟨s.dt.ports, rfl, fun p => ⟨rfl, (if_neg fun h => nomatch h.1).symm⟩⟩

theorem State.takeClaimant_port (s : State) (d : Dest) (src : Source) : ∃ ports, s.takeClaimant d src =
    { s with dt := { s.dt with ports := ports } } ∧ ∀ p : Port, ports[p].holder = s.dt.ports[p].holder ∧
      ports[p].claimant = if src = .port p then some d else s.dt.ports[p].claimant := by
  cases src with
  | port q =>
    refine ⟨_, rfl, fun p => ?_⟩
    rw [getElem_set_ite]
    by_cases hp : q = p
    · subst hp
      rw [if_pos rfl, if_pos rfl]
      exact ⟨rfl, rfl⟩
    · rw [if_neg hp, if_neg fun h => hp (Source.port.inj h)]
      exact ⟨rfl, rfl⟩
  | none => exact ⟨s.dt.ports, rfl, fun p => ⟨rfl, (if_neg nofun).symm⟩⟩
  | express k => exact ⟨s.dt.ports, rfl, fun p => ⟨rfl, (if_neg nofun).symm⟩⟩
  | drop a b => exact ⟨s.dt.ports, rfl, fun p => ⟨rfl, (if_neg nofun).symm⟩⟩

/-- A write of an intent changes its destination's record and the claimants (R49). -/
theorem Work.writeIntent_spec (w : Work) (d : Dest) (src : Source) (attn : Attn) : ∃ ports, w.writeIntent d src attn =
    { w with st := { w.st.setRecord d { w.st.record d with intentSrc := src, intentAttn := attn } with
      dt := { (w.st.setRecord d { w.st.record d with intentSrc := src, intentAttn := attn }).dt with ports := ports } } } ∧
    ∀ p : Port, ports[p].holder = w.st.dt.ports[p].holder ∧
      ports[p].claimant = claimantAfter w.st.dt.ports[p].claimant (w.st.record d).intentSrc src d p := by
  obtain ⟨ports, hclear, hports⟩ := State.clearClaimant_port
    (w.st.setRecord d { w.st.record d with intentSrc := src, intentAttn := attn }) d (w.st.record d).intentSrc
  obtain ⟨ports', htake, hports'⟩ := State.takeClaimant_port
    ((w.st.setRecord d { w.st.record d with intentSrc := src, intentAttn := attn }).clearClaimant d (w.st.record d).intentSrc) d src
  refine ⟨ports', ?_, fun p => ⟨?_, ?_⟩⟩
  · rw [Work.writeIntent]
    dsimp only
    rw [htake, hclear]
  · rw [(hports' p).1, hclear]
    exact (hports p).1
  · rw [(hports' p).2, hclear, claimantAfter]
    dsimp only
    rw [(hports p).2]
    rfl

/-- The record that an entry of an applied set leaves its destination, before it is settled (R38). -/
def State.intendedFor (s : State) (e : SetEntry) : DestRecord :=
  { s.record e.dest with
    intentSrc := e.src, intentAttn := e.attn, forced := s.forcedFor e.src, queued := (s.record e.dest).queued - 1 }

/-- What the intents of the entries `es` leave, written in order. -/
structure Work.intends (w v : Work) (es : List SetEntry) : Prop where
  record : ∀ e ∈ es, v.st.record e.dest = w.st.intendedFor e
  others : ∀ d, d ∉ entryDests es → v.st.record d = w.st.record d
  holders : ∀ p : Port, v.st.dt.ports[p].holder = w.st.dt.ports[p].holder
  frame : v.st = { w.st with dt := { w.st.dt with records := v.st.dt.records, ports := v.st.dt.ports } }
  sorted : w.marks.Pairwise (· < ·) → v.marks.Pairwise (· < ·)
  marks : ∀ d, d ∈ v.marks ↔ d ∈ w.marks ∨ d ∈ entryDests es

theorem Work.applyIntent_spec (w : Work) (e : SetEntry) : w.intends (w.applyIntent e) [e] ∧
    ∀ p : Port, (w.applyIntent e).st.dt.ports[p].claimant =
      claimantAfter w.st.dt.ports[p].claimant (w.st.record e.dest).intentSrc e.src e.dest p := by
  obtain ⟨ports, hwrite, hports⟩ := w.writeIntent_spec e.dest e.src e.attn
  have hown : (w.applyIntent e).st.record e.dest = w.st.intendedFor e := by
    have hrec : (w.writeIntent e.dest e.src e.attn).st.record e.dest =
        { w.st.record e.dest with intentSrc := e.src, intentAttn := e.attn } := by
      rw [hwrite]
      exact State.record_setRecord_same _ _ _
    have hqueued : ((w.writeIntent e.dest e.src e.attn).changeQueued e.dest (· - 1)).st.record e.dest =
        { (w.writeIntent e.dest e.src e.attn).st.record e.dest with
          queued := ((w.writeIntent e.dest e.src e.attn).st.record e.dest).queued - 1 } := State.record_setRecord_same _ _ _
    have hforced : ((w.writeIntent e.dest e.src e.attn).changeQueued e.dest (· - 1)).st.forcedFor e.src =
        w.st.forcedFor e.src := by
      rw [hwrite]
      rfl
    refine (State.record_setRecord_same _ _ _).trans ?_
    rw [hforced, hqueued, hrec]
    rfl
  have hothers : ∀ d, d ≠ e.dest → (w.applyIntent e).st.record d = w.st.record d := fun d hd => by
    refine (State.record_setRecord_other _ _ hd).trans ((State.record_setRecord_other _ _ hd).trans ?_)
    rw [hwrite]
    exact State.record_setRecord_other _ _ hd
  have hstep : ∃ records, w.applyIntent e = { w with
      st := { w.st with dt := { w.st.dt with records := records, ports := ports } }, marks := insertDest e.dest w.marks } := by
    rw [Work.applyIntent, hwrite]
    exact ⟨_, rfl⟩
  obtain ⟨records, hstep⟩ := hstep
  refine ⟨⟨fun x hx => ?_, fun d hd => hothers d fun he => hd (he ▸ List.mem_singleton.2 rfl), fun p => ?_, ?_, fun hs => ?_,
    fun d => ?_⟩, fun p => ?_⟩
  · rw [List.mem_singleton.1 hx]
    exact hown
  · rw [hstep]
    exact (hports p).1
  · rw [hstep]
  · rw [hstep]
    exact (insertDest_spec e.dest w.marks hs).1
  · rw [hstep]
    show d ∈ insertDest e.dest w.marks ↔ d ∈ w.marks ∨ d ∈ [e.dest]
    rw [mem_insertDest, List.mem_singleton, or_comm]
  · rw [hstep]
    exact (hports p).2

theorem Work.intends.refl (w : Work) : w.intends w [] where
  record := fun _ he => absurd he List.not_mem_nil
  others := fun _ _ => rfl
  holders := fun _ => rfl
  frame := rfl
  sorted := id
  marks := fun _ => (or_iff_left List.not_mem_nil).symm

theorem Work.intends.cons {u : Work} {e : SetEntry} {es : List SetEntry} (h : w.intends u [e]) (k : u.intends v es)
    (hnot : e.dest ∉ entryDests es) : w.intends v (e :: es) where
  record := fun x hx => by
    obtain rfl | hx := List.mem_cons.1 hx
    · rw [k.others _ hnot]
      exact h.record x (List.mem_singleton.2 rfl)
    · have hne : x.dest ∉ entryDests [e] := fun hd => hnot (List.mem_singleton.1 hd ▸ List.mem_map_of_mem hx)
      have hforced : u.st.forcedFor x.src = w.st.forcedFor x.src := by rw [h.frame]; rfl
      rw [k.record x hx, State.intendedFor, State.intendedFor, h.others _ hne, hforced]
  others := fun d hd => (k.others d fun hm => hd (List.mem_cons_of_mem _ hm)).trans
    (h.others d fun hm => hd (List.mem_singleton.1 hm ▸ List.mem_cons_self))
  holders := fun p => (k.holders p).trans (h.holders p)
  frame := by
    conv_lhs => rw [k.frame, h.frame]
  sorted := k.sorted ∘ h.sorted
  marks := fun d => by
    rw [k.marks, h.marks]
    show (_ ∨ d ∈ [e.dest]) ∨ _ ↔ _ ∨ d ∈ e.dest :: entryDests es
    rw [List.mem_singleton, List.mem_cons, or_assoc]

theorem Work.foldl_applyIntent (es : List SetEntry) (w : Work) (hnodup : (entryDests es).Nodup) :
    w.intends (es.foldl Work.applyIntent w) es := by
  induction es generalizing w with
  | nil => exact .refl w
  | cons e es ih =>
    obtain ⟨hnot, htail⟩ := List.nodup_cons.1 hnodup
    exact (w.applyIntent_spec e).1.cons (ih _ htail) hnot

end Intent

/-! ### The claimants (R49) -/

section Claim
variable {w : Work}

/-- The claimants while intents are being written: a claimant has the port as its intent source, and a destination without its
claim is one of those still to come. -/
def State.claimsBut (s : State) (later : List Dest) : Prop := ∀ (p : Port) (d : Dest),
  (s.dt.ports[p].claimant = some d → (s.record d).intentSrc = .port p) ∧
    ((s.record d).intentSrc = .port p → s.dt.ports[p].claimant = some d ∨ d ∈ later)

/-- No destination that has the port of a coming entry as its intent source stays without being written itself. -/
def State.portsFree (s : State) (later : List SetEntry) : Prop := ∀ e ∈ later, ∀ p, e.src = .port p → ∀ d,
  (s.record d).intentSrc = .port p → d ∈ entryDests later

theorem Work.applyIntent_claimsBut {e : SetEntry} {later : List SetEntry} (h : w.st.claimsBut (e.dest :: entryDests later))
    (hfree : w.st.portsFree (e :: later)) : (w.applyIntent e).st.claimsBut (entryDests later) := by
  obtain ⟨hspec, hclaims⟩ := w.applyIntent_spec e
  have hown := hspec.record e (List.mem_singleton.2 rfl)
  have hothers : ∀ d, d ≠ e.dest → (w.applyIntent e).st.record d = w.st.record d := fun d hd =>
    hspec.others d fun hm => hd (List.mem_singleton.1 hm)
  intro p d
  rw [hclaims p, claimantAfter]
  by_cases hd : d = e.dest
  · rw [hd, hown]
    show (_ → e.src = .port p) ∧ (e.src = .port p → _)
    split
    · next hsrc => exact ⟨fun _ => hsrc, fun _ => .inl rfl⟩
    · next hsrc =>
      refine ⟨fun hc => ?_, fun hs => absurd hs hsrc⟩
      split at hc
      · cases hc
      · next hnot => exact absurd ⟨(h p e.dest).1 hc, hc⟩ hnot
  · rw [hothers d hd]
    split
    · next hsrc =>
      refine ⟨fun hc => absurd (Option.some.inj hc).symm hd, fun hi => .inr ?_⟩
      obtain hx | hx := List.mem_cons.1 (hfree e List.mem_cons_self p hsrc d hi)
      · exact absurd hx hd
      · exact hx
    · refine ⟨fun hc => ?_, fun hi => ?_⟩
      · split at hc
        · cases hc
        · exact (h p d).1 hc
      · obtain hc | hx := (h p d).2 hi
        · rw [if_neg fun hand => hd (Option.some.inj (hc.symm.trans hand.2))]
          exact .inl hc
        · obtain hx | hx := List.mem_cons.1 hx
          · exact absurd hx hd
          · exact .inr hx

end Claim

end Sys2Proof.Machine

/-! The settling of an applied set's entries (R39 to R42). -/

namespace Sys2Proof.Machine

/-- The laws while the entries of the applied set `id` are being settled, `later` being those still to come. -/
structure State.midLaw (s : State) (id : Nat) (later : List SetEntry) : Prop where
  core : s.coreLaw
  claims : s.claimLaw
  serves : s.servesLaw (some id)
  fresh : s.unlisted (some id)
  issued : id < s.csa.nextSet
  idle : s.pu.adoption = none
  dests : ∀ d, d ∉ entryDests later → s.destLaw d
  intended : ∀ e ∈ later, s.intended e.dest
  room : (later.filter fun e => s.needsFree e.dest).length ≤ s.freeSlots.length

section Mid
variable {s t : State} {w v : Work} {id : Nat} {e : SetEntry} {later : List SetEntry}

theorem State.midLaw.listed (h : s.midLaw id later) : s.setsListed := h.serves.setsListed

theorem State.intended.congr {d : Dest} (h : s.intended d) (hrecord : t.record d = s.record d) (hslot : t.slotOf d = s.slotOf d)
    (hiso : t.dt.isolated = s.dt.isolated) : t.intended d := by
  have hforced : ∀ src, t.forcedFor src = s.forcedFor src := fun src => by unfold State.forcedFor; rw [hiso]
  refine ⟨?_, ?_, ?_, ?_, ?_, ?_, ?_⟩
  · rw [hrecord]; exact h.intent
  · rw [hrecord]; exact h.current
  · rw [hrecord]; exact h.darkNone
  · rw [hrecord]; exact h.drop
  · rw [hrecord]; exact h.wanted
  · rw [hrecord, hforced]; exact h.forcedFlag
  · rw [hslot, hrecord]; exact h.waits

/-- An entry settled, with the laws of those still to come. -/
theorem Work.settleEntry_mid (h : w.st.midLaw id (e :: later)) (hnot : e.dest ∉ entryDests later) :
    w.settles (Work.settleEntry id w e) id e ∧ (Work.settleEntry id w e).st.midLaw id later := by
  have hsettles : w.settles (Work.settleEntry id w e) id e :=
    Work.settleEntry_settles (h.intended e List.mem_cons_self) h.core h.listed h.idle h.fresh fun hneeds hnone => by
      have hroom := h.room
      rw [hnone, List.filter_cons_of_pos (by exact hneeds)] at hroom
      cases hroom
  have hre : w.st.reworks (Work.settleEntry id w e).st := (State.reworks.refl w.st).settleEntry id e
  have hiso : (Work.settleEntry id w e).st.dt.isolated = w.st.dt.isolated := by rw [hre.dt]
  have hnext : (Work.settleEntry id w e).st.csa.nextSet = w.st.csa.nextSet := by rw [hre.sets]
  refine ⟨hsettles, ?_⟩
  generalize Work.settleEntry id w e = v at *
  have hacts := hsettles.acts
  exact {
    core := hacts.core
    claims := hacts.claimLaw h.claims (by rw [hsettles.record])
    serves := by
      refine hacts.servesLaw h.core h.serves hsettles.counts (le_of_eq hnext.symm)
        (fun x hx he => h.fresh x.id he x hx rfl) fun x hx => ?_
      have hnone : v.st.servesOf e.dest x = 0 := by
        unfold State.servesOf oneOf
        refine if_neg fun hserve => ?_
        obtain ⟨q, hq, hqs⟩ := Option.bind_eq_some_iff.1 hserve
        rw [hsettles.own q hq] at hqs
        exact hx hqs
      rw [hnone, Nat.zero_add]
      rfl
    fresh := h.fresh.counts hsettles.counts
    issued := by rw [hnext]; exact h.issued
    idle := by rw [hacts.outside.pu]; exact h.idle
    dests := fun d hd => by
      by_cases hde : d = e.dest
      · rw [hde]
        refine hacts.ownLaw hiso ?_
        rw [State.isBuilt_of_idle h.idle, h.idle]
        rw [show (v.st.record e.dest).intentSrc = (w.st.record e.dest).intentSrc by rw [hsettles.record]]
        exact hsettles.lawful
      · exact (h.dests d fun hm => (List.mem_cons.1 hm).elim hde hd).congr (hacts.others d hde) (hacts.slotOf d hde) hiso
          hacts.outside.pu
    intended := fun x hx => by
      have hne : x.dest ≠ e.dest := fun hd => hnot (hd ▸ List.mem_map_of_mem hx)
      exact (h.intended x (List.mem_cons_of_mem _ hx)).congr (hacts.others _ hne) (hacts.slotOf _ hne) hiso
    room := by
      have hroom := h.room
      have hsame : (later.filter fun x => v.st.needsFree x.dest) = later.filter fun x => w.st.needsFree x.dest :=
        List.filter_congr fun x hx => by
          unfold State.needsFree
          rw [hacts.others x.dest fun hd => hnot (hd ▸ List.mem_map_of_mem hx)]
      have hfree := hsettles.free
      rw [hsame]
      rw [List.filter_cons] at hroom
      change w.st.freeSlots.length ≤ v.st.freeSlots.length + (if w.st.needsFree e.dest = true then 1 else 0) at hfree
      split at hroom
      · next hneeds =>
        rw [if_pos hneeds] at hfree
        rw [List.length_cons] at hroom
        omega
      · next hneeds =>
        rw [if_neg hneeds] at hfree
        omega }

/-- What the settling of the entries `es`, in order, leaves. -/
structure Work.settlesAll (w v : Work) (id : Nat) (es : List SetEntry) : Prop where
  mid : v.st.midLaw id []
  others : ∀ d, d ∉ entryDests es → v.st.record d = w.st.record d ∧ v.st.slotOf d = w.st.slotOf d
  entry : ∀ e ∈ es, v.st.record e.dest = { w.st.record e.dest with
      curSrc := (v.st.record e.dest).curSrc, curAttn := (v.st.record e.dest).curAttn, slot := (v.st.record e.dest).slot
      wanted := false } ∧
    (∀ q, v.st.slotOf e.dest = some q → q.serves = some id) ∧
    ((v.st.record e.dest).slot = none → atRest e.dest (v.st.record e.dest) = true) ∧
    (isLine e.dest = false ∨ (w.st.record e.dest).forced = true → v.st.record e.dest = (w.st.record e.dest).direct e.dest)
  counts : w.st.counts v.st (fun x => (es.map fun e => w.st.servesOf e.dest x).sum) fun _ => 0
  claims : ∀ p : Port, v.st.dt.ports[p].claimant = w.st.dt.ports[p].claimant
  sorted : w.marks.Pairwise (· < ·) → v.marks.Pairwise (· < ·)
  mono : ∀ d ∈ w.marks, d ∈ v.marks
  only : ∀ d ∈ v.marks, d ∈ w.marks ∨ d ∈ entryDests es

theorem Work.settlesAll.refl (h : w.st.midLaw id []) : w.settlesAll w id [] where
  mid := h
  others := fun _ _ => ⟨rfl, rfl⟩
  entry := fun _ he => absurd he List.not_mem_nil
  counts := State.counts_of_keepsSets h.listed ⟨rfl, rfl⟩
  claims := fun _ => rfl
  sorted := fun hs => hs
  mono := fun _ hd => hd
  only := fun _ => .inl

theorem Work.foldl_settleEntry (es : List SetEntry) {w : Work} (h : w.st.midLaw id es) (hnodup : (entryDests es).Nodup) :
    w.settlesAll (es.foldl (Work.settleEntry id) w) id es := by
  induction es generalizing w with
  | nil => exact .refl h
  | cons e es ih =>
    obtain ⟨hnot, htail⟩ := List.nodup_cons.1 hnodup
    obtain ⟨hfirst, hmid⟩ := Work.settleEntry_mid h hnot
    have hrest := ih hmid htail
    rw [List.foldl_cons]
    generalize Work.settleEntry id w e = u at *
    generalize es.foldl (Work.settleEntry id) u = v at *
    obtain ⟨hown, hownSlot⟩ := hrest.others e.dest hnot
    have hne : ∀ x ∈ es, x.dest ≠ e.dest := fun x hx hd => hnot (hd ▸ List.mem_map_of_mem hx)
    exact {
      mid := hrest.mid
      others := fun d hd => by
        have hde : d ≠ e.dest := fun he => hd (he ▸ List.mem_cons_self)
        obtain ⟨hrec, hslot⟩ := hrest.others d fun hm => hd (List.mem_cons_of_mem _ hm)
        exact ⟨hrec.trans (hfirst.acts.others d hde), hslot.trans (hfirst.acts.slotOf d hde)⟩
      entry := fun x hx => by
        obtain rfl | hx := List.mem_cons.1 hx
        · rw [hown, hownSlot]
          exact ⟨hfirst.record, hfirst.own, hfirst.rest, hfirst.direct⟩
        · have hsame := hfirst.acts.others x.dest (hne x hx)
          obtain ⟨hrecord, hserve, hrest', hdirect⟩ := hrest.entry x hx
          rw [hsame] at hrecord hdirect
          exact ⟨hrecord, hserve, hrest', hdirect⟩
      counts := by
        have hall := hfirst.counts.trans hrest.counts
        refine hall.congr (fun y _ => ?_) fun _ _ => rfl
        rw [List.map_cons, List.sum_cons]
        have hmap : (es.map fun x => u.st.servesOf x.dest y.id) = es.map fun x => w.st.servesOf x.dest y.id :=
          List.map_congr_left fun x hx => by rw [State.servesOf, hfirst.acts.slotOf x.dest (hne x hx), State.servesOf]
        rw [hmap]
        rfl
      claims := fun p => (hrest.claims p).trans (hfirst.acts.claims p)
      sorted := hrest.sorted ∘ hfirst.acts.sorted
      mono := fun d hd => hrest.mono d (hfirst.acts.mono d hd)
      only := fun d hd => by
        obtain hd | hd := hrest.only d hd
        · obtain hd | rfl := hfirst.acts.only d hd
          · exact .inl hd
          · exact .inr List.mem_cons_self
        · exact .inr (List.mem_cons_of_mem _ hd) }

/-- The states between the entries, each settled from the one before. -/
theorem Work.settleEntry_run {es : List SetEntry} (h : w.st.midLaw id es) (hnodup : (entryDests es).Nodup) (i : Nat) :
    ((es.take i).foldl (Work.settleEntry id) w).st.midLaw id (es.drop i) ∧ ∀ e, es[i]? = some e →
      ((es.take i).foldl (Work.settleEntry id) w).st.settlesEntry ((es.take (i + 1)).foldl (Work.settleEntry id) w).st id e := by
  induction i generalizing w es with
  | zero =>
    refine ⟨h, fun e he => ?_⟩
    cases es with
    | nil => cases he
    | cons x es =>
      obtain rfl := Option.some.inj he
      exact (Work.settleEntry_mid h (List.nodup_cons.1 hnodup).1).1.turn
  | succ i ih =>
    cases es with
    | nil => exact ⟨h, fun e he => by cases he⟩
    | cons x es =>
      obtain ⟨hnot, htail⟩ := List.nodup_cons.1 hnodup
      exact ih (Work.settleEntry_mid h hnot).2 htail

end Mid

end Sys2Proof.Machine

/-! The start of an applied set (R36, R38). -/

namespace Sys2Proof.Machine

section Claims
variable {w : Work} {e : SetEntry}

theorem SetEntry.port_eq_some {p : Port} : e.port = some p ↔ e.src = .port p := by
  unfold SetEntry.port
  cases e.src with
  | port q => exact ⟨fun h => congrArg Source.port (Option.some.inj h), fun h => congrArg some (Source.port.inj h)⟩
  | none => exact ⟨nofun, nofun⟩
  | express k => exact ⟨nofun, nofun⟩
  | drop a b => exact ⟨nofun, nofun⟩

theorem Work.applyIntent_portsFree {later : List SetEntry} (h : w.st.portsFree (e :: later))
    (hports : ((e :: later).filterMap SetEntry.port).Nodup) : (w.applyIntent e).st.portsFree later := by
  obtain ⟨hspec, -⟩ := w.applyIntent_spec e
  intro x hx p hp d hd
  have hmem : d ∈ e.dest :: entryDests later → d ≠ e.dest → d ∈ entryDests later := fun hm hne =>
    (List.mem_cons.1 hm).resolve_left hne
  by_cases hde : d = e.dest
  · rw [hde, hspec.record e (List.mem_singleton.2 rfl)] at hd
    have hep := SetEntry.port_eq_some.2 hd
    rw [List.filterMap_cons_some hep] at hports
    exact absurd (List.mem_filterMap.2 ⟨x, hx, SetEntry.port_eq_some.2 hp⟩) (List.nodup_cons.1 hports).1
  · rw [hspec.others d fun hm => hde (List.mem_singleton.1 hm)] at hd
    exact hmem (h x (List.mem_cons_of_mem _ hx) p hp d hd) hde

/-- With every intent written the claimants name the destinations whose intent sources the ports are (R49). -/
theorem Work.foldl_applyIntent_claims (es : List SetEntry) {w : Work} (h : w.st.claimsBut (entryDests es))
    (hfree : w.st.portsFree es) (hports : (es.filterMap SetEntry.port).Nodup) :
    (es.foldl Work.applyIntent w).st.claimsBut [] := by
  induction es generalizing w with
  | nil => exact h
  | cons e es ih =>
    refine ih (Work.applyIntent_claimsBut h hfree) (Work.applyIntent_portsFree hfree hports) ?_
    exact hports.sublist ((List.sublist_cons_self e es).filterMap SetEntry.port)

end Claims

section Start
variable {s t : State} {w v : Work} {q : QueuedSet} {rest : List QueuedSet}

theorem State.dynamicFrom_eq_none {named : List Dest} {es : List SetEntry} (h : s.dynamicFrom named es = none) :
    ∀ e ∈ es, s.conflictOf named e = none := by
  induction es with
  | nil => exact fun _ he => absurd he List.not_mem_nil
  | cons x es ih =>
    rw [State.dynamicFrom] at h
    split at h
    · cases h
    · next hnone =>
      intro e he
      obtain rfl | he := List.mem_cons.1 he
      · exact hnone
      · exact ih h e he

/-- A set that passes the dynamic check takes no port from a destination that it does not name (R36). -/
theorem State.portsFree_of_check (h : s.claimLaw) (hidle : s.pu.adoption = none) {es : List SetEntry}
    (hcheck : s.dynamicCheck es = none) : s.portsFree es := fun e he p hp d hd => by
  have hclaim := (h (State.mapStands_of_idle hidle) p d).2 ⟨State.isBuilt_of_idle hidle d, hd⟩
  have hnone := State.dynamicFrom_eq_none hcheck e he
  unfold State.conflictOf at hnone
  rw [hp] at hnone
  dsimp only at hnone
  rw [hclaim] at hnone
  dsimp only at hnone
  split at hnone
  · next hmem => exact hmem
  · cases hnone

theorem State.claimsBut_of_claimLaw (h : s.claimLaw) (hidle : s.pu.adoption = none) (later : List Dest) : s.claimsBut later :=
  fun p d => by
    have hclaim := (h (State.mapStands_of_idle hidle) p d).trans (and_iff_right (State.isBuilt_of_idle hidle d))
    exact ⟨hclaim.1, fun hi => .inl (hclaim.2 hi)⟩

theorem State.claimLaw_of_claimsBut (h : s.claimsBut []) (hidle : s.pu.adoption = none) : s.claimLaw := fun _ p d => by
  rw [and_iff_right (State.isBuilt_of_idle hidle d)]
  exact ⟨(h p d).1, fun hi => ((h p d).2 hi).resolve_right List.not_mem_nil⟩

/-- The law of slots and holders reads of the records the slots and the current sources alone. -/
theorem State.coreLaw.kept (h : s.coreLaw) (hslot : ∀ d, (t.record d).slot = (s.record d).slot)
    (hcur : ∀ d, (t.record d).curSrc = (s.record d).curSrc) (hre : t.re = s.re) (hpu : t.pu = s.pu)
    (hholders : ∀ p : Port, t.dt.ports[p].holder = s.dt.ports[p].holder) : t.coreLaw := by
  refine ⟨fun n sl hsl => ?_, fun d n hn => ?_, by rw [hre]; exact h.list, fun hm p d => ?_⟩
  · rw [hslot]
    exact h.slots n sl (hre ▸ hsl)
  · rw [hslot] at hn
    rw [hre]
    exact h.slotNames d n hn
  · unfold State.mapStands at hm
    rw [hpu] at hm
    unfold State.isBuilt
    rw [hcur, hholders, hpu]
    exact h.holders hm p d

/-- The intents of the head set written, on the state from which it has been taken (R38). -/
def Work.intended (w : Work) (q : QueuedSet) : Work := q.entries.foldl Work.applyIntent w.popSet.giveSetId

theorem Work.intended_intends (w : Work) {q : QueuedSet} (hlegal : q.legal) : w.popSet.giveSetId.intends (w.intended q) q.entries :=
  Work.foldl_applyIntent q.entries _ hlegal.1

theorem Work.intended_kept (w : Work) (hlegal : q.legal) (d : Dest) :
    ((w.intended q).st.record d).slot = (w.st.record d).slot ∧ ((w.intended q).st.record d).curSrc = (w.st.record d).curSrc ∧
      ((w.intended q).st.record d).curAttn = (w.st.record d).curAttn := by
  have hspec := w.intended_intends hlegal
  by_cases hd : d ∈ entryDests q.entries
  · obtain ⟨e, he, rfl⟩ := List.mem_map.1 hd
    rw [hspec.record e he]
    exact ⟨rfl, rfl, rfl⟩
  · rw [hspec.others d hd]
    exact ⟨rfl, rfl, rfl⟩

/-- The laws with which the settling of an applied set begins. -/
theorem Work.intended_mid (h : w.st.tableLaw) (hidle : w.st.pu.adoption = none) (hqueue : w.st.csa.queue = q :: rest)
    (hcheck : w.st.dynamicCheck q.entries = none) (hroom : w.st.neededSlots q.entries ≤ w.st.freeSlots.length) :
    (w.intended q).st.midLaw w.st.csa.nextSet q.entries := by
  have hlegal : q.legal := h.sets q (by rw [hqueue]; exact List.mem_cons_self)
  have hspec := w.intended_intends hlegal
  have hkept := fun d => w.intended_kept hlegal d
  have hclaims : (w.intended q).st.claimsBut [] := Work.foldl_applyIntent_claims q.entries
    (w := w.popSet.giveSetId) (State.claimsBut_of_claimLaw h.inner.claims hidle _)
    (State.portsFree_of_check h.inner.claims hidle hcheck) hlegal.2.1
  have hidle' : (w.intended q).st.pu.adoption = none := by rw [hspec.frame]; exact hidle
  have hre : (w.intended q).st.re = w.st.re := by rw [hspec.frame]; rfl
  have hpu : (w.intended q).st.pu = w.st.pu := by rw [hspec.frame]; rfl
  have hiso : (w.intended q).st.dt.isolated = w.st.dt.isolated := by rw [hspec.frame]; rfl
  have hsettling : (w.intended q).st.csa.settling = w.st.csa.settling := by rw [hspec.frame]; rfl
  have hnext : (w.intended q).st.csa.nextSet = w.st.csa.nextSet + 1 := by rw [hspec.frame]; rfl
  have hof : ∀ d, (w.intended q).st.slotOf d = w.st.slotOf d := fun d =>
    State.slotOf_congr (hkept d).1 fun n _ => by rw [hre]
  have hforced : ∀ src, (w.intended q).st.forcedFor src = w.st.forcedFor src := fun src => by
    unfold State.forcedFor
    rw [hiso]
  have hcount : ∀ x, (w.intended q).st.servingCount x = w.st.servingCount x := fun x => by
    unfold State.servingCount
    rw [hre]
  have hserves := h.inner.serves
  exact {
    core := h.core.kept (fun d => (hkept d).1) (fun d => (hkept d).2.1) hre hpu hspec.holders
    claims := State.claimLaw_of_claimsBut hclaims hidle'
    serves := by
      refine ⟨fun e he => ?_, by rw [hsettling]; exact hserves.ids, fun d x hx => ?_⟩
      · rw [hsettling] at he
        obtain ⟨hid, hpos, hrem⟩ := hserves.listed e he
        exact ⟨by omega, hpos, hrem.trans (hcount e.id).symm⟩
      · rw [State.servesOf, hof] at hx
        rw [hsettling]
        exact .inl ((hserves.serving d x hx).resolve_right nofun)
    fresh := fun x hx e he => by
      rw [hsettling] at he
      have := (hserves.listed e he).1
      have := Option.some.inj hx
      omega
    issued := by omega
    idle := hidle'
    dests := fun d hd => (h.destLaw d).congr (hspec.others d hd) (hof d) hiso hpu
    intended := fun e he => by
      have hrecord := hspec.record e he
      have hlaw := h.destLaw e.dest
      refine ⟨?_, ?_, ?_, ?_, ?_, ?_, ?_⟩
      · rw [hrecord]; exact hlegal.2.2 e he
      · rw [hrecord]; exact hlaw.current
      · rw [hrecord]; exact hlaw.darkNone
      · rw [hrecord]; exact hlaw.drop
      · rw [hrecord]; exact fun hw => (hlaw.wanted hw).1
      · rw [hrecord, hforced]; rfl
      · rw [hof, hrecord]
        exact fun sl hsl hp => ((hlaw.follows sl hsl).waiting hp).1
    room := by
      have hsame : (q.entries.filter fun e => (w.intended q).st.needsFree e.dest) = q.entries.filter w.st.needsSlot :=
        List.filter_congr fun e he => by
          unfold State.needsFree
          rw [hspec.record e he]
          rfl
      rw [hsame, State.freeSlots_congr (t := (w.intended q).st) (s := w.st) (by rw [hre])]
      exact hroom }

end Start

end Sys2Proof.Machine

/-! An applied set accounted for (R41). -/

namespace Sys2Proof.Machine

section Account
variable {s t u : State} {w v : Work} {q : QueuedSet} {rest : List QueuedSet} {id : Nat}

/-- The record of an applied set in the settling-set list. -/
def QueuedSet.settlingAs (q : QueuedSet) (id count : Nat) : SettlingSet :=
  { id := id, label := q.label, entries := q.entries.length, remaining := count, interrupted := 0 }

theorem Work.account_none (h : w.st.servingCount id = 0) (q : QueuedSet) : w.account id q =
    w.emit .setSettled 0 (BitVec.ofNat 16 q.label.toNat) (BitVec.ofNat 32 q.entries.length) 0#32 := if_pos h

theorem Work.account_some (h : w.st.servingCount id ≠ 0) (q : QueuedSet) : w.account id q = { w with st := { w.st with
    csa := { w.st.csa with settling := w.st.csa.settling ++ [q.settlingAs id (w.st.servingCount id)] } } } := if_neg h

/-- The accounting changes the settling-set list and the event writer alone. -/
theorem Work.account_eq (w : Work) (id : Nat) (q : QueuedSet) : w.account id q = { w with st := { w.st with
    csa := { w.st.csa with settling := (w.account id q).st.csa.settling }, ew := (w.account id q).st.ew } } := by
  by_cases h : w.st.servingCount id = 0
  · rw [Work.account_none h, Work.emit, State.emit_eq]
  · rw [Work.account_some h]

/-- The laws after an applied set's accounting. -/
theorem Work.account_innerLaw (h : w.st.midLaw id []) (q : QueuedSet) : (w.account id q).st.innerLaw none := by
  have hframe := w.account_eq id q
  have hrecords : (w.account id q).st.dt = w.st.dt := by rw [hframe]
  have hre : (w.account id q).st.re = w.st.re := by rw [hframe]
  have hpu : (w.account id q).st.pu = w.st.pu := by rw [hframe]
  have hnext : (w.account id q).st.csa.nextSet = w.st.csa.nextSet := by rw [hframe]
  have hcount : ∀ x, (w.account id q).st.servingCount x = w.st.servingCount x := fun x => by
    unfold State.servingCount
    rw [hre]
  have hrec : ∀ d, (w.account id q).st.record d = w.st.record d := State.record_congr (by rw [hrecords])
  have hof : ∀ d, (w.account id q).st.slotOf d = w.st.slotOf d := fun d =>
    State.slotOf_congr (by rw [hrec]) fun n _ => by rw [hre]
  have hclaims : (w.account id q).st.claimLaw := by
    have hold := h.claims
    unfold State.claimLaw State.mapStands State.isBuilt at hold ⊢
    rw [hpu, hrecords]
    intro hm p d
    rw [hrec]
    exact hold hm p d
  refine ⟨h.core.congr (by rw [hrecords]) (by rw [hre]) (by rw [hre]) (by rw [hrecords]) hpu,
    fun d => (h.dests d List.not_mem_nil).congr (hrec d) (hof d) (by rw [hrecords]) hpu, hclaims, ?_⟩
  have hserves := h.serves
  by_cases hzero : w.st.servingCount id = 0
  · have hsettling : (w.account id q).st.csa.settling = w.st.csa.settling := by
      rw [Work.account_none hzero]
      exact congrArg SetAssembler.settling (State.emit_csa _ _ _ _ _ _)
    refine ⟨fun e he => ?_, by rw [hsettling]; exact hserves.ids, fun d x hx => .inl ?_⟩
    · rw [hsettling] at he
      rw [hnext, hcount]
      exact hserves.listed e he
    · rw [State.servesOf, hof] at hx
      rw [hsettling]
      refine (hserves.serving d x hx).resolve_right fun hid => ?_
      rw [h.core.servingCount_eq] at hzero
      rw [← Option.some.inj hid] at hx
      exact hx (Finset.sum_eq_zero_iff.1 hzero d (Finset.mem_univ d))
  · have hsettling : (w.account id q).st.csa.settling =
        w.st.csa.settling ++ [q.settlingAs id (w.st.servingCount id)] := by rw [Work.account_some hzero]
    refine ⟨fun e he => ?_, ?_, fun d x hx => .inl ?_⟩
    · rw [hnext, hcount]
      rw [hsettling] at he
      obtain he | he := List.mem_append.1 he
      · exact hserves.listed e he
      · rw [List.mem_singleton.1 he]
        exact ⟨h.issued, Nat.pos_of_ne_zero hzero, rfl⟩
    · rw [hsettling, List.map_append]
      refine List.nodup_append.2 ⟨hserves.ids, List.nodup_singleton _, fun a ha b hb hab => ?_⟩
      obtain ⟨e, he, rfl⟩ := List.mem_map.1 ha
      rw [List.mem_singleton.1 hb] at hab
      exact h.fresh id rfl e he hab
    · rw [State.servesOf, hof] at hx
      rw [hsettling, List.map_append, List.mem_append]
      refine (hserves.serving d x hx).imp_right fun hid => ?_
      exact List.mem_singleton.2 (Option.some.inj hid).symm

end Account

end Sys2Proof.Machine

/-! An applied set as a whole (R38 to R42). -/

namespace Sys2Proof.Machine

/-- The head set's entries settled, its accounting still to come. -/
def Work.settled (w : Work) (q : QueuedSet) : Work := q.entries.foldl (Work.settleEntry w.st.csa.nextSet) (w.intended q)

theorem Work.applySet_eq (w : Work) (q : QueuedSet) : w.applySet q = (w.settled q).account w.st.csa.nextSet q := rfl

/-- The head set can be applied (R36, R76, R77). -/
structure Work.admitsSet (w : Work) (q : QueuedSet) (rest : List QueuedSet) : Prop where
  law : w.st.tableLaw
  idle : w.st.pu.adoption = none
  queue : w.st.csa.queue = q :: rest
  check : w.st.dynamicCheck q.entries = none
  room : w.st.neededSlots q.entries ≤ w.st.freeSlots.length

section Apply
variable {s s' t t' : State} {w : Work} {q : QueuedSet} {rest : List QueuedSet}

theorem Work.admitsSet.legal (h : w.admitsSet q rest) : q.legal := h.law.sets q (by rw [h.queue]; exact List.mem_cons_self)

theorem Work.admitsSet.mid (h : w.admitsSet q rest) : (w.intended q).st.midLaw w.st.csa.nextSet q.entries :=
  Work.intended_mid h.law h.idle h.queue h.check h.room

theorem Work.admitsSet.settles (h : w.admitsSet q rest) : (w.intended q).settlesAll (w.settled q) w.st.csa.nextSet q.entries :=
  Work.foldl_settleEntry q.entries h.mid h.legal.1

theorem Work.settled_reworks (w : Work) (q : QueuedSet) : (w.intended q).st.reworks (w.settled q).st :=
  State.reworks.foldl (fun _ e hv => hv.settleEntry _ e) q.entries (.refl _)

theorem Work.admitsSet.csa (h : w.admitsSet q rest) : (w.settled q).st.csa = { w.st.csa with
    queue := rest, settling := (w.settled q).st.csa.settling, nextSet := w.st.csa.nextSet + 1 } := by
  have hspec := w.intended_intends h.legal
  have hcsa : (w.intended q).st.csa = { w.st.csa with queue := w.st.csa.queue.tail, nextSet := w.st.csa.nextSet + 1 } := by
    rw [hspec.frame]
    rfl
  conv_lhs => rw [(w.settled_reworks q).sets, hcsa, h.queue]
  rfl

theorem Work.applySet_csa (h : w.admitsSet q rest) : (w.applySet q).st.csa = { w.st.csa with
    queue := rest, settling := (w.applySet q).st.csa.settling, nextSet := w.st.csa.nextSet + 1 } := by
  conv_lhs => rw [Work.applySet_eq, Work.account_eq]
  rw [Work.applySet_eq]
  show ({ (w.settled q).st.csa with settling := _ } : SetAssembler) = _
  rw [h.csa]

theorem Work.applySet_dt (w : Work) (q : QueuedSet) : (w.applySet q).st.dt = (w.settled q).st.dt ∧
    (w.applySet q).st.re = (w.settled q).st.re ∧ (w.applySet q).marks = (w.settled q).marks := by
  rw [Work.applySet_eq, Work.account_eq]
  exact ⟨rfl, rfl, rfl⟩

theorem Work.applySet_record (w : Work) (q : QueuedSet) (d : Dest) : (w.applySet q).st.record d = (w.settled q).st.record d :=
  State.record_congr (by rw [(w.applySet_dt q).1]) d

/-- A destination that the set names. -/
theorem Work.admitsSet.named (h : w.admitsSet q rest) {e : SetEntry} (he : e ∈ q.entries) :
    let r := (w.applySet q).st.record e.dest
    r = { w.st.intendedFor e with curSrc := r.curSrc, curAttn := r.curAttn, slot := r.slot, wanted := false } ∧
      (r.slot = none → atRest e.dest r = true) ∧
      (isLine e.dest = false ∨ r.forced = true → r = (w.st.intendedFor e).direct e.dest) ∧
      ∀ n, r.slot = some n → ∃ sl, (w.applySet q).st.re.slots[n] = some sl ∧ sl.serves = some w.st.csa.nextSet := by
  have hrecord : (w.intended q).st.record e.dest = w.st.intendedFor e := (w.intended_intends h.legal).record e he
  obtain ⟨hfields, hown, hrest, hdirect⟩ := h.settles.entry e he
  have hcore := h.settles.mid.core
  dsimp only
  rw [(w.applySet_dt q).2.1, w.applySet_record]
  rw [hrecord] at hfields hdirect
  refine ⟨hfields, hrest, fun hor => hdirect (hor.imp_right fun hf => ?_), fun n hn => ?_⟩
  · rw [hfields] at hf
    exact hf
  · obtain ⟨sl, hs, hd⟩ := hcore.slotNames e.dest n hn
    have hof := hcore.slotOf_of_slots hs
    rw [hd] at hof
    exact ⟨sl, hs, hown sl hof⟩

theorem Work.admitsSet.unnamed (h : w.admitsSet q rest) {d : Dest} (hd : d ∉ entryDests q.entries) :
    (w.applySet q).st.record d = w.st.record d :=
  (w.applySet_record q d).trans (((h.settles.others d hd).1).trans ((w.intended_intends h.legal).others d hd))

theorem Work.admitsSet.marks (h : w.admitsSet q rest) : (w.marks.Pairwise (· < ·) → (w.applySet q).marks.Pairwise (· < ·)) ∧
    ∀ d, d ∈ (w.applySet q).marks ↔ d ∈ w.marks ∨ d ∈ entryDests q.entries := by
  have hspec := w.intended_intends h.legal
  have hsettles := h.settles
  rw [(w.applySet_dt q).2.2]
  refine ⟨fun hs => hsettles.sorted (hspec.sorted hs), fun d => ⟨fun hd => ?_, fun hd => ?_⟩⟩
  · obtain hd | hd := hsettles.only d hd
    · exact (hspec.marks d).1 hd
    · exact .inr hd
  · exact hsettles.mono d ((hspec.marks d).2 hd)

/-- One queued mark fewer on each destination named (R10, R38). -/
theorem State.marksLaw.pop (h : s.marksLaw) (hqueue : s.csa.queue = q :: rest) (hqueue' : t.csa.queue = rest)
    (hmarks : ∀ d, (t.record d).queued = (s.record d).queued - (entryDests q.entries).count d) : t.marksLaw := fun d => by
  have hold := h d
  rw [hqueue, List.flatMap_cons, List.count_append] at hold
  rw [hmarks, hold, hqueue', Nat.add_sub_cancel_left]

theorem Work.admitsSet.queued (h : w.admitsSet q rest) (d : Dest) :
    ((w.applySet q).st.record d).queued = (w.st.record d).queued - (entryDests q.entries).count d := by
  by_cases hd : d ∈ entryDests q.entries
  · rw [List.count_eq_one_of_mem h.legal.1 hd]
    obtain ⟨e, he, rfl⟩ := List.mem_map.1 hd
    obtain ⟨hrecord, -⟩ := h.named he
    rw [hrecord]
    rfl
  · rw [List.count_eq_zero_of_not_mem hd, h.unnamed hd, Nat.sub_zero]

theorem State.apartLaw.congr (h : s.apartLaw) (hxe : t.xe = s.xe) (hcbp : t.cbp = s.cbp) (hpu : t.pu = s.pu)
    (hadopt : t.pu.adoption ≠ none → t.csa.queue = []) : t.apartLaw := by
  refine ⟨?_, ?_, ?_, hadopt⟩
  · rw [hxe, hpu, hcbp]; exact h.exclusive
  · rw [hcbp, hpu]; exact h.masking
  · rw [hxe]; exact h.swapWord

theorem Work.applySet_outside (w : Work) (q : QueuedSet) : w.st.keepsOutsideTable (w.applySet q).st :=
  ((State.requests.refl w.st).applySet q).outside

/-- An applied set keeps the table laws. -/
theorem Work.admitsSet.tableLaw (h : w.admitsSet q rest) : (w.applySet q).st.tableLaw := by
  have hout := w.applySet_outside q
  have hcsa := Work.applySet_csa h
  have hqueue : (w.applySet q).st.csa.queue = rest := by rw [hcsa]
  have hopen : (w.applySet q).st.csa.openSet = w.st.csa.openSet := by rw [hcsa]
  have hbound := h.law.bounded
  refine State.tableLaw_of_parts (Work.account_innerLaw h.settles.mid q) ⟨?_, ?_, ?_, ?_⟩
    (State.marksLaw.pop h.law.marks h.queue hqueue h.queued) (h.law.apart.congr hout.xe hout.cbp hout.pu fun hadopt => ?_)
  · rw [hopen]; exact hbound.openDests
  · rw [hopen]; exact hbound.openBound
  · rw [hqueue]
    exact fun x hx => hbound.sets x (by rw [h.queue]; exact List.mem_cons_of_mem _ hx)
  · rw [hqueue]
    have := hbound.setBound
    rw [h.queue, List.length_cons] at this
    omega
  · rw [hout.pu] at hadopt
    exact absurd h.idle hadopt

end Apply

end Sys2Proof.Machine

/-! One occasion of the arbiter taken on from the state that its first head leaves. -/

namespace Sys2Proof.Machine

section Alike
variable {M : Dest → Prop} {f r : Bool} {w v : Work} {d : Dest} {n : SlotNo}

theorem Work.alike.dynamicCheck (h : Work.alike M f r w v) (es : List SetEntry) : v.st.dynamicCheck es = w.st.dynamicCheck es := by
  obtain ⟨c, u, o, he⟩ := h.st
  rw [he]
  exact State.dynamicCheck_congr (s := w.st) (t := w.st.beside c u o) rfl es

theorem Work.alike.neededSlots (h : Work.alike M f r w v) (es : List SetEntry) : v.st.neededSlots es = w.st.neededSlots es := by
  obtain ⟨c, u, o, he⟩ := h.st
  rw [he]
  rfl

theorem Work.alike.freeSlots (h : Work.alike M f r w v) : v.st.freeSlots = w.st.freeSlots := State.freeSlots_congr h.slots

theorem Work.alike.servingCount (h : Work.alike M f r w v) (id : Nat) : v.st.servingCount id = w.st.servingCount id := by
  obtain ⟨c, u, o, he⟩ := h.st
  rw [he]
  rfl

theorem Work.alike.occupySlot (h : Work.alike M f r w v) (n : SlotNo) (d : Dest) (serves : Option Nat) :
    Work.alike M f r (w.occupySlot n d serves) (v.occupySlot n d serves) := by
  have hcell := h.setSlot n (some { dest := d, phase := .dimming, goal := dark, serves := serves })
  have hlist := hcell.change (g := fun s => { s with re := { s.re with list := s.re.list ++ [n] } }) fun _ _ _ _ => rfl
  have hrecord := (hlist.setRecord d { w.st.record d with slot := some n, wanted := false }).mark d
  have hoccupied : Work.alike M f r (w.occupied n d serves) (v.occupied n d serves) := by
    have hv : v.occupied n d serves = Work.mark (Work.setRecord { v with st := { v.st with re := { v.st.re with
        slots := v.st.re.slots.set n (some { dest := d, phase := .dimming, goal := dark, serves := serves })
        list := v.st.re.list ++ [n] } } } d { v.st.record d with slot := some n, wanted := false }) d := rfl
    rw [hv, h.record]
    exact hrecord
  rw [Work.occupySlot_eq, Work.occupySlot_eq]
  exact hoccupied.evaluate n

theorem Work.alike.retargetSlot (h : Work.alike M f r w v) (n : SlotNo) (id : Nat) :
    Work.alike M f r (w.retargetSlot n id) (v.retargetSlot n id) := by
  cases hs : w.st.re.slots[n] with
  | none =>
    have hv : v.st.re.slots[n] = none := by rw [h.slots, hs]
    unfold Work.retargetSlot
    rw [hs, hv]
    exact h
  | some sl =>
    have hv : v.st.re.slots[n] = some sl := by rw [h.slots, hs]
    rw [Work.retargetSlot_eq hs, Work.retargetSlot_eq hv]
    have hset := (h.releaseSet sl.serves true).setSlot n (some { sl with serves := some id })
    exact (hset.change (g := fun s => { s with re := { s.re with list := s.re.list.erase n ++ [n] } })
      fun _ _ _ _ => rfl).evaluate n

theorem Work.alike.cancelSlot (h : Work.alike M f r w v) (d : Dest) : Work.alike M f r (w.cancelSlot d) (v.cancelSlot d) := by
  unfold Work.cancelSlot
  rw [h.record]
  split
  · exact h.interruptSlot _
  · exact h

theorem Work.alike.clearWanted (h : Work.alike M f r w v) (d : Dest) : Work.alike M f r (w.clearWanted d) (v.clearWanted d) := by
  unfold Work.clearWanted
  rw [h.record]
  exact h.setRecord d _

theorem Work.alike.settleForced (h : Work.alike M f r w v) (d : Dest) :
    Work.alike M f r (w.settleForced d) (v.settleForced d) := by
  have hcleared := (h.cancelSlot d).clearWanted d
  unfold Work.settleForced
  dsimp only
  rw [hcleared.record]
  exact hcleared.writeCurrent d _ _

theorem Work.alike.settleEntry (h : Work.alike M f r w v) (id : Nat) (e : SetEntry) :
    Work.alike M f r (Work.settleEntry id w e) (Work.settleEntry id v e) := by
  unfold Work.settleEntry Work.settleLine
  rw [h.record, h.freeSlots]
  split
  · split
    · exact h.settleForced e.dest
    · split
      · exact h.retargetSlot _ id
      · split
        · exact h.clearWanted e.dest
        · split
          · exact h.occupySlot _ e.dest (some id)
          · exact h
  · exact h.reevaluateDrop e.dest

theorem clearClaimant_beside (s : State) (c : BusPort) (u : List UpdateEntry) (o : Bool) (d : Dest) (src : Source) :
    (s.beside c u o).clearClaimant d src = (s.clearClaimant d src).beside c u o := by
  cases src with
  | port p =>
    show (if s.dt.ports[p].claimant = some d then _ else _) = State.beside (if s.dt.ports[p].claimant = some d then _ else _) c u o
    split <;> rfl
  | none => rfl
  | express k => rfl
  | drop x y => rfl

theorem takeClaimant_beside (s : State) (c : BusPort) (u : List UpdateEntry) (o : Bool) (d : Dest) (src : Source) :
    (s.beside c u o).takeClaimant d src = (s.takeClaimant d src).beside c u o := by cases src <;> rfl

theorem Work.alike.writeIntent (h : Work.alike M f r w v) (d : Dest) (src : Source) (attn : Attn) :
    Work.alike M f r (w.writeIntent d src attn) (v.writeIntent d src attn) := by
  unfold Work.writeIntent
  rw [h.record]
  refine h.change (g := fun s => ((s.setRecord d { w.st.record d with intentSrc := src, intentAttn := attn }).clearClaimant d
    (w.st.record d).intentSrc).takeClaimant d src) fun s c u o => ?_
  rw [show (s.beside c u o).setRecord d { w.st.record d with intentSrc := src, intentAttn := attn } =
    (s.setRecord d { w.st.record d with intentSrc := src, intentAttn := attn }).beside c u o from rfl, clearClaimant_beside,
    takeClaimant_beside]

theorem Work.alike.changeQueued (h : Work.alike M f r w v) (d : Dest) (g : Nat → Nat) :
    Work.alike M f r (w.changeQueued d g) (v.changeQueued d g) := by
  unfold Work.changeQueued
  rw [h.record]
  exact (h.setRecord d _).mark d

theorem Work.alike.applyIntent (h : Work.alike M f r w v) (e : SetEntry) :
    Work.alike M f r (w.applyIntent e) (v.applyIntent e) := by
  have hwritten := (h.writeIntent e.dest e.src e.attn).changeQueued e.dest (· - 1)
  unfold Work.applyIntent
  dsimp only
  rw [hwritten.record, hwritten.forcedFor]
  exact hwritten.setRecord e.dest _

theorem Work.alike.popSet (h : Work.alike M f r w v) : Work.alike M f r w.popSet v.popSet :=
  h.change (g := fun s => { s with csa := { s.csa with queue := s.csa.queue.tail } }) fun _ _ _ _ => rfl

theorem Work.alike.giveSetId (h : Work.alike M f r w v) : Work.alike M f r w.giveSetId v.giveSetId :=
  h.change (g := fun s => { s with csa := { s.csa with nextSet := s.csa.nextSet + 1 } }) fun _ _ _ _ => rfl

theorem Work.alike.account (h : Work.alike M f r w v) (id : Nat) (q : QueuedSet) :
    Work.alike M f r (w.account id q) (v.account id q) := by
  by_cases hzero : w.st.servingCount id = 0
  · rw [Work.account_none hzero, Work.account_none ((h.servingCount id).trans hzero)]
    exact h.emit _ _ _ _ _
  · have hv : v.st.servingCount id ≠ 0 := by rwa [h.servingCount]
    rw [Work.account_some hzero, Work.account_some hv, h.servingCount]
    exact h.change (g := fun s => { s with csa := { s.csa with
      settling := s.csa.settling ++ [q.settlingAs id (w.st.servingCount id)] } }) fun _ _ _ _ => rfl

theorem Work.alike.foldl {α : Type} {g : Work → α → Work}
    (hg : ∀ (w v : Work) (a : α), Work.alike M f r w v → Work.alike M f r (g w a) (g v a)) (l : List α)
    (h : Work.alike M f r w v) : Work.alike M f r (l.foldl g w) (l.foldl g v) := by
  induction l generalizing w v with
  | nil => exact h
  | cons a l ih => exact ih (hg w v a h)

theorem Work.alike.applySet (h : Work.alike M f r w v) (q : QueuedSet) : Work.alike M f r (w.applySet q) (v.applySet q) := by
  have hid : v.st.csa.nextSet = w.st.csa.nextSet := by rw [h.csa]
  have hintended := Work.alike.foldl (fun _ _ e k => k.applyIntent e) q.entries h.popSet.giveSetId
  unfold Work.applySet
  dsimp only
  rw [hid]
  exact (Work.alike.foldl (fun _ _ e k => k.settleEntry _ e) q.entries hintended).account _ q

theorem Work.alike.rejectSet (h : Work.alike M f r w v) (q : QueuedSet) (e : SetEntry) (p : Port) (c : Dest) :
    Work.alike M f r (w.rejectSet q e p c) (v.rejectSet q e p c) :=
  Work.alike.foldl (fun _ _ d k => k.changeQueued d _) (entryDests q.entries) (h.popSet.emit _ _ _ _ _)

theorem Work.alike.admitWanted (h : Work.alike M f r w v) (d : Dest) :
    Work.alike M f r (w.admitWanted d) (v.admitWanted d) := by
  unfold Work.admitWanted
  rw [h.record, h.freeSlots]
  split
  · split
    · exact h.occupySlot _ d none
    · exact h
  · exact h

theorem Work.arbitrate_cons {w : Work} {q : QueuedSet} {rest : List QueuedSet} (h : w.st.csa.queue = q :: rest) (fuel : Nat) :
    Work.arbitrate (fuel + 1) w = match w.st.dynamicCheck q.entries with
      | some (e, p, c) => Work.arbitrate fuel (w.rejectSet q e p c)
      | none => if w.st.neededSlots q.entries ≤ w.st.freeSlots.length then Work.arbitrate fuel (w.applySet q) else w := by
  rw [Work.arbitrate, h] <;> rfl

theorem Work.arbitrate_nil {w : Work} (h : w.st.csa.queue = []) (fuel : Nat) :
    Work.arbitrate (fuel + 1) w = allDests.foldl Work.admitWanted w := by
  rw [Work.arbitrate, h]

theorem Work.arbitrate_rejects {w : Work} {q : QueuedSet} {rest : List QueuedSet} {e : SetEntry} {p : Port} {c : Dest}
    (h : w.st.csa.queue = q :: rest) (hcheck : w.st.dynamicCheck q.entries = some (e, p, c)) (fuel : Nat) :
    Work.arbitrate (fuel + 1) w = Work.arbitrate fuel (w.rejectSet q e p c) := by
  rw [Work.arbitrate_cons h, hcheck]

theorem Work.arbitrate_applies {w : Work} {q : QueuedSet} {rest : List QueuedSet} (h : w.st.csa.queue = q :: rest)
    (hcheck : w.st.dynamicCheck q.entries = none) (hroom : w.st.neededSlots q.entries ≤ w.st.freeSlots.length) (fuel : Nat) :
    Work.arbitrate (fuel + 1) w = Work.arbitrate fuel (w.applySet q) := by
  rw [Work.arbitrate_cons h, hcheck]
  exact if_pos hroom

theorem Work.arbitrate_waits {w : Work} {q : QueuedSet} {rest : List QueuedSet} (h : w.st.csa.queue = q :: rest)
    (hcheck : w.st.dynamicCheck q.entries = none) (hroom : w.st.freeSlots.length < w.st.neededSlots q.entries) (fuel : Nat) :
    Work.arbitrate (fuel + 1) w = w := by
  rw [Work.arbitrate_cons h, hcheck]
  exact if_neg (Nat.not_le_of_lt hroom)

theorem Work.alike.arbitrate (fuel : Nat) (h : Work.alike M f r w v) :
    Work.alike M f r (Work.arbitrate fuel w) (Work.arbitrate fuel v) := by
  induction fuel generalizing w v with
  | zero => exact h
  | succ fuel ih =>
    cases hq : w.st.csa.queue with
    | nil =>
      rw [Work.arbitrate_nil hq, Work.arbitrate_nil (by rw [h.csa, hq])]
      exact Work.alike.foldl (fun _ _ d k => k.admitWanted d) allDests h
    | cons q rest =>
      have hqv : v.st.csa.queue = q :: rest := by rw [h.csa, hq]
      cases hcheck : w.st.dynamicCheck q.entries with
      | some x =>
        obtain ⟨e, p, c⟩ := x
        rw [Work.arbitrate_rejects hq hcheck, Work.arbitrate_rejects hqv ((h.dynamicCheck _).trans hcheck)]
        exact ih (h.rejectSet q e p c)
      | none =>
        have hcv := (h.dynamicCheck q.entries).trans hcheck
        by_cases hroom : w.st.neededSlots q.entries ≤ w.st.freeSlots.length
        · rw [Work.arbitrate_applies hq hcheck hroom,
            Work.arbitrate_applies hqv hcv (by rwa [h.neededSlots, h.freeSlots])]
          exact ih (h.applySet q)
        · rw [Work.arbitrate_waits hq hcheck (Nat.lt_of_not_le hroom),
            Work.arbitrate_waits hqv hcv (by rw [h.neededSlots, h.freeSlots]; exact Nat.lt_of_not_le hroom)]
          exact h

end Alike

/-! ### Marks in order -/

section Sorted
variable {w : Work} {d : Dest} {n : SlotNo}

theorem Work.mark_sorted (h : w.marks.Pairwise (· < ·)) (d : Dest) : (w.mark d).marks.Pairwise (· < ·) :=
  (insertDest_spec d w.marks h).1

theorem Work.occupySlot_sorted (h : w.marks.Pairwise (· < ·)) (n : SlotNo) (d : Dest) (serves : Option Nat) :
    (w.occupySlot n d serves).marks.Pairwise (· < ·) := by
  rw [Work.occupySlot_eq]
  exact Work.evaluate_sorted (w := w.occupied n d serves) (insertDest_spec d w.marks h).1 n

theorem Work.retargetSlot_sorted (h : w.marks.Pairwise (· < ·)) (n : SlotNo) (id : Nat) :
    (w.retargetSlot n id).marks.Pairwise (· < ·) := by
  cases hs : w.st.re.slots[n] with
  | none =>
    unfold Work.retargetSlot
    rw [hs]
    exact h
  | some sl =>
    rw [Work.retargetSlot_eq hs]
    exact Work.evaluate_sorted (w := w.retargeted n sl id) h n

theorem Work.cancelSlot_sorted (h : w.marks.Pairwise (· < ·)) (d : Dest) : (w.cancelSlot d).marks.Pairwise (· < ·) := by
  unfold Work.cancelSlot Work.interruptSlot
  split
  · split
    · exact h
    · next sl _ => exact Work.freeSlot_sorted (w := { w with st := w.st.releaseSet sl.serves true }) h _
  · exact h

theorem Work.settleEntry_sorted (h : w.marks.Pairwise (· < ·)) (id : Nat) (e : SetEntry) :
    (Work.settleEntry id w e).marks.Pairwise (· < ·) := by
  unfold Work.settleEntry Work.settleLine Work.reevaluateDrop
  split
  · split
    · exact Work.writeCurrent_sorted (w := (w.cancelSlot e.dest).clearWanted e.dest) (Work.cancelSlot_sorted h e.dest) e.dest _ dark
    · split
      · exact Work.retargetSlot_sorted h _ id
      · split
        · exact h
        · split
          · exact Work.occupySlot_sorted h _ e.dest (some id)
          · exact h
  · dsimp only
    split
    · exact h
    · exact Work.writeCurrent_sorted h _ _ _

theorem Work.admitWanted_sorted (h : w.marks.Pairwise (· < ·)) (d : Dest) : (w.admitWanted d).marks.Pairwise (· < ·) := by
  unfold Work.admitWanted
  split
  · split
    · exact Work.occupySlot_sorted h _ d none
    · exact h
  · exact h

theorem Work.applyIntent_sorted (h : w.marks.Pairwise (· < ·)) (e : SetEntry) : (w.applyIntent e).marks.Pairwise (· < ·) :=
  Work.mark_sorted (w := w.writeIntent e.dest e.src e.attn) h e.dest

theorem Work.foldl_sorted {α : Type} {g : Work → α → Work}
    (hg : ∀ (w : Work) (a : α), w.marks.Pairwise (· < ·) → (g w a).marks.Pairwise (· < ·)) (l : List α)
    (h : w.marks.Pairwise (· < ·)) : (l.foldl g w).marks.Pairwise (· < ·) := by
  induction l generalizing w with
  | nil => exact h
  | cons a l ih => exact ih (hg w a h)

theorem Work.applySet_sorted (h : w.marks.Pairwise (· < ·)) (q : QueuedSet) : (w.applySet q).marks.Pairwise (· < ·) := by
  have hintended := Work.foldl_sorted (w := w.popSet.giveSetId) (fun _ e k => Work.applyIntent_sorted k e) q.entries h
  rw [(w.applySet_dt q).2.2]
  exact Work.foldl_sorted (fun _ e k => Work.settleEntry_sorted k _ e) q.entries hintended

theorem Work.rejectSet_sorted (h : w.marks.Pairwise (· < ·)) (q : QueuedSet) (e : SetEntry) (p : Port) (c : Dest) :
    (w.rejectSet q e p c).marks.Pairwise (· < ·) :=
  Work.foldl_sorted (g := fun v d => v.changeQueued d (· - 1)) (w := w.popSet.emit .setRejected RejectReason.portHeld.code
    (destSubject e.dest) (setDetail q.label q.entries.length false true) (portDetail p c))
    (fun v d k => Work.mark_sorted (w := v) k d) (entryDests q.entries) h

theorem Work.arbitrate_sorted (fuel : Nat) {w : Work} (h : w.marks.Pairwise (· < ·)) :
    (Work.arbitrate fuel w).marks.Pairwise (· < ·) := by
  induction fuel generalizing w with
  | zero => exact h
  | succ fuel ih =>
    cases hq : w.st.csa.queue with
    | nil =>
      rw [Work.arbitrate_nil hq]
      exact Work.foldl_sorted (fun _ d k => Work.admitWanted_sorted k d) allDests h
    | cons q rest =>
      cases hcheck : w.st.dynamicCheck q.entries with
      | some x =>
        obtain ⟨e, p, c⟩ := x
        rw [Work.arbitrate_rejects hq hcheck]
        exact ih (Work.rejectSet_sorted h q e p c)
      | none =>
        by_cases hroom : w.st.neededSlots q.entries ≤ w.st.freeSlots.length
        · rw [Work.arbitrate_applies hq hcheck hroom]
          exact ih (Work.applySet_sorted h q)
        · rw [Work.arbitrate_waits hq hcheck (Nat.lt_of_not_le hroom)]
          exact h

end Sorted

/-! ### The occasion taken on -/

section Resume
variable {M : Dest → Prop} {f r : Bool} {w v : Work} {s u : State}

theorem Work.alike.close (h : Work.alike M f r v w) (hcbp : w.st.cbp = v.st.cbp) :
    w.close = { v.close with dt := { v.close.dt with updates := w.close.dt.updates } } := by
  obtain ⟨c, l, o, he⟩ := h.st
  obtain rfl : c = v.st.cbp := by rw [← hcbp, he]; rfl
  unfold Work.close Work.finish
  rw [he]
  rfl

/-- Only those not listed before are put on the list by a marking without a tag. -/
theorem State.marksUpdates_of_listed {t : State} {ds : List Dest} (hsorted : ds.Pairwise (· < ·))
    (ht : t.dt.updates = ds.foldl (markUpdate none) s.dt.updates) {hit : Dest → Bool}
    (hhit : ∀ d, hit d = true ↔ d ∈ s.dt.updates.map UpdateEntry.dest ∨ d ∈ ds) : s.marksUpdates t none hit := fun _ => by
  have hfilter : (allDests.filter hit).filter (fun d => !(s.dt.updates.map UpdateEntry.dest).contains d) =
      ds.filter fun d => !(s.dt.updates.map UpdateEntry.dest).contains d := by
    refine (allDests_sorted.filter _).filter _ |>.eq_of_mem_iff (hsorted.filter _) fun d => ?_
    rw [List.mem_filter, List.mem_filter, List.mem_filter, hhit, Bool.not_eq_true', List.contains_eq_mem, decide_eq_false_iff_not]
    exact ⟨fun ⟨⟨_, hor⟩, hnot⟩ => ⟨hor.resolve_left hnot, hnot⟩, fun ⟨hd, hnot⟩ => ⟨⟨mem_allDests d, .inr hd⟩, hnot⟩⟩
  rw [ht, foldl_markUpdate_eq (hsorted.imp fun h => ne_of_lt h) (.inl rfl)]
  unfold markedUpdates
  rw [hfilter]
  simp

/-- An occasion whose first head has left `w` goes on as one begun on the state `u` that this head leaves by itself. -/
theorem Work.alike.resumes (h : Work.alike M f r u.begin w) (hw : s.requests w.st) (hcbp : u.cbp = s.cbp)
    (hsorted : w.marks.Pairwise (· < ·))
    (hlisted : ∀ d, d ∈ u.dt.updates.map UpdateEntry.dest ↔ d ∈ s.dt.updates.map UpdateEntry.dest ∨ M d) (fuel : Nat) :
    let t := (Work.arbitrate fuel w).close
    let v := (Work.arbitrate fuel u.begin).close
    (∀ d, d ∈ t.dt.updates.map UpdateEntry.dest ↔ d ∈ v.dt.updates.map UpdateEntry.dest) ∧
      (s.marksUpdates t none fun d => (v.dt.updates.map UpdateEntry.dest).contains d) ∧
      t = { v with dt := { v.dt with updates := t.dt.updates } } := by
  intro t v
  have hlike := h.arbitrate fuel
  have hs := hw.arbitrate fuel
  have hu := (State.requests.refl u).arbitrate (w := u.begin) fuel
  have hts : t.dt.updates = (Work.arbitrate fuel w).marks.foldl (markUpdate none) s.dt.updates := by
    show (Work.arbitrate fuel w).marks.foldl (markUpdate none) (Work.arbitrate fuel w).st.dt.updates = _
    rw [hs.dt]
  have hvs : v.dt.updates = (Work.arbitrate fuel u.begin).marks.foldl (markUpdate none) u.dt.updates := by
    show (Work.arbitrate fuel u.begin).marks.foldl (markUpdate none) (Work.arbitrate fuel u.begin).st.dt.updates = _
    rw [hu.dt]
  have hsame : ∀ d, d ∈ v.dt.updates.map UpdateEntry.dest ↔
      d ∈ s.dt.updates.map UpdateEntry.dest ∨ d ∈ (Work.arbitrate fuel w).marks := fun d => by
    rw [hvs, mem_foldl_markUpdate_iff, hlisted, hlike.marks d, or_assoc, or_comm (a := M d)]
  refine ⟨fun d => ?_, State.marksUpdates_of_listed (Work.arbitrate_sorted fuel hsorted) hts fun d => ?_,
    hlike.close (hs.outside.cbp.trans (hcbp.symm.trans hu.outside.cbp.symm))⟩
  · rw [hsame, hts, mem_foldl_markUpdate_iff]
  · rw [List.contains_eq_mem, decide_eq_true_iff, hsame]

end Resume

end Sys2Proof.Machine

/-! A head set refused at its admission, or left waiting (O41). -/

namespace Sys2Proof.Machine

theorem State.isBuilt_congr {s t : State} (h : t.pu = s.pu) (d : Dest) : t.isBuilt d = s.isBuilt d := by
  unfold State.isBuilt
  rw [h]

theorem State.forcedFor_congr {s t : State} (h : t.dt.isolated = s.dt.isolated) (src : Source) :
    t.forcedFor src = s.forcedFor src := by
  unfold State.forcedFor
  rw [h]

section Reject
variable {s : State} {w : Work} {q : QueuedSet} {rest : List QueuedSet} {e : SetEntry} {p : Port} {c : Dest}

/-- SET_REJECTED with PORT_HELD for the head set (R37). -/
def State.emitPortHeld (s : State) (q : QueuedSet) (e : SetEntry) (p : Port) (c : Dest) : State :=
  s.emit .setRejected 5 (BitVec.ofNat 16 e.dest.val) (setDetail q.label q.entries.length false true) (portDetail p c)

theorem State.emitPortHeld_eq (s : State) (q : QueuedSet) (e : SetEntry) (p : Port) (c : Dest) :
    s.emitPortHeld q e p c = { s with ew := (s.emitPortHeld q e p c).ew } := State.emit_eq s _ _ _ _ _

/-- What refusing the head set does: its record, its place in the queue, and its queued marks (R37). -/
structure Work.rejects (w v : Work) (q : QueuedSet) (e : SetEntry) (p : Port) (c : Dest) : Prop where
  record : ∀ d, v.st.record d = { w.st.record d with queued := (w.st.record d).queued - (entryDests q.entries).count d }
  marks : w.addsMarks v (entryDests q.entries)
  frame : v.st = { w.st.emitPortHeld q e p c with
    csa := { w.st.csa with queue := w.st.csa.queue.tail }, dt := { w.st.dt with records := v.st.dt.records } }
  flags : v.freed = w.freed ∧ v.raised = w.raised

/-- The head set out of the queue, with its record raised. -/
def Work.headRefused (w : Work) (q : QueuedSet) (e : SetEntry) (p : Port) (c : Dest) : Work :=
  { w with st := { w.st.emitPortHeld q e p c with csa := { w.st.csa with queue := w.st.csa.queue.tail } } }

theorem Work.rejectSet_eq (w : Work) (q : QueuedSet) (e : SetEntry) (p : Port) (c : Dest) :
    w.rejectSet q e p c = (w.headRefused q e p c).unqueue q.entries := by
  have hew : (w.popSet.st.emit .setRejected 5 (BitVec.ofNat 16 e.dest.val) (setDetail q.label q.entries.length false true)
      (portDetail p c)).ew = (w.st.emitPortHeld q e p c).ew := State.emit_ew_congr (s := w.st) (t := w.popSet.st) rfl _ _ _ _ _
  have hst : w.popSet.st.emit .setRejected 5 (BitVec.ofNat 16 e.dest.val) (setDetail q.label q.entries.length false true)
      (portDetail p c) = (w.headRefused q e p c).st := by
    unfold Work.headRefused
    rw [State.emit_eq, hew, State.emitPortHeld_eq]
    rfl
  exact congrArg (fun st : State => Work.unqueue { w with st := st } q.entries) hst

theorem Work.rejectSet_rejects (w : Work) (q : QueuedSet) (e : SetEntry) (p : Port) (c : Dest) :
    w.rejects (w.rejectSet q e p c) q e p c := by
  have hmarks := Work.foldl_changeQueued (w.headRefused q e p c) (entryDests q.entries) (· - 1)
  have hdt : (w.headRefused q e p c).st.dt = w.st.dt := by
    unfold Work.headRefused
    rw [State.emitPortHeld_eq]
  have hrecord : ∀ d, (w.headRefused q e p c).st.record d = w.st.record d := State.record_congr (by rw [hdt])
  rw [Work.rejectSet_eq]
  refine ⟨fun d => (hmarks.record d).trans ?_, ⟨hmarks.marks.sorted, hmarks.marks.mem⟩, ?_, hmarks.flags⟩
  · rw [iterate_pred, hrecord]
  · obtain ⟨records, hframe⟩ := hmarks.frame
    have hst : ((w.headRefused q e p c).unqueue q.entries).st = { w.st.emitPortHeld q e p c with
        csa := { w.st.csa with queue := w.st.csa.queue.tail }, dt := { w.st.dt with records := records } } := by
      refine hframe.trans ?_
      rw [hdt]
      rfl
    rw [hst]

/-- A refused head set leaves the laws of the table. -/
theorem Work.rejects.tableLaw {v : Work} (k : w.rejects v q e p c) (h : w.st.tableLaw) (hqueue : w.st.csa.queue = q :: rest) :
    v.st.tableLaw := by
  have hframe := k.frame
  rw [hqueue, List.tail_cons, State.emitPortHeld_eq] at hframe
  have hcsa : v.st.csa = { w.st.csa with queue := rest } := by rw [hframe]
  have hre : v.st.re = w.st.re := by rw [hframe]
  have hports : v.st.dt.ports = w.st.dt.ports := by rw [hframe]
  have hiso : v.st.dt.isolated = w.st.dt.isolated := by rw [hframe]
  have hpu : v.st.pu = w.st.pu := by rw [hframe]
  have hslot : ∀ d, (v.st.record d).slot = (w.st.record d).slot := fun d => by rw [k.record]
  have hcur : ∀ d, (v.st.record d).curSrc = (w.st.record d).curSrc := fun d => by rw [k.record]
  have hbuilt : ∀ d, v.st.isBuilt d = w.st.isBuilt d := State.isBuilt_congr hpu
  have hof : ∀ d, v.st.slotOf d = w.st.slotOf d := fun d => State.slotOf_congr (hslot d) fun n _ => by rw [hre]
  have hinner := h.inner
  have hbound := h.bounded
  have hcore : v.st.coreLaw := hinner.core.kept hslot hcur hre hpu fun p => by rw [hports]
  refine State.tableLaw_of_parts ⟨hcore, fun d => ?_, fun hmap p' d => ?_, ⟨?_, ?_, ?_⟩⟩ ⟨?_, ?_, ?_, ?_⟩
    (State.marksLaw.pop h.marks hqueue (by rw [hcsa]) fun d => by rw [k.record])
    (h.apart.congr (by rw [hframe]) (by rw [hframe]) hpu fun hadopt => ?_)
  · have hold := hinner.dests d
    unfold State.destLaw at hold ⊢
    rw [hof, hbuilt, hpu, show v.st.forcedFor (v.st.record d).intentSrc = w.st.forcedFor (w.st.record d).intentSrc from by
      rw [k.record]; exact State.forcedFor_congr hiso _]
    refine ⟨hold.tosane.congr ?_ ?_ ?_ ?_ ?_ ?_ ?_, fun sl hsl => ?_⟩ <;> try rw [k.record]
    · exact fun _ => rfl
    · exact ⟨(hold.follows sl hsl).dims, (hold.follows sl hsl).brightens, (hold.follows sl hsl).waiting,
        (hold.follows sl hsl).toTarget, (hold.follows sl hsl).toDark⟩
  · rw [hports, hbuilt, k.record]
    exact hinner.claims (by unfold State.mapStands at hmap ⊢; rwa [hpu] at hmap) p' d
  · rw [hcsa]
    intro x hx
    obtain ⟨hid, hpos, hcount⟩ := hinner.serves.listed x hx
    refine ⟨hid, hpos, hcount.trans ?_⟩
    unfold State.servingCount
    rw [hre]
  · rw [hcsa]; exact hinner.serves.ids
  · intro d x hx
    rw [hcsa]
    unfold State.servesOf at hx
    rw [hof] at hx
    exact hinner.serves.serving d x hx
  · rw [hcsa]; exact hbound.openDests
  · rw [hcsa]; exact hbound.openBound
  · rw [hcsa]
    exact fun x hx => hbound.sets x (by rw [hqueue]; exact List.mem_cons_of_mem _ hx)
  · rw [hcsa]
    have := hbound.setBound
    rw [hqueue, List.length_cons] at this
    dsimp only
    omega
  · rw [hpu] at hadopt
    have := h.apart.adopting hadopt
    rw [hqueue] at this
    exact nomatch this

/-- The refusal ends as a request of its own. -/
theorem Work.rejects.finished {v : Work} (k : s.begin.rejects v q e p c) (hqueue : s.csa.queue = q :: rest) :
    v.finish none = { s.emitPortHeld q e p c with
      csa := { s.csa with queue := rest }
      dt := { s.dt with records := (v.finish none).dt.records, updates := (v.finish none).dt.updates } } := by
  have hframe := k.frame
  rw [show s.begin.st = s from rfl, hqueue, List.tail_cons] at hframe
  have hdue : ({ v.st.re with occasionDue := v.st.re.occasionDue || v.freed || v.raised } : RampEngine) = s.re := by
    rw [k.flags.1, k.flags.2, hframe, State.emitPortHeld_eq]
    show ({ s.re with occasionDue := s.re.occasionDue || false || false } : RampEngine) = s.re
    rw [Bool.or_false, Bool.or_false]
  show ({ v.st with
    dt := { v.st.dt with updates := (v.finish none).dt.updates }
    re := { v.st.re with occasionDue := v.st.re.occasionDue || v.freed || v.raised } } : State) = _
  rw [hdue]
  have hdt : ({ v.st.dt with updates := (v.finish none).dt.updates } : DestTable) =
      { s.dt with records := (v.finish none).dt.records, updates := (v.finish none).dt.updates } := by
    show _ = ({ s.dt with records := v.st.dt.records, updates := _ } : DestTable)
    conv_lhs => rw [hframe]
  rw [hdt, hframe, State.emitPortHeld_eq]

theorem Work.addsMarks.iff {v : Work} {ds : List Dest} (h : s.begin.addsMarks v ds) (d : Dest) : d ∈ v.marks ↔ d ∈ ds :=
  (h.mem List.Pairwise.nil d).trans (or_iff_right List.not_mem_nil)

theorem foldl_admitWanted_none (hwant : ∀ d, isLine d = true → (w.st.record d).wanted = false) (l : List Dest) :
    l.foldl Work.admitWanted w = w := by
  induction l with
  | nil => rfl
  | cons d l ih =>
    have hidle : w.admitWanted d = w := if_neg fun hor => by
      obtain ⟨hline, hw⟩ := Bool.and_eq_true_iff.1 hor
      exact nomatch (hwant d hline).symm.trans hw
    rw [List.foldl_cons, hidle, ih]

end Reject

/-- Settles O41. -/
theorem headWaitsOrIsRefused : Obligations.HeadWaitsOrIsRefused := by
  unfold Obligations.HeadWaitsOrIsRefused
  refine ⟨fun s entries => ?_, fun s q rest hdue hidle hqueue => ?_⟩
  · refine congrArg List.length (List.filter_congr fun e _ => ?_)
    unfold State.needsSlot atRest effectiveTarget State.intendedRecord
    dsimp only
    by_cases hline : isLine e.dest = true
    · by_cases hforced : s.forcedFor e.src = true
      · simp [hforced]
      · simp [hline, hforced]
    · simp [hline]
  · have hexec : ∀ v, Work.arbitrate (s.csa.queue.length + 1) s.begin = v → exec .arbiterOccasion s = .next v.close :=
      fun v hv => (exec_arbiterOccasion hdue hidle).trans (congrArg Host.Outcome.next (State.occasion_eq hv))
    refine ⟨fun hcheck hroom => ?_, fun e p c hrest hcheck hwant => ?_, fun e p c hcheck => ?_⟩
    · exact hexec s.begin (Work.arbitrate_waits hqueue hcheck hroom _)
    · subst hrest
      have hrejects := s.begin.rejectSet_rejects q e p c
      have hqueue' : (s.begin.rejectSet q e p c).st.csa.queue = [] := by
        rw [hrejects.frame]
        exact congrArg List.tail hqueue
      have harb : Work.arbitrate (s.csa.queue.length + 1) s.begin = s.begin.rejectSet q e p c := by
        rw [Work.arbitrate_rejects hqueue hcheck, hqueue]
        refine (Work.arbitrate_nil hqueue' _).trans (foldl_admitWanted_none (fun d hd => ?_) _)
        rw [hrejects.record]
        exact hwant d hd
      refine ⟨_, hexec _ harb, ?_⟩
      generalize s.begin.rejectSet q e p c = v at hrejects
      have hfin := hrejects.finished hqueue
      have hclose : v.close = { v.finish none with re := { s.re with occasionDue := false } } := by
        unfold Work.close
        rw [hrejects.frame, State.emitPortHeld_eq]
        rfl
      rw [hclose]
      refine ⟨?_, ?_, hrejects.record, fun f hf => ?_, ?_, ?_, ?_⟩
      · show (v.finish none).csa = _
        rw [hfin]
      · show (v.finish none).ew = _
        rw [hfin]
        rfl
      · exact Work.finish_listed ((hrejects.marks.iff f.dest).2 (List.mem_map_of_mem hf))
      · refine Work.finish_marksUpdates (s := s) (w := v) ?_ (hrejects.marks.sorted List.Pairwise.nil) fun d => ?_
        · rw [hrejects.frame]; rfl
        · exact (hrejects.marks.iff d).trans List.contains_iff_mem.symm
      · show (v.finish none).dt = _
        conv_lhs => rw [hfin]
      · conv_lhs => rw [hfin, State.emitPortHeld_eq]
        rw [hfin, State.emitPortHeld_eq]
    · have hrejects := s.begin.rejectSet_rejects q e p c
      have harb := Work.arbitrate_rejects (w := s.begin) hqueue hcheck s.csa.queue.length
      have hw : s.requests (s.begin.rejectSet q e p c).st := (State.requests.refl s).rejectSet (w := s.begin) q e p c
      generalize s.begin.rejectSet q e p c = w at hrejects harb hw
      have hfin := hrejects.finished hqueue
      have hlisted : ∀ d, d ∈ (w.finish none).dt.updates.map UpdateEntry.dest ↔
          d ∈ s.dt.updates.map UpdateEntry.dest ∨ d ∈ entryDests q.entries := fun d => by
        rw [← hrejects.marks.iff d]
        show d ∈ (w.marks.foldl (markUpdate none) w.st.dt.updates).map UpdateEntry.dest ↔ _
        rw [mem_foldl_markUpdate_iff, hrejects.frame]
        rfl
      have hlike : Work.alike (· ∈ entryDests q.entries) false false (w.finish none).begin w :=
        ⟨⟨w.st.cbp, w.st.dt.updates, w.st.re.occasionDue, rfl⟩, fun d => by
          rw [hrejects.marks.iff d]
          exact (or_iff_right List.not_mem_nil).symm, hrejects.flags.1, hrejects.flags.2⟩
      have hre : (w.finish none).re = s.re := by
        rw [hfin, State.emitPortHeld_eq]
      have hpu : (w.finish none).pu = s.pu := by
        rw [hfin, State.emitPortHeld_eq]
      have hcbp : (w.finish none).cbp = s.cbp := by
        rw [hfin, State.emitPortHeld_eq]
      have hlength : s.csa.queue.length = (w.finish none).csa.queue.length + 1 := by
        rw [hfin, hqueue]
        rfl
      rw [hlength] at harb
      refine ⟨w.finish none, _, _, hrejects.record, hlisted, ?_, hfin, hexec _ (by rw [hlength]; exact harb),
        (exec_arbiterOccasion (by rw [hre]; exact hdue) (by rw [hpu]; exact hidle)).trans
          (congrArg Host.Outcome.next (State.occasion_eq rfl)),
        hlike.resumes hw hcbp (hrejects.marks.sorted List.Pairwise.nil) hlisted _⟩
      refine Work.finish_marksUpdates (s := s) (w := w) (by rw [hw.dt]) (hrejects.marks.sorted List.Pairwise.nil) fun d => ?_
      exact (hrejects.marks.iff d).trans List.contains_iff_mem.symm

end Sys2Proof.Machine

/-! O42. -/

namespace Sys2Proof.Machine

/-- The table laws speak of the table, the slots, the change sets and what adoption and the exchange are at. -/
theorem State.tableLaw.sameTable {s t : State} (h : s.tableLaw) (hrecords : t.dt.records = s.dt.records)
    (hports : t.dt.ports = s.dt.ports) (hiso : t.dt.isolated = s.dt.isolated) (hslots : t.re.slots = s.re.slots)
    (hlist : t.re.list = s.re.list) (hcsa : t.csa = s.csa) (hpu : t.pu = s.pu) (hapart : t.apartLaw) : t.tableLaw := by
  refine State.tableLaw_of_parts (h.inner.congr hrecords hports hiso hslots hlist (by rw [hcsa]) (by rw [hcsa]) hpu)
    (by rw [hcsa]; exact h.bounded) (fun d => ?_) hapart
  rw [State.record_congr hrecords, hcsa]
  exact h.marks d

theorem Work.finish_tableLaw {w : Work} (h : w.st.tableLaw) (tag : Option Nat) : (w.finish tag).tableLaw :=
  h.sameTable rfl rfl rfl rfl rfl rfl rfl (h.apart.congr rfl rfl rfl h.apart.adopting)

section Rebase
variable {s s' t : State} {cut ended : Nat → Nat}

/-- Counts are taken of the listed sets and the event writer alone. -/
theorem State.counts.rebase (h : s.counts t cut ended) (hset : s'.csa.settling = s.csa.settling) (hew : s'.ew = s.ew) :
    s'.counts t cut ended where
  settling := by rw [h.settling, hset]
  raises := ⟨by rw [hew]; exact h.raises.writer, by rw [hew]; exact h.raises.queue, by rw [hew]; exact h.raises.dropped⟩
  room := by rw [hew, hset]; exact h.room
  recorded := by
    unfold State.settledRecord
    rw [hew, hset]
    exact h.recorded

/-- A set listed anew and records raised leave what has been counted off. -/
theorem State.countsOff.after {u : State} {cutD endedD : Dest → Bool} (h : s.countsOff t cutD endedD)
    (hset : ∃ fresh : List SettlingSet, u.csa.settling = t.csa.settling ++ fresh ∧
      ∀ x ∈ fresh, ∀ e ∈ s.csa.settling, x.id ≠ e.id)
    (hew : t.ew.queue <+: u.ew.queue) : s.countsOff u cutD endedD := by
  obtain ⟨fresh, hfresh, hids⟩ := hset
  intro e he
  obtain ⟨hmore, hlast⟩ := h e he
  refine ⟨fun hlt => ?_, fun heq => ?_⟩
  · rw [hfresh]
    exact List.mem_append_left _ (hmore hlt)
  · obtain ⟨hgone, hrecord⟩ := hlast heq
    refine ⟨fun hmem => ?_, fun hroom => hew.subset (hrecord hroom)⟩
    rw [hfresh, List.map_append, List.mem_append] at hmem
    obtain hmem | hmem := hmem
    · exact hgone hmem
    · obtain ⟨x, hx, hxe⟩ := List.mem_map.1 hmem
      exact hids x hx e he hxe

end Rebase

section Applied
variable {w : Work} {q : QueuedSet} {rest : List QueuedSet}

theorem Work.intended_frame (h : w.admitsSet q rest) : (w.intended q).st = { w.st with
    csa := { w.st.csa with queue := rest, nextSet := w.st.csa.nextSet + 1 }
    dt := { w.st.dt with records := (w.intended q).st.dt.records, ports := (w.intended q).st.dt.ports } } := by
  have hspec := w.intended_intends h.legal
  conv_lhs => rw [hspec.frame]
  show ({ w.st with csa := { w.st.csa with queue := w.st.csa.queue.tail, nextSet := _ }, dt := _ } : State) = _
  rw [h.queue]
  rfl

theorem Work.intended_servesOf (h : w.admitsSet q rest) (d : Dest) (x : Nat) :
    (w.intended q).st.servesOf d x = w.st.servesOf d x := by
  unfold State.servesOf
  rw [State.slotOf_congr (s := w.st) (w.intended_kept h.legal d).1 fun n _ => by rw [Work.intended_frame h]]

/-- The slots that an applied set takes from other sets count as interrupted there. -/
theorem Work.admitsSet.interrupts (h : w.admitsSet q rest) :
    w.st.interruptsSets (w.settled q).st fun d => (entryDests q.entries).contains d := by
  have hframe := Work.intended_frame h
  have hcounts := h.settles.counts.rebase (s' := w.st) (by rw [hframe]) (by rw [hframe])
  refine State.countsOff_of_counts h.law.core h.law.servesLaw hcounts (fun x => ?_) fun x => ?_
  · have hmap : (q.entries.map fun e => (w.intended q).st.servesOf e.dest x) =
        (entryDests q.entries).map fun d => w.st.servesOf d x := by
      unfold entryDests
      rw [List.map_map]
      exact List.map_congr_left fun e _ => Work.intended_servesOf h e.dest x
    rw [hmap, sum_map_eq h.legal.1]
    exact Finset.sum_congr rfl fun d _ => by simp
  · exact (Finset.sum_eq_zero fun d _ => if_neg Bool.false_ne_true).symm

theorem Work.applySet_servingCount (w : Work) (q : QueuedSet) (x : Nat) :
    (w.applySet q).st.servingCount x = (w.settled q).st.servingCount x := by
  unfold State.servingCount
  rw [(w.applySet_dt q).2.1]

/-- What applying a set does to the settling sets and the event queue (R41). -/
theorem Work.applySet_account (w : Work) (q : QueuedSet) :
    let id := w.st.csa.nextSet
    let t := (w.applySet q).st
    let u := (w.settled q).st
    (t.servingCount id ≠ 0 → t.csa.settling = u.csa.settling ++ [q.settlingAs id (t.servingCount id)] ∧ t.ew = u.ew) ∧
      (t.servingCount id = 0 → t.csa.settling = u.csa.settling ∧ t.ew = (u.emit .setSettled 0 (BitVec.ofNat 16 q.label.toNat)
        (BitVec.ofNat 32 q.entries.length) 0#32).ew) := by
  intro id t u
  have hcount : t.servingCount id = u.servingCount id := w.applySet_servingCount q id
  have happly : t = ((w.settled q).account id q).st := congrArg Work.st (w.applySet_eq q)
  rw [hcount, happly]
  refine ⟨fun h => ?_, fun h => ?_⟩
  · rw [Work.account_some h]
    exact ⟨rfl, rfl⟩
  · rw [Work.account_none h]
    exact ⟨by rw [Work.emit, State.emit_eq], rfl⟩

theorem Work.admitsSet.counted (h : w.admitsSet q rest) :
    w.st.interruptsSets (w.applySet q).st fun d => (entryDests q.entries).contains d := by
  obtain ⟨hlisted, hsettled⟩ := w.applySet_account q
  refine h.interrupts.after ?_ ?_
  · by_cases hzero : (w.applySet q).st.servingCount w.st.csa.nextSet = 0
    · exact ⟨[], by rw [(hsettled hzero).1, List.append_nil], fun _ hx => absurd hx List.not_mem_nil⟩
    · refine ⟨_, (hlisted hzero).1, fun x hx e he heq => ?_⟩
      obtain rfl := List.mem_singleton.1 hx
      exact absurd (h.law.settling e he).1 (by rw [← heq]; exact Nat.lt_irrefl _)
  · by_cases hzero : (w.applySet q).st.servingCount w.st.csa.nextSet = 0
    · rw [(hsettled hzero).2]
      exact (State.emit_raises _ _ _ _ _ _).queue
    · rw [(hlisted hzero).2]

theorem Work.admitsSet.settledIds (h : w.admitsSet q rest) :
    ((w.settled q).st.csa.settling.map SettlingSet.id).Sublist (w.st.csa.settling.map SettlingSet.id) := by
  have hids := (w.settled_reworks q).ids
  rw [Work.intended_frame h] at hids
  exact hids

theorem Work.admitsSet.raises (h : w.admitsSet q rest) : w.st.onlyRaises (w.settled q).st := by
  have hraised := (w.settled_reworks q).raised.toonlyRaises
  have hew : (w.intended q).st.ew = w.st.ew := by rw [Work.intended_frame h]
  exact ⟨by rw [← hew]; exact hraised.writer, by rw [← hew]; exact hraised.queue, by rw [← hew]; exact hraised.dropped⟩

/-- The accounting of an applied set, in the state that its request leaves. -/
theorem Work.admitsSet.accounted (h : w.admitsSet q rest) :
    let id := w.st.csa.nextSet
    let t := (w.applySet q).st
    (0 < t.servingCount id → ∃ before, (before.map SettlingSet.id).Sublist (w.st.csa.settling.map SettlingSet.id) ∧
      t.csa.settling = before ++ [{ id := id, label := q.label, entries := q.entries.length
                                    remaining := t.servingCount id, interrupted := 0 }]) ∧
    (t.servingCount id = 0 → (t.csa.settling.map SettlingSet.id).Sublist (w.st.csa.settling.map SettlingSet.id) ∧
      ∃ u : State, w.st.onlyRaises u ∧
        t.ew = (u.emit .setSettled 0 (BitVec.ofNat 16 q.label.toNat) (BitVec.ofNat 32 q.entries.length) 0#32).ew) := by
  obtain ⟨hlisted, hsettled⟩ := w.applySet_account q
  refine ⟨fun hpos => ⟨_, h.settledIds, (hlisted hpos.ne').1⟩, fun hzero => ⟨?_, _, h.raises, (hsettled hzero).2⟩⟩
  rw [(hsettled hzero).1]
  exact h.settledIds

end Applied

end Sys2Proof.Machine

/-! O42. -/

namespace Sys2Proof.Machine

section Lone
variable {s : State} {w : Work} {q : QueuedSet} {rest : List QueuedSet}

/-- The wanted destinations admitted behind an applied set leave its counts alone. -/
theorem Work.admissions.servingCount {v : Work} {l : List Dest} (k : w.admissions v l) (h : w.st.innerLaw none) {id : Nat}
    (hid : w.st.servingCount id ≠ 0 → id ∈ w.st.csa.settling.map SettlingSet.id)
    (hnot : w.st.servingCount id = 0 → id ∉ w.st.csa.settling.map SettlingSet.id) :
    v.st.servingCount id = w.st.servingCount id := by
  have hset := k.sets.1
  by_cases hzero : w.st.servingCount id = 0
  · rw [hzero, k.law.core.servingCount_eq]
    refine Finset.sum_eq_zero fun d _ => by_contra fun hd => ?_
    obtain hmem | hmem := k.law.serves.serving d id hd
    · exact hnot hzero (by rwa [hset] at hmem)
    · exact nomatch hmem
  · obtain ⟨e, he, rfl⟩ := List.mem_map.1 (hid hzero)
    exact ((k.law.serves.listed e (by rw [hset]; exact he)).2.2).symm.trans (h.serves.listed e he).2.2

theorem Work.admitsSet.listedIff (h : w.admitsSet q rest) :
    ((w.applySet q).st.servingCount w.st.csa.nextSet ≠ 0 →
      w.st.csa.nextSet ∈ (w.applySet q).st.csa.settling.map SettlingSet.id) ∧
    ((w.applySet q).st.servingCount w.st.csa.nextSet = 0 →
      w.st.csa.nextSet ∉ (w.applySet q).st.csa.settling.map SettlingSet.id) := by
  obtain ⟨hlisted, hsettled⟩ := w.applySet_account q
  refine ⟨fun hne => ?_, fun hzero hmem => ?_⟩
  · rw [(hlisted hne).1, List.map_append]
    exact List.mem_append_right _ List.mem_cons_self
  · rw [(hsettled hzero).1] at hmem
    obtain ⟨e, he, heq⟩ := List.mem_map.1 (h.settledIds.subset hmem)
    exact absurd (h.law.settling e he).1 (by rw [heq]; exact Nat.lt_irrefl _)

/-- The state in which the first `i` entries of the set applied have been settled. -/
def Work.entriesSettled (w : Work) (q : QueuedSet) (i : Nat) : State :=
  ((q.entries.take i).foldl (Work.settleEntry w.st.csa.nextSet) (w.intended q)).st

theorem Work.entriesSettled_all (w : Work) (q : QueuedSet) : w.entriesSettled q q.entries.length = (w.settled q).st := by
  unfold Work.entriesSettled
  rw [List.take_length]
  rfl

theorem Work.admitsSet.run (h : w.admitsSet q rest) (i : Nat) :
    (w.entriesSettled q i).midLaw w.st.csa.nextSet (q.entries.drop i) ∧ ∀ e, q.entries[i]? = some e →
      (w.entriesSettled q i).settlesEntry (w.entriesSettled q (i + 1)) w.st.csa.nextSet e :=
  Work.settleEntry_run h.mid h.legal.1 i

/-- A set applied that the arbiter finds alone. -/
theorem Work.applied_lone (h : s.begin.admitsSet q []) (hdue : s.re.occasionDue = true) :
    ∃ v : Work, exec .arbiterOccasion s = .next v.close ∧ s.requests v.st ∧
      (s.begin.applySet q).admissions v (s.begin.applySet q).st.wantedDests ∧
      v.st.csa = (s.begin.applySet q).st.csa := by
  have hlaw := h.tableLaw
  have hpu : (s.begin.applySet q).st.pu = s.pu := (s.begin.applySet_outside q).pu
  have hidle : (s.begin.applySet q).st.pu.adoption = none := by rw [hpu]; exact h.idle
  have hqueue : (s.begin.applySet q).st.csa.queue = [] := by rw [Work.applySet_csa h]
  have harb : Work.arbitrate (s.csa.queue.length + 1) s.begin =
      (s.begin.applySet q).st.wantedDests.foldl Work.admitWanted (s.begin.applySet q) := by
    rw [Work.arbitrate_applies h.queue h.check h.room, show s.csa.queue = [q] from h.queue]
    exact Work.arbitrate_empty hlaw.inner hidle hqueue
  have hadmit := Work.foldl_admitWanted (s.begin.applySet q).st.wantedDests hlaw.inner hidle
    (s.begin.applySet q).st.wantedDests_sorted fun d => State.mem_wantedDests.1
  have hreworks := Work.foldl_admitWanted_reworks (s.begin.applySet q).st.wantedDests (State.reworks.refl (s.begin.applySet q).st)
  refine ⟨_, (exec_arbiterOccasion hdue h.idle).trans (congrArg Host.Outcome.next (State.occasion_eq harb)), ?_, hadmit, ?_⟩
  · rw [← harb]
    exact (State.requests.refl s).arbitrate (w := s.begin) _
  · rw [hreworks.sets, hadmit.sets.1]

end Lone

/-! ### A set with others behind it -/

section Applied
variable {s : State} {q : QueuedSet} {rest : List QueuedSet}

/-- The state that applying the head set would leave as a request of its own. -/
def State.applied (s : State) (q : QueuedSet) : State := (s.begin.applySet q).finish none

theorem Work.admitsSet.requests (_ : s.begin.admitsSet q rest) : s.requests (s.begin.applySet q).st :=
  (State.requests.refl s).applySet (w := s.begin) q

theorem Work.admitsSet.begun (h : s.begin.admitsSet q rest) :
    (∀ e ∈ q.entries, (s.begin.entriesSettled q 0).record e.dest = { s.record e.dest with
      intentSrc := e.src, intentAttn := e.attn, forced := s.forcedFor e.src, queued := (s.record e.dest).queued - 1 }) ∧
    (∀ d, d ∉ entryDests q.entries → (s.begin.entriesSettled q 0).record d = s.record d) ∧
    (s.begin.entriesSettled q 0).re = s.re := by
  have hspec := s.begin.intended_intends h.legal
  refine ⟨hspec.record, hspec.others, ?_⟩
  show (s.begin.intended q).st.re = s.re
  rw [Work.intended_frame h]
  rfl

theorem Work.admitsSet.holders (h : s.begin.admitsSet q rest) (i : Nat) (p : Port) (d : Dest) :
    (s.begin.entriesSettled q i).dt.ports[p].holder = some d ↔ ((s.begin.entriesSettled q i).record d).curSrc = .port p := by
  have hmid := (h.run i).1
  rw [hmid.core.holders (State.mapStands_of_idle hmid.idle) p d]
  exact and_iff_right (State.isBuilt_of_idle hmid.idle d)

theorem Work.admitsSet.applied_due (h : s.begin.admitsSet q rest) (hdue : s.re.occasionDue = true) :
    (s.applied q).re.occasionDue = true := by
  show ((s.begin.applySet q).st.re.occasionDue || _ || _) = true
  rw [h.requests.re, hdue]
  rfl

theorem Work.admitsSet.applied_re (h : s.begin.admitsSet q rest) (hdue : s.re.occasionDue = true) :
    let last := s.begin.entriesSettled q q.entries.length
    (∀ d, (s.applied q).record d = last.record d) ∧ (s.applied q).re = { s.re with
      slots := last.re.slots, list := last.re.list, loads := (s.applied q).re.loads, occasionDue := true } := by
  intro last
  have hlast : last = (s.begin.settled q).st := s.begin.entriesSettled_all q
  have hre := h.requests.re
  rw [hlast]
  refine ⟨fun d => s.begin.applySet_record q d, ?_⟩
  show ({ (s.begin.applySet q).st.re with occasionDue := (s.applied q).re.occasionDue } : RampEngine) = _
  rw [h.applied_due hdue, ← (s.begin.applySet_dt q).2.1]
  conv_lhs => rw [hre]
  rfl

theorem Work.admitsSet.applied_listed (h : s.begin.admitsSet q rest) (d : Dest) :
    d ∈ (s.applied q).dt.updates.map UpdateEntry.dest ↔
      d ∈ s.dt.updates.map UpdateEntry.dest ∨ d ∈ entryDests q.entries := by
  show d ∈ ((s.begin.applySet q).marks.foldl (markUpdate none) (s.begin.applySet q).st.dt.updates).map UpdateEntry.dest ↔ _
  rw [mem_foldl_markUpdate_iff, h.marks.2, h.requests.dt]
  exact or_congr_right (or_iff_right List.not_mem_nil)

theorem Work.admitsSet.applied_marks (h : s.begin.admitsSet q rest) :
    s.marksUpdates (s.applied q) none fun d => (entryDests q.entries).contains d := by
  refine Work.finish_marksUpdates (s := s) (w := s.begin.applySet q) (by rw [h.requests.dt]) (h.marks.1 List.Pairwise.nil) fun d => ?_
  rw [h.marks.2, List.contains_iff_mem]
  exact or_iff_right List.not_mem_nil

theorem Work.admitsSet.applied_sets (h : s.begin.admitsSet q rest) : (s.applied q).csa.queue = rest ∧
    (s.applied q).csa.openSet = s.csa.openSet ∧ (s.applied q).csa.nextSet = s.csa.nextSet + 1 := by
  have hall := Work.applySet_csa h
  refine ⟨?_, ?_, ?_⟩
  · show (s.begin.applySet q).st.csa.queue = rest
    rw [hall]
  · show (s.begin.applySet q).st.csa.openSet = s.csa.openSet
    rw [hall]
    rfl
  · show (s.begin.applySet q).st.csa.nextSet = s.csa.nextSet + 1
    rw [hall]
    rfl

theorem Work.admitsSet.applied_counted (h : s.begin.admitsSet q rest) :
    s.interruptsSets (s.applied q) fun d => (entryDests q.entries).contains d :=
  h.counted.after ⟨[], (List.append_nil _).symm, fun _ hx => absurd hx List.not_mem_nil⟩ List.prefix_rfl

theorem Work.admitsSet.applied_outside (h : s.begin.admitsSet q rest) : s.keepsOutsideTable (s.applied q) :=
  h.requests.outside.trans (Work.finish_keepsOutsideTable _ none)

theorem Work.admitsSet.applied_raises (h : s.begin.admitsSet q rest) : s.onlyRaises (s.applied q) :=
  ⟨h.requests.raised.writer, h.requests.raised.queue, h.requests.raised.dropped⟩

/-- What a request has left, beside the state in which it ends. -/
theorem Work.alike_finished (w : Work) {M : Dest → Prop} (hM : ∀ d, d ∈ w.marks ↔ M d) :
    Work.alike M w.freed w.raised (w.finish none).begin w :=
  ⟨⟨w.st.cbp, w.st.dt.updates, w.st.re.occasionDue, rfl⟩, fun d => (hM d).trans (or_iff_right List.not_mem_nil).symm,
    (Bool.false_or _).symm, (Bool.false_or _).symm⟩

/-- The occasion goes on from the applied set as one begun on the state that it leaves. -/
theorem Work.admitsSet.applied_resumes (h : s.begin.admitsSet q rest) (hdue : s.re.occasionDue = true) : ∃ t v : State,
    exec .arbiterOccasion s = .next t ∧ exec .arbiterOccasion (s.applied q) = .next v ∧
      (∀ d, d ∈ t.dt.updates.map UpdateEntry.dest ↔ d ∈ v.dt.updates.map UpdateEntry.dest) ∧
      (s.marksUpdates t none fun d => (v.dt.updates.map UpdateEntry.dest).contains d) ∧
      t = { v with dt := { v.dt with updates := t.dt.updates } } := by
  have hlike : Work.alike (· ∈ entryDests q.entries) (s.begin.applySet q).freed (s.begin.applySet q).raised
      (s.applied q).begin (s.begin.applySet q) :=
    (s.begin.applySet q).alike_finished fun d => (h.marks.2 d).trans (or_iff_right List.not_mem_nil)
  have hlength : s.csa.queue.length = (s.applied q).csa.queue.length + 1 := by
    rw [h.applied_sets.1, show s.csa.queue = q :: rest from h.queue, List.length_cons]
  have harb := Work.arbitrate_applies h.queue h.check h.room s.csa.queue.length
  have hadopt : (s.applied q).pu.adoption = none := by rw [h.applied_outside.pu]; exact h.idle
  refine ⟨_, _, (exec_arbiterOccasion hdue h.idle).trans (congrArg Host.Outcome.next (State.occasion_eq harb)),
    (exec_arbiterOccasion (h.applied_due hdue) hadopt).trans (congrArg Host.Outcome.next (State.occasion_eq rfl)), ?_⟩
  rw [hlength]
  exact hlike.resumes h.requests h.requests.outside.cbp (h.marks.1 List.Pairwise.nil) h.applied_listed _

end Applied

/-- Settles O42. A set alone is applied and the wanted destinations have their turns after it; behind a set with others
queued the occasion goes on as one of its own. -/
theorem setAppliedWhole : Obligations.SetAppliedWhole := by
  unfold Obligations.SetAppliedWhole
  refine ⟨fun s q hlaw hdue hidle hqueue hcheck hroom => ?_, fun s q rest hlaw hdue hidle hqueue hcheck hroom => ?_⟩
  · have h : s.begin.admitsSet q [] := ⟨hlaw, hidle, hqueue, hcheck, hroom⟩
    obtain ⟨v, hexec, hreq, hadmit, hcsa⟩ := Work.applied_lone h hdue
    obtain ⟨hlisted, hsettled⟩ := h.accounted
    have hmark := h.marks
    have hcount := hadmit.servingCount h.tableLaw.inner h.listedIff.1 h.listedIff.2
    have hall := Work.applySet_csa h
    have hown : ∀ d, d ∈ entryDests q.entries → v.st.record d = (s.begin.applySet q).st.record d := fun d hd =>
      hadmit.others d fun hmem => by
        obtain ⟨e, he, rfl⟩ := List.mem_map.1 hd
        have hwant := State.mem_wantedDests.1 hmem
        rw [(h.named he).1] at hwant
        exact nomatch hwant
    refine ⟨_, hexec, ?_, ?_, fun e he => ?_, ?_, fun hpos => ?_, fun hzero => ?_, ?_, fun d hd => ?_, ?_, hreq.dt_occasion,
      ⟨hreq.keepsTicks_occasion, rfl⟩, hreq.outside_occasion, hreq.raised.writer, hreq.raised.queue, hreq.raised.dropped⟩
    · show v.st.csa.queue = []
      rw [hcsa, hall]
    · show v.st.csa.openSet = _
      rw [hcsa, hall]
      rfl
    · have hd := List.mem_map_of_mem (f := SetEntry.dest) he
      obtain ⟨hrecord, hrest, hdirect, hslot⟩ := h.named he
      rw [Work.close_record, hown e.dest hd]
      refine ⟨?_, fun hor => ?_, hrest, fun n hn => ?_, Work.finish_listed ((hadmit.marks _).2 (.inl ((hmark.2 _).2 (.inr hd))))⟩
      · rw [hrecord]
        exact ⟨rfl, rfl, rfl, rfl, rfl, rfl⟩
      · have hr := hdirect hor
        have hsame : effectiveTarget e.dest ((s.begin.applySet q).st.record e.dest) =
            effectiveTarget e.dest (s.begin.st.intendedFor e) := by rw [hr]; rfl
        rw [hsame, hr]
        exact ⟨rfl, rfl, rfl⟩
      · obtain ⟨sl, hsl, hserves⟩ := hslot n hn
        exact ⟨sl, (hadmit.held n (by rw [hsl]; exact Option.some_ne_none sl)).trans hsl, hserves⟩
    · show v.st.csa.nextSet = _
      rw [hcsa, hall]
      rfl
    · obtain ⟨before, -, hbefore⟩ := hlisted (by rw [← hcount]; exact hpos)
      refine ⟨before, ?_⟩
      show v.st.csa.settling = before ++ [{ id := _, label := _, entries := _, remaining := v.st.servingCount _, interrupted := 0 }]
      rw [hcsa, show v.st.servingCount s.csa.nextSet = _ from hcount]
      exact hbefore
    · obtain ⟨-, u, hu, hew⟩ := hsettled (by rw [← hcount]; exact hzero)
      exact ⟨u, hu, hadmit.sets.2.trans hew⟩
    · exact State.countsOff.after h.counted ⟨[], by
        show v.st.csa.settling = _
        rw [hcsa, List.append_nil], fun _ hx => absurd hx List.not_mem_nil⟩ (by
          show _ <+: v.st.ew.queue
          rw [hadmit.sets.2])
    · rw [Work.close_record, hadmit.record, h.unnamed hd]
      exact ⟨rfl, rfl, rfl, rfl, rfl⟩
    · refine Work.finish_marksUpdates (s := s) (w := v) (by rw [hreq.dt]) (hadmit.sorted (hmark.1 List.Pairwise.nil)) fun d => ?_
      rw [hadmit.marks, hmark.2, Bool.or_eq_true, List.contains_iff_mem, Bool.and_eq_true, Bool.not_eq_true',
        State.mem_wantedDests, Work.close_record, show s.begin.marks = [] from rfl, or_iff_right List.not_mem_nil]
      by_cases hd : d ∈ entryDests q.entries
      · exact iff_of_true (.inl hd) (.inl hd)
      · rw [h.unnamed hd]
        rfl
  · have h : s.begin.admitsSet q rest := ⟨hlaw, hidle, hqueue, hcheck, hroom⟩
    obtain ⟨hnamed, hothers, hre⟩ := h.begun
    obtain ⟨hqueue', hopen, hnext⟩ := h.applied_sets
    obtain ⟨t, v, ht, hv, hres⟩ := h.applied_resumes hdue
    exact ⟨s.begin.entriesSettled q, s.applied q, t, v, hnamed, hothers, hre, fun i _ => h.holders i, fun i => (h.run i).2,
      h.applied_re hdue, h.applied_listed, h.applied_marks, ⟨hqueue', hopen, hnext, h.accounted⟩, h.applied_counted,
      Work.finish_tableLaw h.tableLaw none, h.applied_outside, h.applied_raises, h.requests.dt_occasion, ht, hv, hres⟩

end Sys2Proof.Machine

/-! The swap of an exchange (R59, R116). -/

namespace Sys2Proof.Machine

/-! ### The sources that path words give (R25) -/

theorem legalSource_of_pathSource {d : Dest} {w : Word} {src : Source} (h : pathSource d w = some src)
    (huturn : isUturn d src = false) : legalSource d src := by
  cases hline : isLine d with
  | true =>
    rw [pathSource_of_line hline] at h
    cases src with
    | none => trivial
    | express k => exact ⟨hline, fun hk => absurd (isUturn_iff.2 ⟨hline, congrArg Source.express hk⟩) (by rw [huturn]; exact nofun)⟩
    | port p => exact hline
    | drop k m =>
      unfold lineSource at h
      split at h
      all_goals first | cases h | (split at h <;> cases h)
  | false =>
    rw [pathSource_of_drop hline] at h
    unfold dropSource at h
    split at h
    · obtain rfl := Option.some.inj h
      trivial
    · split at h
      · split at h
        · obtain rfl := Option.some.inj h
          exact hline
        · exact nomatch h
      · exact nomatch h

section Around
variable {w v u x : Work} {d : Dest} {l : List Dest} {record : Dest → DestRecord} {content : Dest → Option RampSlot}
  {r : DestRecord} {q : Option RampSlot} {one all : Bool} {c e c' e' : Nat → Nat}

/-- A request that works on `d`, runs through other destinations and ends on `d`. -/
theorem Work.spans.around (hnot : d ∉ l) (h : w.makes v d r q one c e) (hre : w.st.reworks v.st)
    (k : v.spans u l record content all c' e')
    (m : u.makes x d (record d) (content d) false (fun _ => 0) fun _ => 0) (hre' : u.st.reworks x.st) (hmark : d ∈ x.marks) :
    w.spans x (d :: l) record content (one || all) (fun id => c id + c' id) fun id => e id + e' id where
  core := m.core
  reworks := (hre.trans k.reworks).trans hre'
  record := fun y hy => by
    obtain rfl | hy := List.mem_cons.1 hy
    · exact m.record
    · exact (m.others y fun hyd => hnot (hyd ▸ hy)).trans (k.record y hy)
  content := fun y hy => by
    obtain rfl | hy := List.mem_cons.1 hy
    · exact m.content
    · exact (m.toacts.slotOf y fun hyd => hnot (hyd ▸ hy)).trans (k.content y hy)
  others := fun y hy => by
    obtain ⟨hyd, hyl⟩ := not_or.1 (mt List.mem_cons.2 hy)
    exact (m.others y hyd).trans ((k.others y hyl).trans (h.others y hyd))
  slotOf := fun y hy => by
    obtain ⟨hyd, hyl⟩ := not_or.1 (mt List.mem_cons.2 hy)
    exact (m.toacts.slotOf y hyd).trans ((k.slotOf y hyl).trans (h.toacts.slotOf y hyd))
  claims := fun p => (m.claims p).trans ((k.claims p).trans (h.claims p))
  sorted := m.sorted ∘ k.sorted ∘ h.sorted
  marks := fun y => by
    refine ⟨fun hy => ?_, fun hy => ?_⟩
    · obtain hy | rfl := m.only y hy
      · obtain hy | hy := (k.marks y).1 hy
        · exact (h.only y hy).imp_right fun hyd => List.mem_cons.2 (.inl hyd)
        · exact .inr (List.mem_cons_of_mem _ hy)
      · exact .inr List.mem_cons_self
    · obtain hy | hy := hy
      · exact m.mono y ((k.marks y).2 (.inl (h.mono y hy)))
      · obtain rfl | hy := List.mem_cons.1 hy
        · exact hmark
        · exact m.mono y ((k.marks y).2 (.inr hy))
  frees := by
    have hall := (h.frees.trans k.frees).trans m.frees
    rwa [Bool.or_false] at hall
  counts := (h.counts.trans k.counts).trans m.counts

end Around

section Swap
variable {s : State} {w : Work} {d : Dest} {src : Source} {attn : Attn}

/-- What displacement makes of a holder's record and of its slot's content (R59). -/
def DestRecord.displaced (d : Dest) (r : DestRecord) (held : Option RampSlot) (claimed : Bool) :
    DestRecord × Option RampSlot :=
  ({ r with curSrc := .none, curAttn := dark } : DestRecord).reevaluated d held claimed

/-- What a swap leaves of each of its destinations. -/
def State.swapLeft (s : State) (d : Dest) (src : Source) (attn : Attn) (c : Dest) : DestRecord × Option RampSlot :=
  if c = d then
    (({ s.record d with intentSrc := src, intentAttn := attn, forced := s.forcedFor src } : DestRecord).direct d, none)
  else (s.record c).displaced c (s.slotOf c) (s.otherHolder c (s.record c).intentSrc).isSome

/-- The destinations of a swap. -/
def State.swapDests (s : State) (d : Dest) (src : Source) : List Dest := d :: (s.otherHolder d src).toList

theorem State.otherHolder_eq_some_iff {c : Dest} : s.otherHolder d src = some c ↔
    c ≠ d ∧ ∃ p, src = .port p ∧ s.dt.ports[p].holder = some c := by
  unfold State.otherHolder
  split
  · next p =>
    split
    · next f hf =>
      split
      · next hfd =>
        refine ⟨nofun, fun ⟨hc, p', hp, he⟩ => ?_⟩
        obtain rfl := Source.port.inj hp
        exact absurd ((Option.some.inj (hf.symm.trans he)).symm.trans hfd) hc
      · next hfd =>
        refine ⟨fun he => ?_, fun ⟨hc, p', hp, he⟩ => ?_⟩
        · obtain rfl := Option.some.inj he
          exact ⟨hfd, p, rfl, hf⟩
        · obtain rfl := Source.port.inj hp
          exact hf.symm.trans he
    · next hf =>
      refine ⟨nofun, fun ⟨hc, p', hp, he⟩ => ?_⟩
      obtain rfl := Source.port.inj hp
      exact nomatch hf.symm.trans he
  all_goals exact ⟨nofun, fun ⟨_, _, hp, _⟩ => nomatch hp⟩

theorem State.swapDests_nodup (s : State) (d : Dest) (src : Source) : (s.swapDests d src).Nodup := by
  unfold State.swapDests
  cases hc : s.otherHolder d src with
  | none => exact List.nodup_singleton d
  | some c =>
    have hne := (State.otherHolder_eq_some_iff.1 hc).1
    simp [hne.symm]

/-- Taking a destination off its port leaves who else holds a port as it was. -/
theorem Work.writeCurrent_otherHolder (h : w.st.coreLaw) (hidle : w.st.pu.adoption = none) (a : Attn) (wanted : Source) :
    (w.writeCurrent d .none a).st.otherHolder d wanted = w.st.otherHolder d wanted := by
  refine Option.ext fun c => ?_
  rw [State.otherHolder_eq_some_iff, State.otherHolder_eq_some_iff]
  refine and_congr_right fun hc => exists_congr fun p => and_congr_right fun _ => ?_
  rw [Work.writeCurrent_port]
  dsimp only
  rw [if_neg (c := Source.none = .port p) nofun]
  split
  · next hp =>
    refine iff_of_false nofun fun he => hc ?_
    have hown := (h.holders (State.mapStands_of_idle hidle) p d).2 ⟨State.isBuilt_of_idle hidle d, hp⟩
    exact Option.some.inj (he.symm.trans hown)
  · rfl

/-- The first steps of a swap, on its own destination (R116, steps 3 to 6). -/
def Work.swapBegun (w : Work) (d : Dest) (src : Source) : Work :=
  (w.cancelSlot d).setRecord d { (w.cancelSlot d).st.record d with wanted := false, forced := (w.cancelSlot d).st.forcedFor src }

theorem Work.swap_eq (w : Work) (d : Dest) (src : Source) (attn : Attn) : w.swap d src attn =
    let u := (((w.writeIntent d src attn).swapBegun d src).displaceHolder d src)
    u.writeCurrent d src (effectiveTarget d (u.st.record d)) := rfl

theorem Work.cancelSlot_forcedFor (w : Work) (d : Dest) (src : Source) :
    (w.cancelSlot d).st.forcedFor src = w.st.forcedFor src :=
  State.forcedFor_congr (by rw [((State.reworks.refl w.st).cancelSlot (w := w) d).dt]) src

theorem Work.swapBegun_makes (h : w.st.coreLaw) (hl : w.st.setsListed) (d : Dest) (src : Source) :
    w.makes (w.swapBegun d src) d { w.st.record d with slot := none, wanted := false, forced := w.st.forcedFor src } none false
      (endedOf (w.st.slotOf d) none) (fun _ => 0) := by
  have hcancel := Work.cancelSlot_makes h hl d
  have hset := Work.setRecord_makes (w := w.cancelSlot d) (d := d)
    (r := { (w.cancelSlot d).st.record d with wanted := false, forced := (w.cancelSlot d).st.forcedFor src })
    hcancel.core (hcancel.listed hl) rfl rfl
  refine (hcancel.before hset).as ?_ hcancel.content
  rw [hcancel.record, Work.cancelSlot_forcedFor]

theorem Work.swapBegun_reworks (w : Work) (d : Dest) (src : Source) : w.st.reworks (w.swapBegun d src).st :=
  ((State.reworks.refl w.st).cancelSlot (w := w) d).setRecordIn rfl rfl

/-- The holder displaced, where there is one (R116, step 7). -/
theorem Work.displaceHolder_eq (w : Work) (d : Dest) (src : Source) :
    w.displaceHolder d src = (w.st.otherHolder d src).toList.foldl Work.displace w := by
  unfold Work.displaceHolder
  split <;> next h => rw [h] <;> rfl

theorem Work.displace_marked (w : Work) (d : Dest) (h : w.st.coreLaw) (hl : w.st.setsListed) (hbuilt : w.st.isBuilt d = true) :
    d ∈ (w.displace d).marks := by
  have hwrite := Work.writeCurrent_makes h hl hbuilt (State.otherHolder_none w.st d) dark
  have hmark := w.writeCurrent_marked d .none dark
  have hrun := Work.reevaluate_makes (d := d) hwrite.core (hwrite.listed hl) ((hwrite.isBuilt d).trans hbuilt) (by
    rw [hwrite.record]
    exact fun _ _ _ => rfl)
  have hmarks : (w.displace d).marks = ((w.writeCurrent d .none dark).reevaluate d).marks := by
    unfold Work.displace Work.reevaluate
    dsimp only
    cases ((w.writeCurrent d .none dark).st.record d).slot <;> rfl
  rw [hmarks]
  exact hrun.mono d hmark

end Swap

end Sys2Proof.Machine

/-! What a swap leaves of the table. -/

namespace Sys2Proof.Machine

section Intent
variable {w : Work} {d c : Dest} {src : Source} {attn : Attn}

/-- What a write of an intent leaves as it was. -/
structure Work.rewritesIntent (w v : Work) (d : Dest) (src : Source) (attn : Attn) : Prop where
  own : v.st.record d = { w.st.record d with intentSrc := src, intentAttn := attn }
  others : ∀ c, c ≠ d → v.st.record c = w.st.record c
  holders : ∀ p : Port, v.st.dt.ports[p].holder = w.st.dt.ports[p].holder
  claimants : ∀ p : Port, v.st.dt.ports[p].claimant =
    claimantAfter w.st.dt.ports[p].claimant (w.st.record d).intentSrc src d p
  frame : v = { w with st := { w.st with dt := { w.st.dt with records := v.st.dt.records, ports := v.st.dt.ports } } }

theorem Work.writeIntent_rewrites (w : Work) (d : Dest) (src : Source) (attn : Attn) :
    w.rewritesIntent (w.writeIntent d src attn) d src attn := by
  obtain ⟨ports, hwrite, hports⟩ := w.writeIntent_spec d src attn
  rw [hwrite]
  exact ⟨State.record_setRecord_same _ _ _, fun c hc => State.record_setRecord_other _ _ hc, fun p => (hports p).1,
    fun p => (hports p).2, rfl⟩

variable {v : Work}

theorem Work.rewritesIntent.re (k : w.rewritesIntent v d src attn) : v.st.re = w.st.re := by rw [k.frame]

theorem Work.rewritesIntent.pu (k : w.rewritesIntent v d src attn) : v.st.pu = w.st.pu := by rw [k.frame]

theorem Work.rewritesIntent.csa (k : w.rewritesIntent v d src attn) : v.st.csa = w.st.csa := by rw [k.frame]

theorem Work.rewritesIntent.isolated (k : w.rewritesIntent v d src attn) : v.st.dt.isolated = w.st.dt.isolated := by rw [k.frame]

theorem Work.rewritesIntent.kept (k : w.rewritesIntent v d src attn) (c : Dest) :
    (v.st.record c).slot = (w.st.record c).slot ∧ (v.st.record c).curSrc = (w.st.record c).curSrc := by
  by_cases hc : c = d
  · subst hc
    rw [k.own]
    exact ⟨rfl, rfl⟩
  · rw [k.others c hc]
    exact ⟨rfl, rfl⟩

theorem Work.rewritesIntent.slotOf (k : w.rewritesIntent v d src attn) (c : Dest) : v.st.slotOf c = w.st.slotOf c :=
  State.slotOf_congr (k.kept c).1 fun _ _ => by rw [k.re]

theorem Work.rewritesIntent.core (k : w.rewritesIntent v d src attn) (h : w.st.coreLaw) : v.st.coreLaw :=
  h.kept (fun c => (k.kept c).1) (fun c => (k.kept c).2) k.re k.pu k.holders

theorem Work.rewritesIntent.otherHolder (k : w.rewritesIntent v d src attn) (c : Dest) (wanted : Source) :
    v.st.otherHolder c wanted = w.st.otherHolder c wanted := by
  refine Option.ext fun e => ?_
  rw [State.otherHolder_eq_some_iff, State.otherHolder_eq_some_iff]
  exact and_congr_right fun _ => exists_congr fun p => by rw [k.holders]

/-- A port that no other destination claims can become an intent (R49, R116). -/
theorem Work.rewritesIntent.claimLaw (k : w.rewritesIntent v d src attn) (h : w.st.claimLaw) (hidle : w.st.pu.adoption = none)
    (hfree : ∀ p c, src = .port p → w.st.dt.ports[p].claimant = some c → c = d) : v.st.claimLaw := by
  intro _ p c
  have hclaim := h (State.mapStands_of_idle hidle) p
  have hbuilt := State.isBuilt_of_idle hidle
  have hidle' : v.st.pu.adoption = none := by rw [k.pu]; exact hidle
  have hold : ∀ e, w.st.dt.ports[p].claimant = some e ↔ (w.st.record e).intentSrc = .port p := fun e =>
    (hclaim e).trans (and_iff_right (hbuilt e))
  rw [k.claimants, claimantAfter, and_iff_right (State.isBuilt_of_idle hidle' c)]
  by_cases hsrc : src = .port p
  · rw [if_pos hsrc]
    by_cases hc : c = d
    · subst hc
      rw [k.own]
      exact iff_of_true rfl hsrc
    · rw [k.others c hc]
      exact iff_of_false (fun he => hc (Option.some.inj he).symm) fun he => hc (hfree p c hsrc ((hold c).2 he))
  · rw [if_neg hsrc]
    by_cases hc : c = d
    · subst hc
      rw [k.own]
      refine iff_of_false (fun he => ?_) hsrc
      split at he
      · exact nomatch he
      · next hnot => exact hnot ⟨(hold c).1 he, he⟩
    · rw [k.others c hc, ← hold c]
      split
      · next hown => exact iff_of_false nofun fun he => hc (Option.some.inj (he.symm.trans hown.2))
      · rfl

end Intent

section Swap
variable {s : State} {d c : Dest} {src : Source} {attn : Attn}

/-- What a swap needs: no adoption, a source that its destination may have, and a port that no other destination claims
(R116, step 1). -/
structure State.canSwap (s : State) (d : Dest) (src : Source) : Prop where
  law : s.tableLaw
  idle : s.pu.adoption = none
  legal : legalSource d src
  unclaimed : ∀ p c, src = .port p → s.dt.ports[p].claimant = some c → c = d

theorem State.canSwap.built (h : s.canSwap d src) (c : Dest) : s.isBuilt c = true := State.isBuilt_of_idle h.idle c

theorem State.canSwap.holder (h : s.canSwap d src) {p : Port} : s.dt.ports[p].holder = some c ↔ (s.record c).curSrc = .port p :=
  (h.law.holders (State.mapStands_of_idle h.idle) p c).trans (and_iff_right (h.built c))

theorem State.canSwap.claimant (h : s.canSwap d src) {p : Port} :
    s.dt.ports[p].claimant = some c ↔ (s.record c).intentSrc = .port p :=
  (h.law.claimants (State.mapStands_of_idle h.idle) p c).trans (and_iff_right (h.built c))

/-- The holder displaced stands off its own intent. -/
theorem State.canSwap.displaced (h : s.canSwap d src) (hc : s.otherHolder d src = some c) :
    c ≠ d ∧ isLine c = true ∧ (s.record c).forced = false ∧ ∃ p, src = .port p ∧ (s.record c).curSrc = .port p ∧
      (s.record c).intentSrc ≠ .port p := by
  obtain ⟨hne, p, hp, hholder⟩ := State.otherHolder_eq_some_iff.1 hc
  have hcur := h.holder.1 hholder
  have hintent : (s.record c).intentSrc ≠ .port p := fun hi => hne (h.unclaimed p c hp (h.claimant.2 hi))
  refine ⟨hne, ?_, ?_, p, hp, hcur, hintent⟩
  · have hlegal := h.law.currents c
    rw [hcur] at hlegal
    exact hlegal
  · by_contra hforced
    have hrest := ((h.law.forcedRest c (by simpa using hforced)).2 (h.built c)).1
    exact hintent (hrest.symm.trans hcur)

theorem State.swapLeft_own (s : State) (d : Dest) (src : Source) (attn : Attn) : s.swapLeft d src attn d =
    (({ s.record d with intentSrc := src, intentAttn := attn, forced := s.forcedFor src } : DestRecord).direct d, none) :=
  if_pos rfl

theorem State.swapLeft_other (s : State) (src : Source) (attn : Attn) (hc : c ≠ d) : s.swapLeft d src attn c =
    (s.record c).displaced c (s.slotOf c) (s.otherHolder c (s.record c).intentSrc).isSome := if_neg hc

theorem DestRecord.displaced_record (c : Dest) (r : DestRecord) (held : Option RampSlot) (claimed : Bool) :
    (r.displaced c held claimed).1 = { r with
      curSrc := (r.displaced c held claimed).1.curSrc, curAttn := dark
      wanted := (r.displaced c held claimed).1.wanted, slot := (r.displaced c held claimed).1.slot } :=
  DestRecord.reevaluated_record c _ held claimed

/-- A displaced holder goes to no source, or to its own intent. -/
theorem DestRecord.displaced_src (c : Dest) (r : DestRecord) (held : Option RampSlot) (claimed : Bool) :
    (r.displaced c held claimed).1.curSrc = .none ∨ (r.displaced c held claimed).1.curSrc = r.intentSrc := by
  unfold DestRecord.displaced DestRecord.reevaluated
  cases held with
  | none => exact .inl rfl
  | some sl =>
    dsimp only
    unfold DestRecord.phased
    split
    · rw [DestRecord.towardTarget_record]
      exact .inl rfl
    · split
      · exact .inl rfl
      · split
        · exact .inl rfl
        · rw [DestRecord.towardTarget_record]
          exact .inr rfl

/-- What a swap does to its destination, and to the holder that it displaces. -/
theorem Work.swap_spans (h : s.canSwap d src) (attn : Attn) :
    ((s.begin.writeIntent d src attn).spans (s.begin.swap d src attn) (s.swapDests d src)
      (fun c => (s.swapLeft d src attn c).1) (fun c => (s.swapLeft d src attn c).2)
      ((s.otherHolder d src).toList.any fun c => (s.slotOf c).isNone &&
        !atRest c { s.record c with curSrc := .none, curAttn := dark })
      (fun id => endedOf (s.slotOf d) none id + 0)
      fun id => 0 + ((s.otherHolder d src).toList.map fun c => endedOf (s.slotOf c) (s.swapLeft d src attn c).2 id).sum) := by
  have hwrite := s.begin.writeIntent_rewrites d src attn
  have hcore := hwrite.core h.law.core
  have hlisted : (s.begin.writeIntent d src attn).st.setsListed := by
    have := h.law.inner.listed
    exact ⟨by rw [hwrite.csa]; exact this.positive, by rw [hwrite.csa]; exact this.ids⟩
  have hidle : (s.begin.writeIntent d src attn).st.pu.adoption = none := by rw [hwrite.pu]; exact h.idle
  rw [Work.swap_eq]
  generalize s.begin.writeIntent d src attn = w1 at hwrite hcore hlisted hidle ⊢
  have hbegun := Work.swapBegun_makes hcore hlisted d src
  have hbegunre := w1.swapBegun_reworks d src
  rw [hwrite.slotOf] at hbegun
  have hrecord : ∀ c, c ≠ d → (w1.swapBegun d src).st.record c = s.record c := fun c hc =>
    (hbegun.others c hc).trans (hwrite.others c hc)
  have hslotOf : ∀ c, c ≠ d → (w1.swapBegun d src).st.slotOf c = s.slotOf c := fun c hc =>
    (hbegun.toacts.slotOf c hc).trans (hwrite.slotOf c)
  have hown : (w1.swapBegun d src).st.record d = { s.record d with
      intentSrc := src, intentAttn := attn, forced := s.forcedFor src, slot := none, wanted := false } := by
    rw [hbegun.record, hwrite.own, State.forcedFor_congr hwrite.isolated]
    rfl
  have hholder : ∀ c wanted, (w1.swapBegun d src).st.otherHolder c wanted = s.otherHolder c wanted := fun c wanted => by
    refine (State.otherHolder_congr (ports_eq_of_currents hcore hbegun.core (State.mapStands_of_idle hidle)
      hbegun.outside.pu hbegun.claims fun e => ?_) c wanted).trans (hwrite.otherHolder c wanted)
    by_cases he : e = d
    · rw [he, hbegun.record]
    · rw [hbegun.others e he]
  have hidle0 : (w1.swapBegun d src).st.pu.adoption = none := by rw [hbegun.outside.pu]; exact hidle
  have hlisted0 := hbegun.listed hlisted
  have hcore0 := hbegun.core
  generalize w1.swapBegun d src = b at hbegun hbegunre hrecord hslotOf hown hholder hidle0 hlisted0 hcore0 ⊢
  have hspans : b.spans (b.displaceHolder d src) (s.otherHolder d src).toList (fun c => (s.swapLeft d src attn c).1)
      (fun c => (s.swapLeft d src attn c).2)
      ((s.otherHolder d src).toList.any fun c => (s.slotOf c).isNone &&
        !atRest c { s.record c with curSrc := .none, curAttn := dark }) (fun _ => 0)
      fun id => ((s.otherHolder d src).toList.map fun c => endedOf (s.slotOf c) (s.swapLeft d src attn c).2 id).sum := by
    rw [Work.displaceHolder_eq, hholder]
    cases hother : s.otherHolder d src with
    | none => exact .nil hcore0 hlisted0
    | some c =>
      obtain ⟨hne, -⟩ := h.displaced hother
      have hbuilt := State.isBuilt_of_idle hidle0 c
      have hmake := Work.displace_makes hcore0 hlisted0 hbuilt
      dsimp only at hmake
      rw [Work.writeCurrent_otherHolder hcore0 hidle0, hholder, hrecord c hne, hslotOf c hne] at hmake
      refine Work.spans.cons List.not_mem_nil ?_ ((State.reworks.refl _).displace c) (b.displace_marked c hcore0 hlisted0 hbuilt)
        (.nil hmake.core (hmake.listed hlisted0))
      dsimp only
      rw [State.swapLeft_other s src attn hne]
      exact hmake
  have hnot : d ∉ (s.otherHolder d src).toList := fun hmem =>
    (State.otherHolder_eq_some_iff.1 (Option.mem_toList.1 hmem)).1 rfl
  have hidle1 : (b.displaceHolder d src).st.pu.adoption = none := by rw [hspans.reworks.outside.pu]; exact hidle0
  have hfree : (b.displaceHolder d src).st.otherHolder d src = none := State.otherHolder_eq_none_iff.2 fun p e hp he => by
    by_contra hne
    have hcur := ((hspans.core.holders (State.mapStands_of_idle hidle1) p e).1 he).2
    by_cases hmem : e ∈ (s.otherHolder d src).toList
    · obtain ⟨-, -, -, p', hp', -, hintent⟩ := h.displaced (Option.mem_toList.1 hmem)
      obtain rfl := Source.port.inj (hp.symm.trans hp')
      rw [hspans.record e hmem, State.swapLeft_other s src attn hne] at hcur
      obtain hsrc | hsrc := DestRecord.displaced_src e (s.record e) (s.slotOf e) (s.otherHolder e (s.record e).intentSrc).isSome
      · exact nomatch hsrc.symm.trans hcur
      · exact hintent (hsrc.symm.trans hcur)
    · rw [hspans.others e hmem, hrecord e hne] at hcur
      exact hmem (Option.mem_toList.2 (State.otherHolder_eq_some_iff.2 ⟨hne, p, hp, h.holder.2 hcur⟩))
  have hlast := Work.writeCurrent_makes (d := d) hspans.core (hlisted0.counts hspans.counts) (State.isBuilt_of_idle hidle1 d)
    hfree (effectiveTarget d ((b.displaceHolder d src).st.record d))
  refine Work.spans.around hnot hbegun hbegunre hspans (hlast.as ?_ ?_) ((State.reworks.refl _).writeCurrent d src _)
    (Work.writeCurrent_marked _ _ _ _)
  · rw [hspans.others d hnot, hown, State.swapLeft_own]
    rfl
  · rw [hspans.slotOf d hnot, hbegun.content, State.swapLeft_own]

end Swap

end Sys2Proof.Machine

/-! The laws after a swap, and what a swap leaves as it was. -/

namespace Sys2Proof.Machine

section Laws
variable {s : State} {d c : Dest} {src : Source} {attn : Attn}

/-- The counts of a swap: its destination's slot is cut off, and the displaced holder's may end at rest. -/
theorem Work.swap_requests (s : State) (d : Dest) (src : Source) (attn : Attn) : s.reworks (s.begin.swap d src attn).st :=
  (State.reworks.refl s).swap (w := s.begin) d src attn

theorem State.mem_swapDests : c ∈ s.swapDests d src ↔ c = d ∨ s.otherHolder d src = some c := by
  unfold State.swapDests
  rw [List.mem_cons, Option.mem_toList]

theorem Work.swap_record (h : s.canSwap d src) (attn : Attn) (c : Dest) : (s.begin.swap d src attn).st.record c =
    if c ∈ s.swapDests d src then (s.swapLeft d src attn c).1 else s.record c := by
  have hspans := Work.swap_spans h attn
  split
  · next hc => exact hspans.record c hc
  · next hc =>
    exact (hspans.others c hc).trans ((s.begin.writeIntent_rewrites d src attn).others c fun he =>
      hc (State.mem_swapDests.2 (.inl he)))

theorem Work.swap_slotOf (h : s.canSwap d src) (attn : Attn) (c : Dest) : (s.begin.swap d src attn).st.slotOf c =
    if c ∈ s.swapDests d src then (s.swapLeft d src attn c).2 else s.slotOf c := by
  have hspans := Work.swap_spans h attn
  split
  · next hc => exact hspans.content c hc
  · next hc => exact (hspans.slotOf c hc).trans ((s.begin.writeIntent_rewrites d src attn).slotOf c)

/-- The destination swapped stands lawfully at rest. -/
theorem State.canSwap.own_lawful (h : s.canSwap d src) (attn : Attn) :
    (s.swapLeft d src attn d).1.lawful d (s.swapLeft d src attn d).2 (s.forcedFor src) true false := by
  rw [State.swapLeft_own]
  exact {
    intent := h.legal
    current := h.legal
    darkNone := fun hnone => if_pos (.inl hnone)
    drop := fun hd => ⟨(h.law.drops d hd).1, rfl, rfl⟩
    slotless := fun _ => rfl
    rebuilt := fun _ _ => rfl
    wanted := nofun
    unbuilt := fun _ => rfl
    forcedFlag := rfl
    forcedRest := fun hf => ⟨rfl, fun _ => ⟨rfl, if_pos (.inr (.inr hf))⟩⟩
    follows := nofun }

/-- The holder displaced stands, or moves, lawfully. -/
theorem State.canSwap.displaced_lawful (h : s.canSwap d src) (hc : s.otherHolder d src = some c) (attn : Attn) :
    (s.swapLeft d src attn c).1.lawful c (s.swapLeft d src attn c).2 (s.forcedFor (s.record c).intentSrc) true false := by
  obtain ⟨hne, hline, hforced, -⟩ := h.displaced hc
  have hlaw := h.law.destLaw c
  unfold State.destLaw at hlaw
  rw [h.built c, h.idle] at hlaw
  rw [State.swapLeft_other s src attn hne]
  refine DestRecord.sane.reevaluated ?_ (State.slotOf_eq_none_iff h.law.core) hline rfl State.claimed_iff
  exact { hlaw.tosane with
    current := trivial
    darkNone := fun _ => rfl
    rebuilt := nofun
    forcedRest := fun hf => absurd (hforced.symm.trans hf) nofun }

theorem State.canSwap.kept_intent (h : s.canSwap d src) (hc : s.otherHolder d src = some c) (attn : Attn) :
    (s.swapLeft d src attn c).1 = { s.record c with
      curSrc := (s.swapLeft d src attn c).1.curSrc, curAttn := dark
      wanted := (s.swapLeft d src attn c).1.wanted, slot := (s.swapLeft d src attn c).1.slot } := by
  rw [State.swapLeft_other s src attn (h.displaced hc).1]
  exact DestRecord.displaced_record c _ _ _

/-- A swap keeps the inner laws. -/
theorem Work.swap_innerLaw (h : s.canSwap d src) (attn : Attn) : (s.begin.swap d src attn).st.innerLaw none := by
  have hspans := Work.swap_spans h attn
  have hwrite := s.begin.writeIntent_rewrites d src attn
  have hre := Work.swap_requests s d src attn
  have hiso : (s.begin.swap d src attn).st.dt.isolated = s.dt.isolated := by rw [hre.dt]
  have hidle : (s.begin.swap d src attn).st.pu.adoption = none := by rw [hre.outside.pu]; exact h.idle
  refine ⟨hspans.core, fun c => ?_, hspans.claimLaw (hwrite.claimLaw h.law.inner.claims h.idle h.unclaimed) fun c hc => ?_, ?_⟩
  · unfold State.destLaw
    rw [State.forcedFor_congr hiso, State.isBuilt_of_idle hidle, hidle, Work.swap_record h, Work.swap_slotOf h]
    split
    · next hc =>
      obtain rfl | hother := State.mem_swapDests.1 hc
      · have hlaw := h.own_lawful attn
        rw [State.swapLeft_own] at hlaw ⊢
        exact hlaw
      · have hlaw := h.displaced_lawful hother attn
        rw [h.kept_intent hother attn] at hlaw ⊢
        exact hlaw
    · have hlaw := h.law.destLaw c
      unfold State.destLaw at hlaw
      rw [h.built c, h.idle] at hlaw
      exact hlaw
  · obtain rfl | hother := State.mem_swapDests.1 hc
    · rw [State.swapLeft_own, hwrite.own]
      rfl
    · rw [h.kept_intent hother attn, hwrite.others c (h.displaced hother).1]
      rfl
  · have hbase : (s.begin.writeIntent d src attn).st.servesLaw none := by
      have hlaw := h.law.servesLaw
      have hof : ∀ c x, (s.begin.writeIntent d src attn).st.servesOf c x = s.servesOf c x := fun c x => by
        unfold State.servesOf
        rw [hwrite.slotOf]
        rfl
      refine ⟨?_, by rw [hwrite.csa]; exact hlaw.ids, fun c x hx => ?_⟩
      · rw [hwrite.csa]
        intro e he
        obtain ⟨hid, hpos, hcount⟩ := hlaw.listed e he
        refine ⟨hid, hpos, hcount.trans ?_⟩
        unfold State.servingCount
        rw [hwrite.re]
        rfl
      · rw [hof] at hx
        rw [hwrite.csa]
        exact hlaw.serving c x hx
    have hof : ∀ c x, (s.begin.writeIntent d src attn).st.servesOf c x = oneOf ((s.slotOf c).bind RampSlot.serves) x := fun c x => by
      unfold State.servesOf
      rw [hwrite.slotOf]
      rfl
    have hserve : ∀ x, (s.otherHolder d src).toList.map (fun c => endedOf (s.slotOf c) (s.swapLeft d src attn c).2 x +
        oneOf ((s.swapLeft d src attn c).2.bind RampSlot.serves) x) =
        (s.otherHolder d src).toList.map fun c => oneOf ((s.slotOf c).bind RampSlot.serves) x := fun x => by
      refine List.map_congr_left fun c hc => ?_
      rw [State.swapLeft_other s src attn (h.displaced (Option.mem_toList.1 hc)).1, Nat.add_comm]
      exact DestRecord.reevaluated_serves x
    refine hspans.servesLaw (hwrite.core h.law.core) hbase (s.swapDests_nodup d src) (fun x => ?_) fun c hc x hx => ?_
    · simp only [hof]
      unfold State.swapDests
      rw [List.map_cons, List.map_cons, List.sum_cons, List.sum_cons, State.swapLeft_own, endedOf_held, ← hserve,
        List.sum_map_add]
      have hnone : oneOf ((none : Option RampSlot).bind RampSlot.serves) x = 0 := if_neg nofun
      dsimp only
      rw [hnone]
      omega
    · rw [hof]
      obtain rfl | hother := State.mem_swapDests.1 hc
      · rw [State.swapLeft_own] at hx
        exact absurd (if_neg nofun) hx
      · have hone := DestRecord.reevaluated_serves (d := c) (r := { s.record c with curSrc := .none, curAttn := dark })
          (held := s.slotOf c) (claimed := (s.otherHolder c (s.record c).intentSrc).isSome) x
        rw [State.swapLeft_other s src attn (h.displaced hother).1] at hx
        unfold DestRecord.displaced at hx
        dsimp only at hx hone
        omega

end Laws

end Sys2Proof.Machine

/-! O34. -/

namespace Sys2Proof.Machine



theorem State.requests.outside_finish {s : State} {v : Work} (h : s.requests v.st) : s.keepsOutsideTable (v.finish none) :=
  h.outside.trans (Work.finish_keepsOutsideTable _ none)

theorem State.keepsOutsideTable.setRunning {s t : State} (h : s.keepsOutsideTable t) (x : Option RunningExchange) :
    t.setRunning x = { s with xe := (t.setRunning x).xe, dt := t.dt, re := t.re, csa := t.csa, ew := t.ew } := by
  conv_lhs => rw [State.setRunning, h.frame]
  rw [State.setRunning, h.xe]

section Facts
variable {s : State} {d c : Dest} {src : Source} {attn : Attn} {n : SlotNo} {sl q : RampSlot}

/-- The state that a swap leaves, beside the exchange's own. -/
def State.swapped (s : State) (d : Dest) (src : Source) (attn : Attn) : State := (s.begin.swap d src attn).finish none

theorem State.swapped_record (h : s.canSwap d src) (attn : Attn) (c : Dest) : (s.swapped d src attn).record c =
    if c ∈ s.swapDests d src then (s.swapLeft d src attn c).1 else s.record c := Work.swap_record h attn c

theorem State.swapped_slots (h : s.canSwap d src) (attn : Attn) :
    (∀ n : SlotNo, s.re.slots[n] = none → (s.swapped d src attn).re.slots[n] = none) ∧
    (∀ (n : SlotNo) (sl : RampSlot), s.re.slots[n] = some sl → (s.swapped d src attn).re.slots[n] =
      if sl.dest ∈ s.swapDests d src then (s.swapLeft d src attn sl.dest).2 else some sl) ∧
    (s.swapped d src attn).re.list = s.re.list.filter fun n => ((s.swapped d src attn).re.slots[n]).isSome := by
  have hspans := Work.swap_spans h attn
  have hwrite := s.begin.writeIntent_rewrites d src attn
  have hcore := hwrite.core h.law.core
  have hre : (s.begin.writeIntent d src attn).st.re = s.re := hwrite.re
  refine ⟨fun n hn => hspans.frees.slots_none hcore hspans.core (by rw [hre]; exact hn), fun n sl hs => ?_, ?_⟩
  · have hslots := hspans.frees.slots_some hcore hspans.core (n := n) (sl := sl) (by rw [hre]; exact hs)
    refine hslots.trans ((Work.swap_slotOf h attn sl.dest).trans ?_)
    rw [h.law.core.slotOf_of_slots hs]
  · have hlist := hspans.frees.list_eq hcore hspans.core
    rw [hre] at hlist
    exact hlist

theorem State.swapped_frees (h : s.canSwap d src) (attn : Attn) : (s.begin.swap d src attn).freed = true ↔
    ∃ n : SlotNo, s.re.slots[n] ≠ none ∧ (s.swapped d src attn).re.slots[n] = none := by
  have hspans := Work.swap_spans h attn
  have hwrite := s.begin.writeIntent_rewrites d src attn
  have hiff := hspans.frees.freed_iff (hwrite.core h.law.core) hspans.core
  have hre : (s.begin.writeIntent d src attn).st.re = s.re := hwrite.re
  have hno : (s.begin.writeIntent d src attn).freed = false := by rw [hwrite.frame]; rfl
  rw [hspans.frees.freed, ← hiff, hre, hno]
  exact or_iff_right nofun

/-- A holder displaced that is left wanting raises an occasion (R75, R116). -/
theorem State.swapped_raises (h : s.canSwap d src) (attn : Attn) : (s.begin.swap d src attn).raised = true ↔
    ∃ p c, src = .port p ∧ s.dt.ports[p].holder = some c ∧ c ≠ d ∧ ((s.swapped d src attn).record c).wanted = true := by
  have hspans := Work.swap_spans h attn
  have hwrite := s.begin.writeIntent_rewrites d src attn
  have hno : (s.begin.writeIntent d src attn).raised = false := by rw [hwrite.frame]; rfl
  rw [hspans.frees.raised, hno, Bool.false_or, List.any_eq_true]
  have hone : ∀ c, s.otherHolder d src = some c → (((s.slotOf c).isNone &&
      !atRest c { s.record c with curSrc := .none, curAttn := dark }) = true ↔
      ((s.swapped d src attn).record c).wanted = true) := fun c hc => by
    rw [State.swapped_record h, if_pos (State.mem_swapDests.2 (.inr hc)), State.swapLeft_other s src attn (h.displaced hc).1]
    cases hslot : s.slotOf c with
    | none => exact Bool.true_and _ ▸ Iff.rfl
    | some sl =>
      have hwanted : (s.record c).wanted = false := by
        by_contra hw
        have hnone := (h.law.wanted c (by simpa using hw)).1
        exact nomatch hslot.symm.trans (State.slotOf_none hnone)
      have hphased : (((s.record c).displaced c (some sl) (s.otherHolder c (s.record c).intentSrc).isSome).1).wanted = false := by
        unfold DestRecord.displaced DestRecord.reevaluated
        rw [DestRecord.phased_record]
        exact hwanted
      rw [hphased]
      exact Iff.rfl
  constructor
  · rintro ⟨c, hc, hw⟩
    have hc' := Option.mem_toList.1 hc
    obtain ⟨hne, p, hp, hholder⟩ := State.otherHolder_eq_some_iff.1 hc'
    exact ⟨p, c, hp, hholder, hne, (hone c hc').1 hw⟩
  · rintro ⟨p, c, hp, hholder, hne, hw⟩
    have hc := State.otherHolder_eq_some_iff.2 ⟨hne, p, hp, hholder⟩
    exact ⟨c, Option.mem_toList.2 hc, (hone c hc).2 hw⟩

theorem State.swapped_due (h : s.canSwap d src) (attn : Attn) : (s.swapped d src attn).re.occasionDue = true ↔
    s.re.occasionDue = true ∨ (∃ n : SlotNo, s.re.slots[n] ≠ none ∧ (s.swapped d src attn).re.slots[n] = none) ∨
      ∃ p e, src = .port p ∧ s.dt.ports[p].holder = some e ∧ e ≠ d ∧ ((s.swapped d src attn).record e).wanted = true := by
  rw [← State.swapped_frees h, ← State.swapped_raises h]
  show ((s.begin.swap d src attn).st.re.occasionDue || (s.begin.swap d src attn).freed || (s.begin.swap d src attn).raised) = true ↔ _
  rw [(Work.swap_requests s d src attn).re, Bool.or_eq_true, Bool.or_eq_true, or_assoc]

theorem State.mem_swap_marks (h : s.canSwap d src) (attn : Attn) :
    c ∈ (s.begin.swap d src attn).marks ↔ c ∈ s.swapDests d src := by
  have hspans := Work.swap_spans h attn
  have hno : (s.begin.writeIntent d src attn).marks = [] := by rw [(s.begin.writeIntent_rewrites d src attn).frame]; rfl
  rw [hspans.marks, hno]
  exact or_iff_right List.not_mem_nil

theorem State.swapped_marks (h : s.canSwap d src) (attn : Attn) :
    s.marksUpdates (s.swapped d src attn) none fun e => e == d || s.otherHolder d src == some e := by
  have hno : (s.begin.writeIntent d src attn).marks = [] := by rw [(s.begin.writeIntent_rewrites d src attn).frame]; rfl
  refine Work.finish_marksUpdates (s := s) (w := s.begin.swap d src attn) (by rw [(Work.swap_requests s d src attn).dt])
    ((Work.swap_spans h attn).sorted (by rw [hno]; exact List.Pairwise.nil)) fun e => ?_
  rw [State.mem_swap_marks h, State.mem_swapDests, Bool.or_eq_true, beq_iff_eq, beq_iff_eq]

theorem State.swapped_listed (h : s.canSwap d src) (attn : Attn) (hc : c ∈ s.swapDests d src) :
    ∃ u ∈ (s.swapped d src attn).dt.updates, u.dest = c := Work.finish_listed ((State.mem_swap_marks h attn).2 hc)

/-- The set that the swapped destination's slot served counts it interrupted, and that of a holder's slot left at rest counts
it settled (R44, R73). -/
theorem State.swapped_counts (h : s.canSwap d src) (attn : Attn) : s.countsOff (s.swapped d src attn) (fun e => e == d) fun e =>
    e != d && (s.record e).slot.isSome && ((s.swapped d src attn).record e).slot.isNone := by
  have hspans := Work.swap_spans h attn
  have hwrite := s.begin.writeIntent_rewrites d src attn
  have hcounts := hspans.counts.rebase (s' := s) (by rw [hwrite.csa]; rfl) (by rw [hwrite.frame]; rfl)
  have hoff := State.countsOff_of_counts h.law.core h.law.servesLaw hcounts (cutD := fun e => e == d)
    (endedD := fun e => e != d && (s.record e).slot.isSome && ((s.swapped d src attn).record e).slot.isNone) (fun x => ?_) fun x => ?_
  · exact hoff.after ⟨[], (List.append_nil _).symm, fun _ hx => absurd hx List.not_mem_nil⟩ List.prefix_rfl
  · rw [Nat.add_zero, endedOf_held, Finset.sum_eq_single d (fun e _ he => if_neg (by simpa using he)) fun hd =>
      absurd (Finset.mem_univ d) hd]
    simp [State.servesOf]
  · rw [Nat.zero_add, sum_map_eq (List.Nodup.sublist (List.sublist_cons_self d _) (s.swapDests_nodup d src))]
    refine Finset.sum_congr rfl fun e _ => ?_
    by_cases hother : s.otherHolder d src = some e
    · have hne := (h.displaced hother).1
      have hslot := State.slotOf_eq_none_iff (d := e) (Work.swap_innerLaw h attn).core
      rw [Work.swap_slotOf h, if_pos (State.mem_swapDests.2 (.inr hother))] at hslot
      have hgone : ((s.swapped d src attn).record e).slot.isNone = decide ((s.swapLeft d src attn e).2 = none) := by
        rw [Bool.eq_iff_iff, decide_eq_true_iff, Option.isNone_iff_eq_none]
        exact hslot.symm
      have hheld : (s.record e).slot.isSome = (s.slotOf e).isSome := by
        rw [Bool.eq_iff_iff, Option.isSome_iff_ne_none, Option.isSome_iff_ne_none]
        exact not_congr (State.slotOf_eq_none_iff h.law.core).symm
      rw [if_pos (Option.mem_toList.2 hother), hgone, hheld, bne_iff_ne.2 hne, Bool.true_and, endedOf]
      unfold State.servesOf
      cases s.slotOf e with
      | none => simp [oneOf]
      | some sl => simp
    · rw [if_neg (mt Option.mem_toList.1 hother), if_neg]
      rintro hall
      rw [Bool.and_eq_true, Bool.and_eq_true, bne_iff_ne] at hall
      obtain ⟨⟨hne, hsome⟩, hnone⟩ := hall
      rw [State.swapped_record h, if_neg fun hm => (State.mem_swapDests.1 hm).elim hne hother] at hnone
      rw [Option.isNone_iff_eq_none.1 hnone] at hsome
      exact nomatch hsome

/-- What becomes of the holder displaced (R59, R72). -/
theorem State.swapped_holder (h : s.canSwap d src) (attn : Attn) (hc : s.otherHolder d src = some c) {p : Port} (hp : src = .port p) :
    let r := (s.swapped d src attn).record c
    (r.curAttn = dark ∧ r.curSrc ≠ .port p ∧ r.intentSrc = (s.record c).intentSrc ∧ r.intentAttn = (s.record c).intentAttn ∧
      r.blocked = (s.record c).blocked ∧ r.forced = (s.record c).forced ∧ r.queued = (s.record c).queued) ∧
    ((s.record c).slot = none → r = { s.record c with
      curSrc := .none, curAttn := dark, wanted := !atRest c { s.record c with curSrc := .none, curAttn := dark } }) ∧
    ∀ n sl, (s.record c).slot = some n → s.re.slots[n] = some sl → r.wanted = (s.record c).wanted ∧
      (r.slot = none ∧ atRest c r = true ∧ (s.swapped d src attn).re.slots[n] = none ∨ r.slot = some n ∧
        ∃ goal phase, (s.swapped d src attn).re.slots[n] = some { sl with goal := goal, phase := phase }) ∧
      (r, (s.swapped d src attn).re.slots[n]) = ({ s.record c with curSrc := .none, curAttn := dark } : DestRecord).phased c sl
        (s.otherHolder c (s.record c).intentSrc).isSome := by
  obtain ⟨hne, -, -, p', hp', hcur, hintent⟩ := h.displaced hc
  obtain rfl := Source.port.inj (hp'.symm.trans hp)
  have hmem := State.mem_swapDests.2 (.inr hc)
  have hrecord := State.swapped_record h attn c
  rw [if_pos hmem] at hrecord
  have hkept := h.kept_intent hc attn
  intro r
  rw [show r = _ from hrecord]
  refine ⟨?_, fun hslot => ?_, fun n sl hn hs => ?_⟩
  · refine ⟨by rw [hkept], fun hsrc => ?_, by rw [hkept], by rw [hkept], by rw [hkept], by rw [hkept], by rw [hkept]⟩
    rw [State.swapLeft_other s src attn hne] at hsrc
    obtain hnone | hown := DestRecord.displaced_src c (s.record c) (s.slotOf c) (s.otherHolder c (s.record c).intentSrc).isSome
    · exact nomatch hnone.symm.trans hsrc
    · exact hintent (hown.symm.trans hsrc)
  · rw [State.swapLeft_other s src attn hne, State.slotOf_none hslot]
    rfl
  · have hsl : sl.dest = c := by
      obtain ⟨sl', hs', hd⟩ := h.law.core.slotNames c n hn
      rwa [Option.some.inj (hs.symm.trans hs')]
    have hslots := (State.swapped_slots h attn).2.1 n sl hs
    rw [hsl, if_pos hmem] at hslots
    have hleft : s.swapLeft d src attn c = ({ s.record c with curSrc := .none, curAttn := dark } : DestRecord).phased c sl
        (s.otherHolder c (s.record c).intentSrc).isSome := by
      rw [State.swapLeft_other s src attn hne, State.slotOf_some hn, hs]
      rfl
    rw [hslots, hleft]
    have heval := DestRecord.phased_evaluated c { s.record c with curSrc := .none, curAttn := dark } sl
      (s.otherHolder c (s.record c).intentSrc).isSome
    refine ⟨by rw [heval.record], ?_, rfl⟩
    cases hq : (({ s.record c with curSrc := .none, curAttn := dark } : DestRecord).phased c sl
        (s.otherHolder c (s.record c).intentSrc).isSome).2 with
    | none => exact .inl ⟨by rw [heval.slot, if_pos hq], heval.rest hq, rfl⟩
    | some q =>
      obtain ⟨hserves, hdest⟩ := DestRecord.phased_kept hq
      refine .inr ⟨by rw [heval.slot, if_neg (by rw [hq]; exact Option.some_ne_none q)]; exact hn, q.goal, q.phase, ?_⟩
      rw [← hserves, ← hdest]

end Facts

theorem State.swapEntry_swaps {s : State} {x : RunningExchange} {d : Dest} {src : Source} {attn : Attn}
    (h : s.otherClaimant d src = none) : s.swapEntry x d src attn =
      (s.swapped d src attn).setRunning (some { x with swapped := x.swapped + 1, stage := .kept (s.intentWord d) }) := by
  unfold State.swapEntry
  rw [h]
  rfl

theorem exec_exchangeSwap {s : State} {x : RunningExchange} {d : Dest} {src : Source} (hrunning : s.xe.running = some x)
    (hstage : x.stage = .swap) (hkey : field x.keyWord 0 9 = d.val) (hsrc : pathSource d x.pathWord = some src) :
    exec .exchangeSwap s = .next (s.swapEntry x d src (pathAttn x.pathWord)) := by
  have hdest : destOfNat (keyDest x.keyWord) = some d := by
    have hval : keyDest x.keyWord = d.val := hkey
    rw [hval, destOfNat, dif_pos d.isLt]
  refine congrArg Host.Outcome.next ?_
  rw [exchangeSwapStep, hrunning]
  dsimp only
  rw [if_pos hstage, hdest]
  dsimp only
  rw [hsrc]

theorem State.otherClaimant_eq_some {s : State} {d c : Dest} {p : Port} (h : s.dt.ports[p].claimant = some c) (hne : c ≠ d) :
    s.otherClaimant d (.port p) = some (p, c) := by
  unfold State.otherClaimant
  dsimp only
  rw [h]
  exact if_neg hne

theorem State.otherClaimant_eq_none {s : State} {d : Dest} {src : Source}
    (h : ∀ p c, src = .port p → s.dt.ports[p].claimant = some c → c = d) : s.otherClaimant d src = none := by
  unfold State.otherClaimant
  split
  · next p =>
    split
    · next c hc => exact if_pos (h p c rfl hc)
    · rfl
  all_goals rfl

/-- Settles O34. -/
theorem swapLeavesDestinationAtRest : Obligations.SwapLeavesDestinationAtRest := by
  unfold Obligations.SwapLeavesDestinationAtRest
  intro s x d src hlaw hrunning hstage hkey hsrc attn
  have hexec := exec_exchangeSwap hrunning hstage hkey hsrc
  have hdest : destOfNat (keyDest x.keyWord) = some d := by
    have hval : keyDest x.keyWord = d.val := hkey
    rw [hval, destOfNat, dif_pos d.isLt]
  refine ⟨fun p c hp hclaim hne => ?_, fun hfree => ?_⟩
  · subst hp
    rw [hexec, State.swapEntry, State.otherClaimant_eq_some hclaim hne]
    dsimp only
    unfold State.skipEntry
    rw [show BitVec.ofNat 16 (keyDest x.keyWord) = BitVec.ofNat 16 d.val from congrArg (BitVec.ofNat 16) hkey, State.setRunning,
      State.emit_xe]
    rfl
  · have h : s.canSwap d src := ⟨hlaw, (hlaw.exclusive (by rw [hrunning]; exact Option.some_ne_none x)).1,
      legalSource_of_pathSource hsrc (hlaw.swapWord x d src hrunning hstage hdest hsrc), hfree⟩
    have hre := Work.swap_requests s d src attn
    obtain ⟨hslotsNone, hslotsSome, hlist⟩ := State.swapped_slots h attn
    have hown := State.swapped_record h attn d
    rw [if_pos (State.mem_swapDests.2 (.inl rfl)), State.swapLeft_own] at hown
    have hother : ∀ p e, src = .port p → s.dt.ports[p].holder = some e → e ≠ d → s.otherHolder d src = some e :=
      fun p e hp hholder hne => State.otherHolder_eq_some_iff.2 ⟨hne, p, hp, hholder⟩
    refine ⟨_, hexec.trans (congrArg Host.Outcome.next (State.swapEntry_swaps (State.otherClaimant_eq_none hfree))),
      ⟨hown, ?_⟩, State.swapped_listed h attn (State.mem_swapDests.2 (.inl rfl)), fun e hne hnot => ?_,
      fun p e hp hholder hne => ?_, State.swapped_due h attn, State.swapped_counts h attn, State.swapped_marks h attn,
      ⟨?_, fun k hk => ?_, fun k hk hnot => ?_, hlist⟩, ?_, ⟨hre.sets, hre.ids⟩,
      ⟨hre.raised.writer, hre.raised.queue, hre.raised.dropped⟩, ?_, ?_⟩
    · show atRest d ((s.swapped d src attn).record d) = true
      rw [hown]
      exact DestRecord.atRest_direct d _
    · refine (State.swapped_record h attn e).trans (if_neg fun hmem => ?_)
      obtain he | hc := State.mem_swapDests.1 hmem
      · exact hne he
      · obtain ⟨-, p, hp, hholder⟩ := State.otherHolder_eq_some_iff.1 hc
        exact hnot p hp hholder
    · have hc := hother p e hp hholder hne
      obtain ⟨⟨hattn, hcur, hintent, hintentAttn, hblocked, hforced, hqueued⟩, hfree, hslot⟩ := State.swapped_holder h attn hc hp
      exact ⟨hattn, hcur, hintent, hintentAttn, hblocked, hforced, hqueued, hfree,
        fun n sl hn hs => ⟨(hslot n sl hn hs).1, (hslot n sl hn hs).2.1⟩, fun n sl hn hs => (hslot n sl hn hs).2.2,
        State.swapped_listed h attn (State.mem_swapDests.2 (.inr hc))⟩
    · exact hre.torequests.keepsTicks_finish none
    · obtain ⟨sl, hs, hd⟩ := hlaw.slotNames d k hk
      refine (hslotsSome k sl hs).trans ?_
      rw [hd, if_pos (State.mem_swapDests.2 (.inl rfl)), State.swapLeft_own]
    · cases hs : s.re.slots[k] with
      | none => exact hslotsNone k hs
      | some sl =>
        have hname := (hlaw.slots k sl hs).names
        refine (hslotsSome k sl hs).trans (if_neg fun hmem => ?_)
        obtain he | hc := State.mem_swapDests.1 hmem
        · exact hk (by rw [← he]; exact hname)
        · exact hnot sl.dest hc hname
    · exact hre.torequests.dt_occasion
    · show ({ (s.swapped d src attn).xe with running := _ } : ExchangeEngine) = _
      rw [show (s.swapped d src attn).xe = s.xe from hre.outside.xe]
    · exact hre.torequests.outside_finish.setRunning _

end Sys2Proof.Machine

/-! The restart carried out (R46, R81, R122, R153). -/

namespace Sys2Proof.Machine

/-! ### Records raised one after another -/

section Raising
variable {α : Type} {g g' : State → α → State}

theorem foldl_ew_congr (hg : ∀ (u v : State) (x : α), u.ew = v.ew → (g u x).ew = (g' v x).ew) (l : List α) {u v : State}
    (h : u.ew = v.ew) : (l.foldl g u).ew = (l.foldl g' v).ew := by
  induction l generalizing u v with
  | nil => exact h
  | cons x l ih => exact ih (hg u v x h)

theorem foldl_raises (hg : ∀ (u : State) (x : α), g u x = { u with ew := (g u x).ew }) (l : List α) (u : State) :
    l.foldl g u = { u with ew := (l.foldl g u).ew } := by
  induction l generalizing u with
  | nil => rfl
  | cons x l ih =>
    rw [List.foldl_cons]
    conv_lhs => rw [ih]
    generalize (l.foldl g (g u x)).ew = ew
    rw [hg u x]

end Raising

theorem State.emitQueuedAbort_eq (s : State) (q : QueuedSet) :
    s.emitQueuedAbort q = { s with ew := (s.emitQueuedAbort q).ew } := by
  unfold State.emitQueuedAbort
  split
  · rfl
  · exact State.emit_eq s _ _ _ _ _

theorem State.emitQueuedAbort_ew {s t : State} (h : t.ew = s.ew) (q : QueuedSet) :
    (t.emitQueuedAbort q).ew = (s.emitQueuedAbort q).ew := by
  unfold State.emitQueuedAbort
  split
  · exact h
  · exact State.emit_ew_congr h _ _ _ _ _

theorem State.abortOpen_eq (s : State) : s.abortOpen = { s with
    csa := { s.csa with openSet := [] }, ew := s.abortOpen.ew } := by
  unfold State.abortOpen
  split
  · next h => rw [← h]
  · rw [State.emit_eq]
    rfl

/-! ### The steps of a restart -/

section Steps
variable {w v u : Work} {d : Dest}

/-- What aborting the queued sets `qs` in order does: their records, and their queued marks (R46). -/
structure Work.aborts (w v : Work) (qs : List QueuedSet) : Prop where
  record : ∀ d, v.st.record d =
    { w.st.record d with queued := (w.st.record d).queued - (qs.flatMap fun q => entryDests q.entries).count d }
  marks : w.addsMarks v (qs.flatMap fun q => entryDests q.entries)
  frame : ∃ records, v.st = { w.st with
    ew := (qs.foldl State.emitQueuedAbort w.st).ew, dt := { w.st.dt with records := records } }

theorem Work.addsMarks.append {ds ds' : List Dest} (h : w.addsMarks v ds) (k : v.addsMarks u ds') :
    w.addsMarks u (ds ++ ds') where
  sorted := k.sorted ∘ h.sorted
  mem := fun hs e => by rw [k.mem (h.sorted hs), h.mem hs, List.mem_append, or_assoc]

theorem Work.abortQueue_aborts (qs : List QueuedSet) (w : Work) : w.aborts (w.abortQueue qs) qs := by
  induction qs generalizing w with
  | nil => exact ⟨fun _ => rfl, ⟨id, fun _ e => (or_iff_left List.not_mem_nil).symm⟩, _, rfl⟩
  | cons q qs ih =>
    have hone := Work.foldl_changeQueued { w with st := w.st.emitQueuedAbort q } (entryDests q.entries) (· - 1)
    have hrest := ih (Work.unqueue { w with st := w.st.emitQueuedAbort q } q.entries)
    have hraised : ∀ e, (w.st.emitQueuedAbort q).record e = w.st.record e := State.record_congr (by rw [State.emitQueuedAbort_eq])
    refine ⟨fun e => (hrest.record e).trans ?_, ?_, ?_⟩
    · have hrecord : (Work.unqueue { w with st := w.st.emitQueuedAbort q } q.entries).st.record e =
          { w.st.record e with queued := (w.st.record e).queued - (entryDests q.entries).count e } := by
        refine (hone.record e).trans ?_
        rw [iterate_pred, hraised]
      rw [hrecord, List.flatMap_cons, List.count_append, Nat.sub_add_eq]
    · rw [List.flatMap_cons]
      exact Work.addsMarks.append ⟨hone.marks.sorted, hone.marks.mem⟩ hrest.marks
    · obtain ⟨records, hframe⟩ := hone.frame
      obtain ⟨records', hframe'⟩ := hrest.frame
      have hst : (Work.unqueue { w with st := w.st.emitQueuedAbort q } q.entries).st =
          { w.st.emitQueuedAbort q with dt := { (w.st.emitQueuedAbort q).dt with records := records } } := hframe
      refine ⟨records', hframe'.trans ?_⟩
      have hew : (qs.foldl State.emitQueuedAbort (Work.unqueue { w with st := w.st.emitQueuedAbort q } q.entries).st).ew =
          (qs.foldl State.emitQueuedAbort (w.st.emitQueuedAbort q)).ew :=
        foldl_ew_congr (fun _ _ x h => State.emitQueuedAbort_ew h x) qs (by rw [hst])
      rw [hew, hst, List.foldl_cons]
      generalize (qs.foldl State.emitQueuedAbort (w.st.emitQueuedAbort q)).ew = ew
      rw [State.emitQueuedAbort_eq]

/-- What freeing the slots `l` in order does (R70, R81). -/
structure Work.freesAll (w v : Work) (l : List SlotNo) : Prop where
  core : v.st.coreLaw
  slots : ∀ k : SlotNo, v.st.re.slots[k] = if k ∈ l then none else w.st.re.slots[k]
  record : ∀ d, v.st.record d = { w.st.record d with slot := (v.st.record d).slot }
  only : ∀ d, (v.st.record d).slot = none ∨ (v.st.record d).slot = (w.st.record d).slot
  sorted : w.marks.Pairwise (· < ·) → v.marks.Pairwise (· < ·)
  marks : ∀ d, d ∈ v.marks ↔ d ∈ w.marks ∨ ∃ n ∈ l, (w.st.record d).slot = some n
  frame : ∃ records slots list, v.st = { w.st with
    dt := { w.st.dt with records := records }, re := { w.st.re with slots := slots, list := list } }

theorem Work.freesAll_nil (h : w.st.coreLaw) : w.freesAll w [] where
  core := h
  slots := fun _ => (if_neg List.not_mem_nil).symm
  record := fun _ => rfl
  only := fun _ => .inr rfl
  sorted := id
  marks := fun _ => (or_iff_left fun ⟨_, hn, _⟩ => List.not_mem_nil hn).symm
  frame := ⟨_, _, _, rfl⟩

theorem Work.foldl_freeSlot (l : List SlotNo) {w : Work} (h : w.st.coreLaw) : w.freesAll (l.foldl Work.freeSlot w) l := by
  induction l generalizing w with
  | nil => exact Work.freesAll_nil h
  | cons n l ih =>
    rw [List.foldl_cons]
    cases hs : w.st.re.slots[n] with
    | none =>
      have hkeep : w.freeSlot n = w := by rw [Work.freeSlot, hs]
      rw [hkeep]
      have hrest := ih h
      refine ⟨hrest.core, fun k => ?_, hrest.record, hrest.only, hrest.sorted, fun e => ?_, hrest.frame⟩
      · rw [hrest.slots]
        by_cases hk : k = n
        · subst hk
          rw [if_pos List.mem_cons_self, hs]
          split <;> rfl
        · simp [hk]
      · rw [hrest.marks]
        refine or_congr_right ⟨fun ⟨m, hm, he⟩ => ⟨m, List.mem_cons_of_mem _ hm, he⟩, fun ⟨m, hm, he⟩ => ?_⟩
        obtain rfl | hm := List.mem_cons.1 hm
        · obtain ⟨sl, hsl, -⟩ := h.slotNames e m he
          exact nomatch hs.symm.trans hsl
        · exact ⟨m, hm, he⟩
    | some sl =>
      have hacts := Work.freeSlot_acts h hs
      have hname := (h.slots n sl hs).2
      have hown : (w.freeSlot n).st.record sl.dest = { w.st.record sl.dest with slot := none } := by
        rw [Work.freeSlot_eq hs]
        exact State.record_setRecord_same _ _ _
      have hslots : ∀ k : SlotNo, (w.freeSlot n).st.re.slots[k] = if n = k then none else w.st.re.slots[k] := fun k => by
        rw [Work.freeSlot_eq hs]
        exact getElem_set_ite _ _ _ _
      have hmarks : ∀ e, e ∈ (w.freeSlot n).marks ↔ e = sl.dest ∨ e ∈ w.marks := fun e => by
        rw [Work.freeSlot_eq hs]
        exact mem_insertDest
      have hrest := ih hacts.core
      have hfirst : ∀ e, (w.freeSlot n).st.record e = { w.st.record e with slot := ((w.freeSlot n).st.record e).slot } ∧
          (((w.freeSlot n).st.record e).slot = none ∨ ((w.freeSlot n).st.record e).slot = (w.st.record e).slot) := fun e => by
        by_cases he : e = sl.dest
        · rw [he, hown]
          exact ⟨rfl, .inl rfl⟩
        · rw [hacts.others e he]
          exact ⟨rfl, .inr rfl⟩
      refine ⟨hrest.core, fun k => ?_, fun e => ?_, fun e => ?_, hrest.sorted ∘ hacts.sorted, fun e => ?_, ?_⟩
      · rw [hrest.slots, hslots]
        by_cases hk : k = n
        · subst hk
          simp
        · simp [hk, Ne.symm hk]
      · rw [hrest.record, (hfirst e).1]
      · obtain hr | hr := hrest.only e
        · exact .inl hr
        · rw [hr]
          exact (hfirst e).2
      · rw [hrest.marks, hmarks, or_assoc, or_left_comm]
        refine or_congr_right ?_
        by_cases he : e = sl.dest
        · subst he
          exact iff_of_true (.inl rfl) ⟨n, List.mem_cons_self, hname⟩
        · rw [hacts.others e he]
          refine ⟨fun hor => ?_, fun ⟨m, hm, hem⟩ => ?_⟩
          · obtain ⟨m, hm, hem⟩ := hor.resolve_left he
            exact ⟨m, List.mem_cons_of_mem _ hm, hem⟩
          · obtain rfl | hm := List.mem_cons.1 hm
            · obtain ⟨sl', hs', hd⟩ := h.slotNames e m hem
              exact absurd (hd.symm.trans (congrArg RampSlot.dest (Option.some.inj (hs'.symm.trans hs)))) he
            · exact .inr ⟨m, hm, hem⟩
      · obtain ⟨records, slots, list, hframe⟩ := hrest.frame
        refine ⟨records, slots, list, hframe.trans ?_⟩
        rw [Work.freeSlot_eq hs]
        rfl

/-- What clearing the wanted flags of `l` does. -/
theorem Work.foldl_clearWanted (l : List Dest) (w : Work) :
    let v := l.foldl (fun w d => if (w.st.record d).wanted then w.clearWanted d else w) w
    (∀ d, v.st.record d = if d ∈ l then { w.st.record d with wanted := false } else w.st.record d) ∧ v.marks = w.marks ∧
      ∃ records, v.st = { w.st with dt := { w.st.dt with records := records } } := by
  induction l generalizing w with
  | nil => exact ⟨fun _ => (if_neg List.not_mem_nil).symm, rfl, _, rfl⟩
  | cons d l ih =>
    have hfirst : ∀ e, ((if (w.st.record d).wanted then w.clearWanted d else w).st.record e) =
        if e = d then { w.st.record e with wanted := false } else w.st.record e := fun e => by
      split
      · split
        · next he =>
          subst he
          exact State.record_setRecord_same _ _ _
        · next he => exact State.record_setRecord_other _ _ he
      · next hw =>
        split
        · next he =>
          subst he
          rw [← (Bool.not_eq_true _).mp hw]
        · rfl
    have hmark : (if (w.st.record d).wanted then w.clearWanted d else w).marks = w.marks := by split <;> rfl
    have hframe : ∃ records, (if (w.st.record d).wanted then w.clearWanted d else w).st =
        { w.st with dt := { w.st.dt with records := records } } := by
      split
      · exact ⟨_, rfl⟩
      · exact ⟨_, rfl⟩
    obtain ⟨hrecord, hmarks, records, hrest⟩ := ih (if (w.st.record d).wanted then w.clearWanted d else w)
    refine ⟨fun e => ?_, hmarks.trans hmark, records, hrest.trans ?_⟩
    · refine (hrecord e).trans ?_
      rw [hfirst]
      by_cases he : e = d
      · subst he
        simp
      · simp [he]
    · obtain ⟨records', hst⟩ := hframe
      rw [hst]

end Steps

end Sys2Proof.Machine

/-! O25. -/

namespace Sys2Proof.Machine

section Restart
variable {s : State}

/-- The event writer after the records of a restart (R46, R47, R122). -/
def State.restartRecords (s : State) : State :=
  s.xe.list.foldl State.refuseRequest (s.csa.settling.foldl State.emitAbandoned (s.csa.queue.foldl State.emitQueuedAbort s.abortOpen))

/-- What a restart does to the part, its mailbox write apart. -/
structure State.restarts (s t : State) : Prop where
  record : ∀ d, t.record d = { s.record d with queued := 0, wanted := false, slot := none }
  listed : ∀ d, (s.record d).slot ≠ none ∨ (s.record d).queued ≠ 0 → ∃ u ∈ t.dt.updates, u.dest = d
  marks : s.marksUpdates t none fun d => (s.record d).slot.isSome || (s.record d).queued != 0
  records : t.ew = s.restartRecords.ew
  dt : t.dt = { s.dt with records := t.dt.records, updates := t.dt.updates }
  frame : t = { s with
    csa := { s.csa with openSet := [], queue := [], settling := [] }
    re := { s.re with
      slots := Vector.replicate 16 none, list := [], tickTimer := false, deferred := false
      passesDue := Vector.replicate 4 0, occasionDue := false }
    dt := t.dt
    xe := { s.xe with list := [] }
    cbp := { s.cbp with lock := .adopting, head := .restarting }
    pu := { s.pu with adoption := some { stage := .drain, adopted := 0, fixed := 0 } }
    ew := t.ew }

theorem State.emitAbandoned_eq (s : State) (e : SettlingSet) : s.emitAbandoned e = { s with ew := (s.emitAbandoned e).ew } :=
  State.emit_eq s _ _ _ _ _

theorem State.refuseRequest_eq (s : State) (r : ExchangeRequest) : s.refuseRequest r = { s with ew := (s.refuseRequest r).ew } :=
  State.emit_eq s _ _ _ _ _

/-- What the DT's and the RE's part of a restart leaves. -/
structure Work.restarts (w v : Work) : Prop where
  record : ∀ d, v.st.record d = { w.st.record d with queued := 0, wanted := false, slot := none }
  sorted : w.marks.Pairwise (· < ·) → v.marks.Pairwise (· < ·)
  marks : w.marks.Pairwise (· < ·) → ∀ d, d ∈ v.marks ↔ d ∈ w.marks ∨ (w.st.record d).slot ≠ none ∨ (w.st.record d).queued ≠ 0
  frame : ∃ records, v.st = { w.st with
    csa := { w.st.csa with queue := [], settling := [] }
    re := { w.st.re with slots := Vector.replicate 16 none, list := [] }
    dt := { w.st.dt with records := records }
    ew := (w.st.csa.settling.foldl State.emitAbandoned (w.st.csa.queue.foldl State.emitQueuedAbort w.st)).ew }

/-- The queued sets aborted and the settling sets abandoned. -/
def Work.setsCleared (w : Work) : Work :=
  { w.abortQueue w.st.csa.queue with
    st := ((w.abortQueue w.st.csa.queue).st.csa.settling.foldl State.emitAbandoned (w.abortQueue w.st.csa.queue).st).clearSets }

theorem Work.restart_eq (w : Work) : w.restart =
    allDests.foldl (fun w d => if (w.st.record d).wanted then w.clearWanted d else w)
      ((List.finRange 16).foldl Work.freeSlot w.setsCleared) := rfl

theorem Work.setsCleared_frame (w : Work) : ∃ records, w.setsCleared.st = { w.st with
    csa := { w.st.csa with queue := [], settling := [] }
    dt := { w.st.dt with records := records }
    ew := (w.st.csa.settling.foldl State.emitAbandoned (w.st.csa.queue.foldl State.emitQueuedAbort w.st)).ew } ∧
    ∀ d, w.setsCleared.st.record d = (w.abortQueue w.st.csa.queue).st.record d := by
  obtain ⟨records, hframe⟩ := (Work.abortQueue_aborts w.st.csa.queue w).frame
  have hew : ((w.abortQueue w.st.csa.queue).st.csa.settling.foldl State.emitAbandoned (w.abortQueue w.st.csa.queue).st).ew =
      (w.st.csa.settling.foldl State.emitAbandoned (w.st.csa.queue.foldl State.emitQueuedAbort w.st)).ew := by
    rw [show (w.abortQueue w.st.csa.queue).st.csa.settling = w.st.csa.settling by rw [hframe]]
    refine foldl_ew_congr (g := State.emitAbandoned) (g' := State.emitAbandoned)
      (fun _ _ x h => State.emit_ew_congr h _ _ _ _ _) _ ?_
    rw [hframe]
  have hst : w.setsCleared.st = { (w.abortQueue w.st.csa.queue).st with
      csa := { (w.abortQueue w.st.csa.queue).st.csa with queue := [], settling := [] }
      ew := (w.st.csa.settling.foldl State.emitAbandoned (w.st.csa.queue.foldl State.emitQueuedAbort w.st)).ew } := by
    unfold Work.setsCleared
    dsimp only
    rw [foldl_raises State.emitAbandoned_eq, hew]
    rfl
  refine ⟨records, ?_, State.record_congr (by rw [hst])⟩
  rw [hst, hframe]

theorem Work.restart_restarts {w : Work} (h : w.st.coreLaw) (hmarks : w.st.marksLaw) : w.restarts w.restart := by
  have haborts := Work.abortQueue_aborts w.st.csa.queue w
  obtain ⟨records, hframe, hrecord⟩ := w.setsCleared_frame
  have hre : w.setsCleared.st.re = w.st.re := by rw [hframe]
  have hcleared : ∀ d, w.setsCleared.st.record d = { w.st.record d with queued := 0 } := fun d => by
    rw [hrecord, haborts.record, hmarks d, Nat.sub_self]
  have hcore : w.setsCleared.st.coreLaw := h.kept (fun d => by rw [hcleared]) (fun d => by rw [hcleared]) hre (by rw [hframe])
    fun p => by rw [hframe]
  have hfreed := Work.foldl_freeSlot (List.finRange 16) hcore
  rw [Work.restart_eq]
  have hmark : ∀ d, d ∈ w.setsCleared.marks ↔ d ∈ (w.abortQueue w.st.csa.queue).marks := fun _ => Iff.rfl
  have hsorted : w.marks.Pairwise (· < ·) → w.setsCleared.marks.Pairwise (· < ·) := haborts.marks.sorted
  generalize w.setsCleared = v at hframe hrecord hre hcleared hcore hfreed hmark hsorted ⊢
  generalize (List.finRange 16).foldl Work.freeSlot v = x at hfreed ⊢
  obtain ⟨hwanted, hsame, records', hlast⟩ := Work.foldl_clearWanted allDests x
  generalize allDests.foldl (fun w d => if (w.st.record d).wanted then w.clearWanted d else w) x = y at hwanted hsame hlast ⊢
  have hnone : ∀ k : SlotNo, x.st.re.slots[k] = none := fun k => (hfreed.slots k).trans (if_pos (List.mem_finRange k))
  have hslot : ∀ d, (x.st.record d).slot = none := fun d => by
    cases hs : (x.st.record d).slot with
    | none => rfl
    | some n =>
      obtain ⟨sl, hsl, -⟩ := hfreed.core.slotNames d n hs
      exact nomatch (hnone n).symm.trans hsl
  have hslots : x.st.re.slots = Vector.replicate 16 none := Vector.ext fun i hi => by
    rw [Vector.getElem_replicate]
    exact hnone ⟨i, hi⟩
  have hlist : x.st.re.list = [] := List.eq_nil_iff_forall_not_mem.2 fun n hn => by
    have hsome := (hfreed.core.list.2 n).1 hn
    rw [hnone n] at hsome
    exact nomatch hsome
  refine ⟨fun d => ?_, fun hs => ?_, fun hs d => ?_, ?_⟩
  · rw [hwanted, if_pos (mem_allDests d), hfreed.record, hslot, hcleared]
  · rw [hsame]
    exact hfreed.sorted (hsorted hs)
  · rw [hsame, hfreed.marks, hmark, haborts.marks.mem hs, or_assoc, or_comm (a := d ∈ w.st.csa.queue.flatMap _)]
    refine or_congr_right (or_congr ?_ ?_)
    · rw [hcleared]
      exact ⟨fun ⟨n, _, hn⟩ => by rw [hn]; exact Option.some_ne_none n, fun hne => by
        obtain ⟨n, hn⟩ := Option.ne_none_iff_exists'.1 hne
        exact ⟨n, List.mem_finRange n, hn⟩⟩
    · rw [hmarks d, Ne, List.count_eq_zero, not_not]
  · obtain ⟨records'', slots, list, hframe'⟩ := hfreed.frame
    refine ⟨records', hlast.trans ?_⟩
    have hst : x.st = { w.st with
        csa := { w.st.csa with queue := [], settling := [] }
        re := { w.st.re with slots := Vector.replicate 16 none, list := [] }
        dt := { w.st.dt with records := records'' }
        ew := (w.st.csa.settling.foldl State.emitAbandoned (w.st.csa.queue.foldl State.emitQueuedAbort w.st)).ew } := by
      rw [← hslots, ← hlist]
      conv_lhs => rw [hframe', hframe]
      rw [hframe']
    rw [hst]

theorem State.abortOpen_ew {t : State} (hcsa : t.csa.openSet = s.csa.openSet) (hew : t.ew = s.ew) :
    t.abortOpen.ew = s.abortOpen.ew := by
  unfold State.abortOpen
  rw [hcsa]
  split
  · exact hew
  · exact State.emit_ew_congr (s := s.emptyOpen) (t := t.emptyOpen) hew _ _ _ _ _

/-- The event writer after the records of the sets. -/
def State.setRecords (s : State) : State :=
  s.csa.settling.foldl State.emitAbandoned (s.csa.queue.foldl State.emitQueuedAbort s.abortOpen)

/-- The state in which the DT's and the RE's part of a restart leaves its request. -/
theorem State.restart_frame {v : Work} (k : s.abortOpen.begin.restarts v) : ∃ records, v.st = { s with
    csa := { s.csa with openSet := [], queue := [], settling := [] }
    re := { s.re with slots := Vector.replicate 16 none, list := [] }
    dt := { s.dt with records := records }
    ew := s.setRecords.ew } := by
  have hopen := s.abortOpen_eq
  obtain ⟨records, hframe⟩ := k.frame
  have hcsa : s.abortOpen.csa = { s.csa with openSet := [] } := by rw [hopen]
  have hew : (s.abortOpen.csa.settling.foldl State.emitAbandoned (s.abortOpen.csa.queue.foldl State.emitQueuedAbort s.abortOpen)).ew =
      s.setRecords.ew := by rw [hcsa]; rfl
  rw [show s.abortOpen.begin.st = s.abortOpen from rfl, hew] at hframe
  generalize s.setRecords.ew = ew at hframe ⊢
  refine ⟨records, hframe.trans ?_⟩
  rw [hopen]

/-- The steps of a restart after that request: no tick, the listed requests refused, the window and adoption waiting. -/
theorem Work.finish_awaits (v : Work) : ((v.finish none).stopTicks.refuseListed).awaitAdoption = { v.st with
    re := { v.st.re with tickTimer := false, deferred := false, passesDue := Vector.replicate 4 0, occasionDue := false }
    dt := { v.st.dt with updates := v.marks.foldl (markUpdate none) v.st.dt.updates }
    xe := { v.st.xe with list := [] }
    cbp := { v.st.cbp with lock := .adopting, head := .restarting }
    pu := { v.st.pu with adoption := some { stage := .drain, adopted := 0, fixed := 0 } }
    ew := (v.st.xe.list.foldl State.refuseRequest v.st).ew } := by
  have hew : ((v.finish none).stopTicks.xe.list.foldl State.refuseRequest (v.finish none).stopTicks).ew =
      (v.st.xe.list.foldl State.refuseRequest v.st).ew :=
    foldl_ew_congr (g := State.refuseRequest) (g' := State.refuseRequest)
      (fun _ _ x h => State.emit_ew_congr h _ _ _ _ _) _ rfl
  rw [State.refuseListed_eq, foldl_raises State.refuseRequest_eq, hew]
  rfl

/-- The DT's and the RE's part of a restart, in the terms of the state before it. -/
theorem State.restart_own (h : s.coreLaw) (hmarks : s.marksLaw) : s.abortOpen.begin.restarts s.abortOpen.begin.restart := by
  have hopen := s.abortOpen_eq
  have hdt : s.abortOpen.dt = s.dt := by rw [hopen]
  have hrecord : ∀ d, s.abortOpen.record d = s.record d := State.record_congr (by rw [hdt])
  have hcore : s.abortOpen.coreLaw := h.kept (fun d => by rw [hrecord]) (fun d => by rw [hrecord]) (by rw [hopen]) (by rw [hopen])
    fun p => by rw [hdt]
  refine Work.restart_restarts (w := s.abortOpen.begin) hcore fun d => ?_
  show (s.abortOpen.record d).queued = _
  rw [hrecord, hmarks d]
  show _ = (s.abortOpen.csa.queue.flatMap _).count d
  rw [hopen]

theorem Work.finish_awaits_restarts {v : Work} (hrun : s.abortOpen.begin.restarts v) :
    s.restarts ((v.finish none).stopTicks.refuseListed).awaitAdoption := by
  have hrecord : ∀ d, s.abortOpen.record d = s.record d := State.record_congr (by rw [s.abortOpen_eq])
  have hmem : ∀ d, d ∈ v.marks ↔ (s.record d).slot ≠ none ∨ (s.record d).queued ≠ 0 := fun d => by
    rw [hrun.marks List.Pairwise.nil, ← hrecord d]
    exact or_iff_right List.not_mem_nil
  have hsorted := hrun.sorted List.Pairwise.nil
  have hrec : ∀ d, v.st.record d = { s.record d with queued := 0, wanted := false, slot := none } := fun d => by
    rw [hrun.record, ← hrecord]
    rfl
  obtain ⟨records, hframe⟩ := State.restart_frame hrun
  have hew : (v.st.xe.list.foldl State.refuseRequest v.st).ew = s.restartRecords.ew := by
    rw [show v.st.xe = s.xe by rw [hframe]]
    exact foldl_ew_congr (g := State.refuseRequest) (g' := State.refuseRequest)
      (fun _ _ x h => State.emit_ew_congr h _ _ _ _ _) _ (show v.st.ew = s.setRecords.ew by rw [hframe])
  have hupdates : v.st.dt.updates = s.dt.updates := by rw [hframe]
  have hfin := v.finish_awaits
  rw [hew] at hfin
  have hdt' : (((v.finish none).stopTicks.refuseListed).awaitAdoption).dt =
      { s.dt with records := v.st.dt.records, updates := v.marks.foldl (markUpdate none) s.dt.updates } := by
    rw [hfin, hframe]
  have hew' : (((v.finish none).stopTicks.refuseListed).awaitAdoption).ew = s.restartRecords.ew := by rw [hfin]
  have hall : ((v.finish none).stopTicks.refuseListed).awaitAdoption = { s with
      csa := { s.csa with openSet := [], queue := [], settling := [] }
      re := { s.re with
        slots := Vector.replicate 16 none, list := [], tickTimer := false, deferred := false
        passesDue := Vector.replicate 4 0, occasionDue := false }
      dt := (((v.finish none).stopTicks.refuseListed).awaitAdoption).dt
      xe := { s.xe with list := [] }
      cbp := { s.cbp with lock := .adopting, head := .restarting }
      pu := { s.pu with adoption := some { stage := .drain, adopted := 0, fixed := 0 } }
      ew := (((v.finish none).stopTicks.refuseListed).awaitAdoption).ew } := by
    rw [hew', hdt', hfin, hframe]
  have hrecords : ∀ d, (((v.finish none).stopTicks.refuseListed).awaitAdoption).record d = v.st.record d :=
    State.record_congr (by rw [hdt'])
  have hmark : s.marksUpdates (v.finish none) none fun d => (s.record d).slot.isSome || (s.record d).queued != 0 :=
    Work.finish_marksUpdates (s := s) (w := v) hupdates hsorted fun e => by
      rw [hmem, Bool.or_eq_true, bne_iff_ne, Option.isSome_iff_ne_none]
  have hlist : (((v.finish none).stopTicks.refuseListed).awaitAdoption).dt.updates = (v.finish none).dt.updates := by
    rw [hdt']
    show _ = v.marks.foldl (markUpdate none) v.st.dt.updates
    rw [hupdates]
  refine ⟨fun d => (hrecords d).trans (hrec d), fun d hd => ?_, fun hl => ?_, hew', ?_, hall⟩
  · rw [hlist]
    exact Work.finish_listed ((hmem d).2 hd)
  · rw [hlist]
    exact hmark hl
  · conv_lhs => rw [hdt']
    rw [hdt']

theorem State.carryOutRestart_restarts (h : s.coreLaw) (hmarks : s.marksLaw) : s.restarts s.carryOutRestart :=
  Work.finish_awaits_restarts (State.restart_own h hmarks)

end Restart

/-- Settles O25: the restart's own effect, on the state with the mailbox written. -/
theorem restartCarriedOut : Obligations.RestartCarriedOut := by
  unfold Obligations.RestartCarriedOut
  intro s a bytes h hwf hgrant hsource hhead
  have haccess := State.ctlAccess_head hsource hhead
  obtain ⟨hholds, hkeeps⟩ := State.granted_holds hwf haccess
  have he : (s.granted .ctl).headGranted = (s.granted .ctl).carryOutRestart := by
    rw [State.headGranted, show (s.granted .ctl).cbp.head = .writing [.write a bytes] true from hhead]
    rfl
  have hrun : (s.granted .ctl).restarts (s.granted .ctl).carryOutRestart :=
    State.carryOutRestart_restarts (h.core.congr rfl rfl rfl rfl rfl) h.marks
  have hframe := hrun.frame
  have hrecords := hrun.records
  refine ⟨_, congrArg Host.Outcome.next ((ctlWriteGrantStep_granted hgrant hsource).trans he), ?_, ?_, hrun.record, hrun.listed,
    hrun.marks, ?_, hrun.dt, ?_, ?_, ?_, ?_, ?_⟩
  · rw [hframe]
    exact ⟨rfl, rfl, rfl⟩
  · rw [hframe]
    rfl
  · intro aborted rejected abandoned refused
    refine hrecords.trans (foldl_ew_congr (g := State.refuseRequest) (fun _ _ _ hew => ?_) s.xe.list
      (foldl_ew_congr (g := State.emitAbandoned) (fun _ _ _ hew => ?_) s.csa.settling
        (foldl_ew_congr (g := State.emitQueuedAbort) (fun u v x hew => ?_) s.csa.queue ?_)))
    · exact State.emit_ew_congr hew _ _ _ _ _
    · exact State.emit_ew_congr hew _ _ _ _ _
    · unfold State.emitQueuedAbort
      cases hx : x.entries with
      | nil => exact hew
      | cons e rest => exact State.emit_ew_congr hew _ _ _ _ _
    · show (s.granted .ctl).abortOpen.ew = aborted.ew
      rw [State.abortOpen_ew (s := s) (t := s.granted .ctl) rfl rfl]
      unfold State.abortOpen aborted
      cases s.csa.openSet with
      | nil => rfl
      | cons e rest => exact State.emit_ew_congr (s := s) (t := s.emptyOpen) rfl _ _ _ _ _
  · rw [hframe]
    rfl
  · rw [hframe]
    rfl
  · rw [hframe]
    rfl
  · rw [hframe]
    exact ⟨hholds, hkeeps⟩
  · conv_lhs => rw [hframe]
    rw [hframe]
    rfl

end Sys2Proof.Machine

/-! The table laws and what stands beside the table (O58). -/

namespace Sys2Proof.Machine

/-- What the table laws speak of, but for the head in handling and the exchange, is as it was. -/
structure State.keepsTable (s t : State) : Prop where
  records : t.dt.records = s.dt.records
  ports : t.dt.ports = s.dt.ports
  isolated : t.dt.isolated = s.dt.isolated
  slots : t.re.slots = s.re.slots
  list : t.re.list = s.re.list
  csa : t.csa = s.csa
  pu : t.pu = s.pu

/-- A head in handling that the laws say nothing of. -/
def HeadStage.isPlain : HeadStage → Bool
  | .waiting => true
  | .masking _ _ => false
  | .writing _ restart => !restart
  | .ringWord => true
  | .restarting => true

section Keeps
variable {s t u : State}

theorem State.keepsTable_of_beside (hdt : t.dt = s.dt) (hre : t.re = s.re) (hcsa : t.csa = s.csa) (hpu : t.pu = s.pu) :
    s.keepsTable t :=
  ⟨by rw [hdt], by rw [hdt], by rw [hdt], by rw [hre], by rw [hre], hcsa, hpu⟩

theorem State.keepsTable.trans (h : s.keepsTable t) (k : t.keepsTable u) : s.keepsTable u where
  records := k.records.trans h.records
  ports := k.ports.trans h.ports
  isolated := k.isolated.trans h.isolated
  slots := k.slots.trans h.slots
  list := k.list.trans h.list
  csa := k.csa.trans h.csa
  pu := k.pu.trans h.pu

theorem State.emit_keepsTable (s : State) (kind : RecordKind) (reason : Nat) (subject : BitVec 16) (a b : Word) :
    s.keepsTable (s.emit kind reason subject a b) := by
  rw [State.emit_eq]
  exact State.keepsTable_of_beside rfl rfl rfl rfl

theorem State.retireHead_keepsTable (s : State) : s.keepsTable s.retireHead :=
  State.keepsTable_of_beside s.retireHead_dt s.retireHead_re s.retireHead_csa s.retireHead_pu

theorem State.apartLaw.running_iff {todo : List Access} (h : s.apartLaw) (hhead : s.cbp.head = .writing todo true) :
    s.xe.running = none := by
  by_contra hrun
  exact (h.exclusive hrun).2 todo hhead

/-- The table laws hold still where the table is as it was, and the head in handling is or is a plain one. -/
theorem State.tableLaw.beside (h : s.tableLaw) (k : s.keepsTable t) (hxe : t.xe.running = s.xe.running)
    (hhead : t.cbp.head = s.cbp.head ∨ t.cbp.head.isPlain = true) : t.tableLaw := by
  refine h.sameTable k.records k.ports k.isolated k.slots k.list k.csa k.pu ⟨fun hrun => ?_, fun m todo hm => ?_, ?_, ?_⟩
  · rw [hxe] at hrun
    rw [k.pu]
    refine ⟨(h.exclusive hrun).1, fun todo ht => ?_⟩
    obtain hsame | hplain := hhead
    · exact (h.exclusive hrun).2 todo (hsame ▸ ht)
    · rw [ht] at hplain
      cases hplain
  · rw [k.pu]
    obtain hsame | hplain := hhead
    · exact h.masking m todo (hsame ▸ hm)
    · rw [hm] at hplain
      cases hplain
  · rw [hxe]
    exact h.swapWord
  · rw [k.pu, k.csa]
    exact h.apart.adopting

theorem State.tableLaw.retireHead (h : s.tableLaw) : s.retireHead.tableLaw :=
  h.beside s.retireHead_keepsTable (by rw [State.retireHead_eq]) (.inr (by rw [s.retireHead_head_lock.1]; rfl))

theorem State.tableLaw.emit (h : s.tableLaw) (kind : RecordKind) (reason : Nat) (subject : BitVec 16) (a b : Word) :
    (s.emit kind reason subject a b).tableLaw :=
  h.beside (s.emit_keepsTable _ _ _ _ _) (by rw [State.emit_eq]) (.inl (by rw [State.emit_eq]))

theorem State.tableLaw.headWrites (h : s.tableLaw) (todo : List Access) : (s.headWrites todo false).tableLaw :=
  h.beside (State.keepsTable_of_beside rfl rfl rfl rfl) rfl (.inr rfl)

/-- A command that is taken has the window to itself: no exchange runs and no adoption does (R127). -/
theorem State.headToTake_window {p : PostedWrite} (hp : s.headToTake = some p) (hzone : p.zone ≠ .passThrough) :
    s.xe.running = none ∧ s.pu.adoption = none := by
  have hwindow := (State.headToTake_spec hp).2.2.resolve_left hzone
  rw [State.handsWindow, Bool.and_eq_true, Option.isNone_iff_eq_none, Option.isNone_iff_eq_none] at hwindow
  exact hwindow

theorem State.commandToTake_window {n : Nat} {p : PostedWrite} (hp : s.commandToTake n = some p) :
    s.xe.running = none ∧ s.pu.adoption = none := by
  obtain ⟨hhead, hzone, -⟩ := State.commandToTake_spec hp
  exact State.headToTake_window hhead (by rw [hzone]; decide)

theorem State.tableLaw.takeRestart (h : s.tableLaw) (hrun : s.xe.running = none) (todo : List Access) :
    (s.headWrites todo true).tableLaw :=
  h.sameTable rfl rfl rfl rfl rfl rfl rfl ⟨fun hne => absurd hrun hne, nofun, h.swapWord, h.apart.adopting⟩

theorem State.tableLaw.takeMask (h : s.tableLaw) (hadopt : s.pu.adoption = none) (m : Fin 12) (todo : List (Fin 32)) :
    (s.setHead (.masking m todo)).tableLaw :=
  h.sameTable rfl rfl rfl rfl rfl rfl rfl
    ⟨fun hrun => ⟨hadopt, nofun⟩, fun _ _ _ => hadopt, h.swapWord, h.apart.adopting⟩

/-- An exchange at another stage keeps the table laws, if the swap is reached with a path word that is no u-turn. -/
theorem State.tableLaw.setRunning (h : s.tableLaw) (hrun : s.xe.running ≠ none) (x : Option RunningExchange)
    (hswap : ∀ y d src, x = some y → y.stage = .swap → destOfNat (keyDest y.keyWord) = some d →
      pathSource d y.pathWord = some src → isUturn d src = false) : (s.setRunning x).tableLaw :=
  h.sameTable rfl rfl rfl rfl rfl rfl rfl
    ⟨fun _ => h.exclusive hrun, fun m todo hm => h.masking m todo hm, hswap, h.apart.adopting⟩

end Keeps

end Sys2Proof.Machine

/-! What the light monitor, the exchange list and the event writer do beside the table (R95 to R103, R111, R138). -/

namespace Sys2Proof.Machine

/-- Of all that the laws of the table and of its image in memory speak of nothing has changed. -/
structure State.standsBeside (s t : State) : Prop where
  dt : t.dt = s.dt
  re : t.re = s.re
  csa : t.csa = s.csa
  pu : t.pu = s.pu
  masks : t.masks = s.masks
  mem : t.mem = s.mem
  cbp : t.cbp = s.cbp
  running : t.xe.running = s.xe.running

section Beside
variable {s t u : State} {w : Way}

theorem State.standsBeside.refl (s : State) : s.standsBeside s := ⟨rfl, rfl, rfl, rfl, rfl, rfl, rfl, rfl⟩

theorem State.standsBeside.trans (h : s.standsBeside t) (k : t.standsBeside u) : s.standsBeside u where
  dt := k.dt.trans h.dt
  re := k.re.trans h.re
  csa := k.csa.trans h.csa
  pu := k.pu.trans h.pu
  masks := k.masks.trans h.masks
  mem := k.mem.trans h.mem
  cbp := k.cbp.trans h.cbp
  running := k.running.trans h.running

theorem State.standsBeside.keepsTable (h : s.standsBeside t) : s.keepsTable t :=
  State.keepsTable_of_beside h.dt h.re h.csa h.pu

theorem State.standsBeside.tableLaw (k : s.standsBeside t) (h : s.tableLaw) : t.tableLaw :=
  h.beside k.keepsTable k.running (.inl (by rw [k.cbp]))

theorem State.emit_standsBeside (s : State) (kind : RecordKind) (reason : Nat) (subject : BitVec 16) (a b : Word) :
    s.standsBeside (s.emit kind reason subject a b) := by
  rw [State.emit_eq]
  exact ⟨rfl, rfl, rfl, rfl, rfl, rfl, rfl, rfl⟩

theorem State.setWay_beside (s : State) (w : Way) (r : WayRecord) : s.standsBeside (s.setWay w r) :=
  ⟨rfl, rfl, rfl, rfl, rfl, rfl, rfl, rfl⟩

theorem State.wayChange_beside (s : State) (w : Way) (old : WayState) (r : WayRecord) :
    s.standsBeside ((s.setWay w r).emitWayState w old r) :=
  (s.setWay_beside w r).trans (State.emit_standsBeside _ _ _ _ _ _)

theorem State.callPlan_beside (s : State) (w : Way) : s.standsBeside (s.callPlan w) := by
  have hfault : ∀ p, s.standsBeside (s.faultRequest w p) := fun p => by
    unfold State.faultRequest
    split
    · exact s.emit_standsBeside _ _ _ _ _
    · split
      · exact s.emit_standsBeside _ _ _ _ _
      · split
        · exact s.emit_standsBeside _ _ _ _ _
        · exact ⟨rfl, rfl, rfl, rfl, rfl, rfl, rfl, rfl⟩
  unfold State.callPlan
  split
  · exact .refl s
  · split
    · exact .refl s
    · exact (hfault _).trans (State.setWay_beside _ _ _)

/-- An evaluation changes the light monitor, the exchange list and the event writer alone, and sends the DT at most one
request, the isolation or the release of its way (R96 to R101). -/
theorem State.evaluateWay_requests (s : State) (w : Way) : ∃ u, s.standsBeside u ∧
    (s.evaluateWay w = u ∨ s.evaluateWay w = u.isolate w ∨ s.evaluateWay w = u.release w none) := by
  have hserving : ∀ r lossy, ∃ u, s.standsBeside u ∧
      (s.evaluateServing w r lossy = u ∨ s.evaluateServing w r lossy = u.isolate w ∨
        s.evaluateServing w r lossy = u.release w none) := fun r lossy => by
    by_cases hsame : stateOfCounter (nextCounter lossy r.counter) = r.state
    · rw [State.evaluateServing_same hsame]
      exact ⟨_, s.setWay_beside _ _, .inl rfl⟩
    · rw [State.evaluateServing_changed hsame]
      split
      · exact ⟨_, s.wayChange_beside _ _ _, .inr (.inl rfl)⟩
      · exact ⟨_, (s.wayChange_beside _ _ _).trans (State.callPlan_beside _ _), .inl rfl⟩
      all_goals exact ⟨_, s.wayChange_beside _ _ _, .inl rfl⟩
  unfold State.evaluateWay
  dsimp only
  split
  · exact hserving _ _
  · exact hserving _ _
  · exact hserving _ _
  · unfold State.evaluateIsolated
    dsimp only
    split
    · exact ⟨_, s.setWay_beside _ _, .inl rfl⟩
    · split
      · exact ⟨_, s.setWay_beside _ _, .inl rfl⟩
      · split
        · exact ⟨_, s.wayChange_beside _ _ _, .inl rfl⟩
        · exact ⟨_, s.wayChange_beside _ _ _, .inr (.inr rfl)⟩
  · unfold State.evaluateAwaiting
    dsimp only
    split
    · exact ⟨_, s.wayChange_beside _ _ _, .inl rfl⟩
    · exact ⟨_, s.setWay_beside _ _, .inl rfl⟩

/-- WAY_EVALUATION sends the DT at most one request (R96). -/
theorem wayEvaluationStep_requests (w : Way) (s : State) : ∃ u, s.standsBeside u ∧
    (wayEvaluationStep w s = u ∨ wayEvaluationStep w s = u.isolate w ∨ wayEvaluationStep w s = u.release w none) := by
  obtain he | ⟨-, he⟩ := wayEvaluationStep_cases w s <;> rw [he]
  · exact ⟨s, .refl s, .inl rfl⟩
  · obtain ⟨u, hu, hcases⟩ := (s.takeEvaluation w).evaluateWay_requests w
    exact ⟨u, State.standsBeside.trans (t := s.takeEvaluation w) ⟨rfl, rfl, rfl, rfl, rfl, rfl, rfl, rfl⟩ hu, hcases⟩

/-- A release by command sends the DT at most the release of one way, under the command's tag (R103). -/
theorem State.manualRelease_requests (s : State) (v tag : Nat) : ∃ u, s.standsBeside u ∧
    (s.manualRelease v tag = u ∨ ∃ w, s.manualRelease v tag = u.release w (some tag)) := by
  obtain ⟨code, he⟩ | ⟨w, -, -, he⟩ := s.manualRelease_cases v tag <;> rw [he]
  · exact ⟨_, s.emit_standsBeside _ _ _ _ _, .inl rfl⟩
  · exact ⟨_, s.wayChange_beside _ _ _, .inr ⟨w, rfl⟩⟩

theorem State.controllerRequest_beside (s : State) (v : Nat) : s.standsBeside (s.controllerRequest v) := by
  unfold State.controllerRequest
  split
  · exact s.emit_standsBeside _ _ _ _ _
  · split
    · exact ⟨rfl, rfl, rfl, rfl, rfl, rfl, rfl, rfl⟩
    · exact .refl s

/-- A grant's own access: memory and the pointers of the arbiter. -/
theorem State.granted_keepsTable (s : State) (r : Requester) : s.keepsTable (s.granted r) :=
  State.keepsTable_of_beside rfl rfl rfl rfl

end Beside

/-! ### The requests of the MU and the LM keep the table laws -/

section Requests
variable {s t : State} {w : Way}

theorem State.keepsOutsideTable.of_isolated {k : Way} {b : Bool} (h : (s.setIsolated k b).keepsOutsideTable t) :
    s.keepsOutsideTable t :=
  ⟨h.pending, h.cbp, h.masks, h.lm, h.xe, h.tmp, h.pu, h.los, h.mem, h.freeCount⟩

/-- A request carried out for several destinations keeps the table laws with its inner laws. -/
theorem Work.spans.tableLaw {k : Way} {b lift : Bool} {v : Work} {l : List Dest} {record : Dest → DestRecord}
    {content : Dest → Option RampSlot} {cut ended : Nat → Nat}
    (hspans : (s.setIsolated k b).begin.spans v l record content lift cut ended) (h : s.tableLaw)
    (hinner : v.st.innerLaw none) (hqueued : ∀ d ∈ l, (record d).queued = (s.record d).queued) : v.st.tableLaw := by
  refine State.tableLaw_of_request h hinner hspans.reworks.outside.of_isolated hspans.reworks.sets fun d => ?_
  by_cases hd : d ∈ l
  · rw [hspans.record d hd]
    exact hqueued d hd
  · rw [hspans.others d hd]
    rfl

theorem State.tableLaw.isolate (h : s.tableLaw) (k : Way) : (s.isolate k).tableLaw := by
  obtain ⟨v, hv, hspans⟩ := s.isolate_spans h.inner k
  have hinner := State.isolate_innerLaw h.inner k
  rw [hv] at hinner ⊢
  refine Work.finish_tableLaw (hspans.tableLaw h (hinner.congr rfl rfl rfl rfl rfl rfl (le_refl _) rfl) fun d _ => ?_) _
  unfold DestRecord.forcedDark
  split <;> rfl

theorem State.tableLaw.release (h : s.tableLaw) (k : Way) (tag : Option Nat) : (s.release k tag).tableLaw := by
  obtain ⟨v, hv, hspans⟩ := s.release_spans h.inner k tag
  have hinner := State.release_innerLaw h.inner k tag
  rw [hv] at hinner ⊢
  refine Work.finish_tableLaw (hspans.tableLaw h (hinner.congr rfl rfl rfl rfl rfl rfl (le_refl _) rfl) fun d _ => ?_) _
  unfold DestRecord.unforced DestRecord.released
  split
  · dsimp only
    split <;> rfl
  · rfl

/-- A blocked-flag request keeps the table laws (R6). -/
theorem State.tableLaw.blockRequest (h : s.tableLaw) (hidle : s.pu.adoption = none) (tag : Nat) (m : Fin 12) (b : Fin 32)
    (value : Bool) : (s.blockRequest tag (maskDest m b) value).tableLaw := by
  have hbuilt := State.isBuilt_of_idle hidle (maskDest m b)
  have hre : s.reworks (s.begin.changeBlocked (maskDest m b) value).st :=
    (State.reworks.refl s).changeBlocked (w := s.begin) _ _
  have hinner := Work.changeBlocked_innerLaw (w := s.begin) h.inner (isLine_maskDest m b) hbuilt value
  obtain ⟨hmake, -⟩ := Work.changeBlocked_makes (w := s.begin) h.inner.core h.inner.listed hbuilt (h.inner.waits _) value
  refine Work.finish_tableLaw (State.tableLaw_of_request h hinner hre.outside hre.sets fun d => ?_) _
  by_cases hd : d = maskDest m b
  · rw [hd, hmake.record, DestRecord.reevaluated_record]
    rfl
  · rw [hmake.others d hd]
    rfl

theorem State.tableLaw.blockNext (h : s.tableLaw) (hidle : s.pu.adoption = none) (tag : Nat) (m : Fin 12)
    (todo : List (Fin 32)) : (s.blockNext tag m todo).tableLaw := by
  cases todo with
  | nil => exact h.headWrites _
  | cons b rest =>
    have hreq := h.blockRequest hidle tag m b ((s.maskWord m).getLsbD b.val)
    have hpu := (s.blockRequest_requested tag (maskDest m b) ((s.maskWord m).getLsbD b.val)).outside.pu
    cases rest with
    | nil => exact hreq.headWrites _
    | cons c rest => exact hreq.takeMask (by rw [hpu]; exact hidle) m _

theorem State.tableLaw.passWay (h : s.tableLaw) (w : Way) : (s.passWay w).tableLaw :=
  (State.visits_foldl s.pu.params.maxStep (s.slotsOfWay w) h _).1.table

end Requests

end Sys2Proof.Machine

/-! The CSA keeps the table laws (R23 to R36). -/

namespace Sys2Proof.Machine

section Checks
variable {e : OpenEntry} {es : List OpenEntry} {earlier : List Port}

/-- An entry that passes its static check has a legal source, and a port that no earlier entry names (R29). -/
theorem staticCheck_eq_none (h : staticCheck earlier e = none) : ∃ src, pathSource e.dest e.word = some src ∧
    isUturn e.dest src = false ∧ ∀ p, src = .port p → p ∉ earlier := by
  unfold staticCheck at h
  split at h
  · cases h
  · next src hsrc =>
    split at h
    · cases h
    · next hu =>
      refine ⟨src, hsrc, Bool.eq_false_iff.2 hu, ?_⟩
      rintro p rfl hp
      exact absurd ((if_pos hp).symm.trans h) nofun

theorem entryPort_eq (e : OpenEntry) : entryPort e = (decodeEntry e).port.toList := by
  unfold entryPort decodeEntry SetEntry.port
  cases pathSource e.dest e.word with
  | none => rfl
  | some src => cases src <;> rfl

/-- Entries that pass the static checks have legal sources and name no port twice, nor one that is named earlier (R29). -/
theorem staticChecks_eq_none (h : staticChecks earlier es = none) :
    (∀ e ∈ es, legalSource e.dest (decodeEntry e).src) ∧ ((es.map decodeEntry).filterMap SetEntry.port).Nodup ∧
      ∀ p ∈ (es.map decodeEntry).filterMap SetEntry.port, p ∉ earlier := by
  induction es generalizing earlier with
  | nil => exact ⟨nofun, List.nodup_nil, nofun⟩
  | cons e es ih =>
    rw [staticChecks] at h
    split at h
    · cases h
    · next hcheck =>
      obtain ⟨src, hsrc, huturn, hport⟩ := staticCheck_eq_none hcheck
      obtain ⟨hlegal, hnodup, hfree⟩ := ih h
      have hdecode : (decodeEntry e).src = src := by rw [decodeEntry, hsrc]; rfl
      refine ⟨List.forall_mem_cons.2 ⟨by rw [hdecode]; exact legalSource_of_pathSource hsrc huturn, hlegal⟩, ?_⟩
      rw [List.map_cons, List.filterMap_cons]
      rw [entryPort_eq] at hfree
      cases hp : (decodeEntry e).port with
      | none => exact ⟨hnodup, fun p hmem hearly => hfree p hmem (List.mem_append_left _ hearly)⟩
      | some p =>
        rw [hp] at hfree
        refine ⟨List.nodup_cons.2 ⟨fun hmem => hfree p hmem (List.mem_append_right _ (List.mem_singleton_self p)), hnodup⟩,
          List.forall_mem_cons.2 ⟨hport p ?_, fun c hmem hearly => hfree c hmem (List.mem_append_left _ hearly)⟩⟩
        rw [← hdecode]
        exact SetEntry.port_eq_some.1 hp

/-- A closed set that passes its static checks is a legal queued set (R29, R31). -/
theorem QueuedSet.legal_of_checks (label : BitVec 4) (hdests : (es.map OpenEntry.dest).Nodup) (h : staticChecks [] es = none) :
    QueuedSet.legal { label := label, entries := es.map decodeEntry } := by
  obtain ⟨hlegal, hnodup, -⟩ := staticChecks_eq_none h
  refine ⟨by rw [entryDests_decode]; exact hdests, hnodup, fun x hx => ?_⟩
  obtain ⟨e, he, rfl⟩ := List.mem_map.1 hx
  exact hlegal e he

end Checks

section Sets
variable {s : State}

theorem State.tableLaw.setOpen (h : s.tableLaw) {l : List OpenEntry} (hdests : (l.map OpenEntry.dest).Nodup)
    (hbound : l.length ≤ 4) : ({ s with csa := { s.csa with openSet := l } } : State).tableLaw :=
  State.tableLaw_of_parts (h.inner.congr rfl rfl rfl rfl rfl rfl (le_refl _) rfl) ⟨hdests, hbound, h.sets, h.setBound⟩
    h.marks (h.apart.congr rfl rfl rfl h.apart.adopting)

theorem State.tableLaw.emptyOpen (h : s.tableLaw) : s.emptyOpen.tableLaw := h.setOpen List.nodup_nil (Nat.zero_le _)

theorem State.tableLaw.abortOpen (h : s.tableLaw) : s.abortOpen.tableLaw := by
  unfold State.abortOpen
  split
  · exact h
  · exact h.emptyOpen.emit _ _ _ _ _

/-- The inner laws say nothing of queued marks. -/
theorem State.enters.innerLaw {t : State} {label : BitVec 4} {es : List SetEntry} {tag : Nat}
    (k : s.enters t label es tag) (h : s.innerLaw none) : t.innerLaw none := by
  have hpu : t.pu = s.pu := by rw [k.frame]
  have hports : t.dt.ports = s.dt.ports := by rw [k.dt]
  have hslots : t.re.slots = s.re.slots := by rw [k.re]
  have hof : ∀ d, t.slotOf d = s.slotOf d := fun d => State.slotOf_congr (by rw [k.record]) fun n _ => by rw [hslots]
  have hbuilt : ∀ d, t.isBuilt d = s.isBuilt d := State.isBuilt_congr hpu
  have hmap : t.mapStands → s.mapStands := by unfold State.mapStands; rw [hpu]; exact id
  refine ⟨⟨fun n sl hsl => ?_, fun d n hn => ?_, ?_, fun hstand p d => ?_⟩, fun d => ?_, fun hstand p d => ?_, ?_⟩
  · rw [hslots] at hsl
    rw [k.record]
    exact h.core.slots n sl hsl
  · rw [k.record] at hn
    rw [hslots]
    exact h.core.slotNames d n hn
  · rw [hslots, k.re]
    exact h.core.list
  · rw [hports, hbuilt, k.record]
    exact h.core.holders (hmap hstand) p d
  · have hlaw := h.dests d
    unfold State.destLaw at hlaw ⊢
    rw [hof, hbuilt, hpu, k.record, State.forcedFor_congr (s := s) (by rw [k.dt])]
    refine ⟨hlaw.tosane.congr rfl rfl rfl (fun _ => rfl) rfl rfl rfl, fun sl hsl => ?_⟩
    have hf := hlaw.follows sl hsl
    exact ⟨hf.dims, hf.brightens, hf.waiting, hf.toTarget, hf.toDark⟩
  · rw [hports, hbuilt, k.record]
    exact h.claims (hmap hstand) p d
  · refine ⟨fun e he => ?_, by rw [k.csa]; exact h.serves.ids, fun d x hx => ?_⟩
    · rw [k.csa] at he ⊢
      have hcount : t.servingCount e.id = s.servingCount e.id := by unfold State.servingCount; rw [hslots]
      rw [hcount]
      exact h.serves.listed e he
    · rw [State.servesOf, hof] at hx
      rw [k.csa]
      exact h.serves.serving d x hx

/-- A legal set that enters a queue with room keeps the table laws (R31). -/
theorem State.tableLaw.enterQueue (h : s.tableLaw) (hidle : s.pu.adoption = none) (hroom : s.csa.queue.length < 4)
    {label : BitVec 4} {es : List SetEntry} (hlegal : QueuedSet.legal { label := label, entries := es }) (tag : Nat) :
    (s.enterQueue label es tag).tableLaw := by
  have k := s.enterQueue_enters label es tag
  generalize s.enterQueue label es tag = t at k ⊢
  have hopen : t.csa.openSet = s.csa.openSet := by rw [k.csa]
  have hqueue : t.csa.queue = s.csa.queue ++ [{ label := label, entries := es }] := by rw [k.csa]
  refine State.tableLaw_of_parts (k.innerLaw h.inner) ⟨?_, ?_, fun q hq => ?_, ?_⟩ (fun d => ?_)
    (h.apart.congr (by rw [k.frame]) (by rw [k.frame]) (by rw [k.frame]) fun hadopt => ?_)
  · rw [hopen]; exact h.openDests
  · rw [hopen]; exact h.openBound
  · rw [hqueue, List.mem_append, List.mem_singleton] at hq
    obtain hq | rfl := hq
    · exact h.sets q hq
    · exact hlegal
  · rw [hqueue, List.length_append]
    exact hroom
  · rw [k.record, hqueue, List.flatMap_append, List.count_append, ← h.marks d]
    simp only [List.flatMap_cons, List.flatMap_nil, List.append_nil]
  · rw [k.frame] at hadopt
    exact absurd hidle hadopt

theorem State.trial_beside (s : State) (label : BitVec 4) (es : List SetEntry) : s.standsBeside (s.trial label es) := by
  unfold State.trial
  split
  · exact s.emit_standsBeside _ _ _ _ _
  · exact s.emit_standsBeside _ _ _ _ _

theorem State.tableLaw.closeSet (h : s.tableLaw) (hidle : s.pu.adoption = none) {es : List OpenEntry}
    (hdests : (es.map OpenEntry.dest).Nodup) (label : BitVec 4) {trial : Bool}
    (hroom : trial = false → s.csa.queue.length < 4) (tag : Nat) : (s.closeSet es label trial tag).tableLaw := by
  cases hcheck : staticChecks [] es with
  | some failed =>
    rw [State.closeSet_failed hcheck]
    exact h.emit _ _ _ _ _
  | none =>
    rw [State.closeSet_passed hcheck]
    cases trial with
    | true => exact (s.trial_beside _ _).tableLaw h
    | false => exact h.enterQueue hidle (hroom rfl) (QueuedSet.legal_of_checks label hdests hcheck) tag

/-- A path word taken into the open set keeps the table laws (R26 to R32). -/
theorem State.tableLaw.takePathWord (h : s.tableLaw) (hidle : s.pu.adoption = none) (d : Dest) {merged : Word}
    {close : Bool} (hroom : close = true → pathTrial merged = false → s.csa.queue.length < 4) (tag : Nat) :
    (s.takePathWord d merged close tag).tableLaw := by
  by_cases hfits : (openWord s.csa.openSet d).isSome = true ∨ s.csa.openSet.length < 4
  · have hopen : ((takeOpen s.csa.openSet d (storedWord merged)).map OpenEntry.dest).Nodup ∧
        (takeOpen s.csa.openSet d (storedWord merged)).length ≤ 4 := by
      have hlength : ((takeOpen s.csa.openSet d (storedWord merged)).map OpenEntry.dest).length = _ :=
        congrArg List.length takeOpen_dests
      rw [List.length_map, List.length_append, List.length_map] at hlength
      rw [takeOpen_dests]
      cases hword : openWord s.csa.openSet d with
      | some x =>
        rw [hword] at hlength
        exact ⟨by simpa using h.openDests, hlength.le.trans h.openBound⟩
      | none =>
        rw [hword] at hlength hfits
        have hlt := hfits.resolve_left nofun
        refine ⟨?_, hlength.le.trans hlt⟩
        rw [Option.isSome_none, if_neg nofun, List.nodup_append_comm]
        exact List.nodup_cons.2 ⟨openWord_eq_none_iff.1 hword, h.openDests⟩
    rw [State.takePathWord_room hfits]
    cases close with
    | true => exact h.emptyOpen.closeSet hidle hopen.1 _ (hroom rfl) tag
    | false => exact h.setOpen hopen.1 hopen.2
  · obtain ⟨hnone, hfull⟩ := not_or.1 hfits
    rw [State.takePathWord_overflow (Option.not_isSome_iff_eq_none.1 hnone) (not_lt.1 hfull)]
    exact h.emptyOpen.emit _ _ _ _ _

end Sets

/-! ### The occasion of the arbiter (R75) -/

section Occasion
variable {w : Work} {s : State}

theorem Work.close_tableLaw {v : Work} (h : v.st.tableLaw) : v.close.tableLaw :=
  (Work.finish_tableLaw h none).beside ⟨rfl, rfl, rfl, rfl, rfl, rfl, rfl⟩ rfl (.inl rfl)

theorem Work.admissions.tableLaw {v : Work} {l : List Dest} (k : w.admissions v l) (hre : w.st.reworks v.st)
    (h : w.st.tableLaw) : v.st.tableLaw :=
  State.tableLaw_of_request h k.law hre.outside hre.sets fun d => by rw [k.record d]

/-- The arbiter keeps the table laws at every head that it refuses or applies, and in the admissions that follow. -/
theorem Work.arbitrate_tableLaw (fuel : Nat) {w : Work} (h : w.st.tableLaw) (hidle : w.st.pu.adoption = none) :
    (Work.arbitrate fuel w).st.tableLaw := by
  induction fuel generalizing w with
  | zero => exact h
  | succ fuel ih =>
    cases hqueue : w.st.csa.queue with
    | nil =>
      rw [Work.arbitrate_empty h.inner hidle hqueue]
      exact (Work.foldl_admitWanted _ h.inner hidle w.st.wantedDests_sorted fun d => State.mem_wantedDests.1).tableLaw
        (Work.foldl_admitWanted_reworks _ (.refl _)) h
    | cons q rest =>
      cases hcheck : w.st.dynamicCheck q.entries with
      | some failed =>
        obtain ⟨e, p, c⟩ := failed
        rw [Work.arbitrate_rejects hqueue hcheck]
        have hreject := w.rejectSet_rejects q e p c
        refine ih (hreject.tableLaw h hqueue) ?_
        rw [hreject.frame, State.emitPortHeld_eq]
        exact hidle
      | none =>
        by_cases hroom : w.st.neededSlots q.entries ≤ w.st.freeSlots.length
        · rw [Work.arbitrate_applies hqueue hcheck hroom]
          have happly : w.admitsSet q rest := ⟨h, hidle, hqueue, hcheck, hroom⟩
          exact ih happly.tableLaw (by rw [(w.applySet_outside q).pu]; exact hidle)
        · rw [Work.arbitrate_waits hqueue hcheck (not_le.1 hroom)]
          exact h

theorem State.tableLaw.occasion (h : s.tableLaw) (hidle : s.pu.adoption = none) : s.occasion.tableLaw := by
  rw [State.occasion_eq rfl]
  exact Work.close_tableLaw (Work.arbitrate_tableLaw _ h hidle)

end Occasion

end Sys2Proof.Machine

/-! The exchange keeps the table laws (R113 to R117). -/

namespace Sys2Proof.Machine

section Exchange
variable {s : State} {x : RunningExchange} {d : Dest} {src : Source}

theorem State.withdrawDirect_head (s : State) : s.withdrawDirect.cbp.head = s.cbp.head := by
  obtain ⟨-, he | he | ⟨_, _, _, he⟩⟩ := s.withdrawDirect_spec <;> rw [he] <;> rfl

theorem State.beginExchange_head (s : State) (r : ExchangeRequest) : (s.beginExchange r).cbp.head = s.cbp.head :=
  State.withdrawDirect_head _

/-- What an EXCHANGE_START leaves the XE at: idle, or at the first header of the request begun. -/
theorem State.startFrom_stands (l : List ExchangeRequest) (s : State) : s.keepsTable (State.startFrom l s) ∧
    (State.startFrom l s).cbp.head = s.cbp.head ∧ (State.startFrom l s).mem = s.mem ∧ (State.startFrom l s).masks = s.masks ∧
    (State.startFrom l s).cbp.queue = s.cbp.queue ∧ (State.startFrom l s).dt = s.dt ∧
    ((State.startFrom l s).xe.running = s.xe.running ∨
      ∃ y, (State.startFrom l s).xe.running = some y ∧ y.stage = .header) := by
  induction l generalizing s with
  | nil => exact ⟨State.keepsTable_of_beside rfl rfl rfl rfl, rfl, rfl, rfl, rfl, rfl, .inl rfl⟩
  | cons r rest ih =>
    unfold State.startFrom
    split
    · have hemit := s.emit_standsBeside .exchangeRefused 2 (exchangeSubject r.plan) (originDetail r.origin) (refusedDetail r)
      obtain ⟨htable, hhead, hmem, hmasks, hqueue, hdt, hrun⟩ := ih (s.emit .exchangeRefused 2 (exchangeSubject r.plan)
        (originDetail r.origin) (refusedDetail r))
      rw [hemit.running] at hrun
      rw [hemit.cbp] at hhead hqueue
      exact ⟨hemit.keepsTable.trans htable, hhead, hmem.trans hemit.mem, hmasks.trans hemit.masks, hqueue, hdt.trans hemit.dt,
        hrun⟩
    · have hqueue : ∀ u : State, u.withdrawDirect.cbp.queue = u.cbp.queue := fun u => by
        obtain ⟨-, he | he | ⟨_, _, _, he⟩⟩ := u.withdrawDirect_spec <;> rw [he] <;> rfl
      refine ⟨?_, State.beginExchange_head _ r, ?_, ?_, hqueue _, ?_, .inr ⟨_, by rw [State.beginExchange_eq], rfl⟩⟩ <;>
        rw [State.beginExchange_eq]
      exact State.keepsTable_of_beside rfl rfl rfl rfl

theorem exchangeStartStep_tableLaw (h : s.tableLaw) : (exchangeStartStep s).tableLaw := by
  unfold exchangeStartStep
  split
  · next hmay =>
    rw [State.mayStart, Bool.and_eq_true, Bool.and_eq_true, Option.isNone_iff_eq_none, Option.isNone_iff_eq_none,
      beq_iff_eq] at hmay
    obtain ⟨⟨hrun, hidle⟩, hwaiting⟩ := hmay
    obtain ⟨htable, hhead, -, -, -, -, hnext⟩ := State.startFrom_stands s.xe.list s
    generalize State.startFrom s.xe.list s = t at *
    rw [hwaiting] at hhead
    refine h.sameTable htable.records htable.ports htable.isolated htable.slots htable.list htable.csa htable.pu
      ⟨fun _ => ⟨by rw [htable.pu]; exact hidle, by rw [hhead]; exact nofun⟩, by rw [hhead]; exact nofun,
        fun y d src hy hstage => ?_, by rw [htable.pu, htable.csa]; exact h.apart.adopting⟩
    obtain hsame | ⟨z, hz, hheader⟩ := hnext
    · rw [hsame, hrun] at hy
      cases hy
    · obtain rfl := Option.some.inj (hy.symm.trans hz)
      rw [hheader] at hstage
      cases hstage
  · exact h

theorem RunningExchange.advance_stage (x : RunningExchange) : x.advance.stage ≠ .swap := by
  unfold RunningExchange.advance
  split <;> exact nofun

theorem State.tableLaw.setStage (h : s.tableLaw) (hrun : s.xe.running ≠ none) {x : RunningExchange} (hx : x.stage ≠ .swap) :
    (s.setRunning (some x)).tableLaw :=
  h.setRunning hrun _ fun y d src hy hstage => absurd hstage (by obtain rfl := Option.some.inj hy; exact hx)

theorem State.tableLaw.skipEntry (h : s.tableLaw) (hrun : s.xe.running ≠ none) (x : RunningExchange) (reason : SkipReason)
    (b : Word) : (s.skipEntry x reason b).tableLaw :=
  State.tableLaw.setStage (h.emit _ _ _ _ _) (by rw [State.emit_eq]; exact hrun) (RunningExchange.advance_stage _)

/-- An access of the exchange keeps the table laws: the swap is reached with a path that is no u-turn (R115). -/
theorem State.tableLaw.exchangeStep (h : s.tableLaw) (hrun : s.xe.running ≠ none) (x : RunningExchange) (w : Word) :
    (s.exchangeStep x w).tableLaw := by
  unfold State.exchangeStep
  split
  · exact h.setStage hrun nofun
  · unfold State.keyRead
    dsimp only
    split
    · exact h.setStage hrun (RunningExchange.advance_stage _)
    · split
      · exact h.setStage hrun nofun
      · exact h.skipEntry hrun _ _ _
  · unfold State.planPathRead
    dsimp only
    split
    · exact h.setStage hrun (RunningExchange.advance_stage _)
    · next d hd =>
      split
      · exact h.skipEntry hrun _ _ _
      · next src hsrc =>
        split
        · exact h.skipEntry hrun _ _ _
        · next hu =>
          refine h.setRunning hrun _ fun y c source hy _ hc hsource => ?_
          obtain rfl := Option.some.inj hy
          obtain rfl := Option.some.inj (hd.symm.trans hc)
          obtain rfl := Option.some.inj (hsrc.symm.trans hsource)
          exact Bool.eq_false_iff.2 hu
  · exact h
  · exact h.setStage hrun (RunningExchange.advance_stage _)
  · unfold State.endExchange
    refine State.tableLaw.setRunning (h.emit _ _ _ _ _) (by rw [State.emit_eq]; exact hrun) _ nofun

/-- A swap keeps the table laws (R116). -/
theorem State.canSwap.tableLaw (h : s.canSwap d src) (attn : Attn) : (s.swapped d src attn).tableLaw := by
  have hre := Work.swap_requests s d src attn
  refine Work.finish_tableLaw (State.tableLaw_of_request h.law (Work.swap_innerLaw h attn) hre.outside hre.sets fun c => ?_) _
  rw [Work.swap_record h attn]
  split
  · next hc =>
    obtain rfl | hother := State.mem_swapDests.1 hc
    · rw [State.swapLeft_own]
      rfl
    · rw [h.kept_intent hother attn]
  · rfl

theorem State.otherClaimant_none (h : s.otherClaimant d src = none) : ∀ p c, src = .port p →
    s.dt.ports[p].claimant = some c → c = d := by
  rintro p c rfl hc
  by_contra hne
  exact nomatch (State.otherClaimant_eq_some hc hne).symm.trans h

/-- The entry of the running exchange that has passed its static checks can be swapped, unless its port is claimed. -/
theorem State.tableLaw.canSwap (h : s.tableLaw) (hrun : s.xe.running = some x) (hstage : x.stage = .swap)
    (hkey : destOfNat (keyDest x.keyWord) = some d) (hsrc : pathSource d x.pathWord = some src)
    (hfree : s.otherClaimant d src = none) : s.canSwap d src where
  law := h
  idle := (h.exclusive (by rw [hrun]; exact nofun)).1
  legal := legalSource_of_pathSource hsrc (h.swapWord x d src hrun hstage hkey hsrc)
  unclaimed := State.otherClaimant_none hfree

theorem exchangeSwapStep_tableLaw (h : s.tableLaw) : (exchangeSwapStep s).tableLaw := by
  obtain he | ⟨x, d, src, hrun, hstage, hkey, hsrc, he⟩ := exchangeSwapStep_cases s <;> rw [he]
  · exact h
  · have hne : s.xe.running ≠ none := by rw [hrun]; exact nofun
    cases hfree : s.otherClaimant d src with
    | some claim =>
      unfold State.swapEntry
      rw [hfree]
      exact h.skipEntry hne _ _ _
    | none =>
      have hcan := h.canSwap hrun hstage hkey hsrc hfree
      rw [State.swapEntry_swaps hfree]
      have hxe : (s.swapped d src (pathAttn x.pathWord)).xe = s.xe := (s.swap_requested d src _).outside.xe
      exact (hcan.tableLaw _).setStage (by rw [hxe]; exact hne) nofun

end Exchange

end Sys2Proof.Machine

/-! Adoption, the restart and preload keep the table laws (R46, R48, R149 to R153). -/

namespace Sys2Proof.Machine

section Slotless
variable {s t : State} {a b : Adoption} {d : Dest}

/-- The holders and claimants that the port map gives are the records built. -/
structure State.portsLaw (s : State) : Prop where
  holders : s.mapStands → ∀ (p : Port) (d : Dest), s.dt.ports[p].holder = some d ↔
    s.isBuilt d = true ∧ (s.record d).curSrc = .port p
  claimants : s.claimLaw

/-- While no ramp slot is occupied and no set is settling, the inner laws speak of the records and the port map alone. -/
theorem State.innerLaw_of_slotless (hslots : ∀ n : SlotNo, s.re.slots[n] = none) (hlist : s.re.list = [])
    (hslot : ∀ d, (s.record d).slot = none) (hsettling : s.csa.settling = [])
    (hsane : ∀ d, (s.record d).sane d (s.forcedFor (s.record d).intentSrc) (s.isBuilt d) s.pu.adoption.isSome)
    (hports : s.portsLaw) : s.innerLaw none where
  core := ⟨fun n sl hsl => absurd ((hslots n).symm.trans hsl) nofun, fun d n hn => absurd ((hslot d).symm.trans hn) nofun,
    by rw [hlist]; exact ⟨List.nodup_nil, fun n => by rw [hslots n]; exact ⟨nofun, nofun⟩⟩, hports.holders⟩
  dests := fun d => ⟨hsane d, fun sl hsl => absurd ((State.slotOf_none (hslot d)).symm.trans hsl) nofun⟩
  claims := hports.claimants
  serves := {
    listed := fun e he => by
      rw [hsettling] at he
      cases he
    ids := by
      rw [hsettling]
      exact List.nodup_nil
    serving := fun d x hx => by
      rw [State.servesOf, State.slotOf_none (hslot d)] at hx
      exact absurd (if_neg nofun) hx }

/-- While an adoption is under way no ramp slot is occupied, no set is queued or settling, and no exchange runs. -/
structure State.adopts (s : State) : Prop where
  slots : ∀ n : SlotNo, s.re.slots[n] = none
  list : s.re.list = []
  slot : ∀ d, (s.record d).slot = none
  queue : s.csa.queue = []
  settling : s.csa.settling = []
  running : s.xe.running = none
  masking : ∀ m todo, s.cbp.head ≠ .masking m todo

theorem State.tableLaw.adopts (h : s.tableLaw) (hadopt : s.pu.adoption ≠ none) : s.adopts := by
  obtain ⟨hqueue, hslots⟩ := h.adopting hadopt
  refine ⟨hslots, List.eq_nil_iff_forall_not_mem.2 fun n hn => ?_, fun d => ?_, hqueue,
    List.eq_nil_iff_forall_not_mem.2 fun e he => ?_, ?_, fun m todo hm => hadopt (h.masking m todo hm)⟩
  · have := (h.list.2 n).1 hn
    rw [hslots n] at this
    cases this
  · exact (h.destLaw d).slotless (Option.isSome_iff_ne_none.2 hadopt)
  · obtain ⟨-, hpos, hcount⟩ := h.settling e he
    have hzero : s.servingCount e.id = 0 := by
      rw [State.servingCount, List.length_eq_zero_iff, List.filter_eq_nil_iff]
      intro n _
      rw [hslots n]
      exact nofun
    omega
  · by_contra hrun
    exact hadopt (h.exclusive hrun).1

/-- The table laws of a state with an adoption under way, from its records and its port map. -/
theorem State.adopts.tableLaw (h : s.adopts) (hopen : (s.csa.openSet.map OpenEntry.dest).Nodup) (hbound : s.csa.openSet.length ≤ 4)
    (hqueued : ∀ d, (s.record d).queued = 0)
    (hsane : ∀ d, (s.record d).sane d (s.forcedFor (s.record d).intentSrc) (s.isBuilt d) s.pu.adoption.isSome)
    (hports : s.portsLaw) : s.tableLaw := by
  refine State.tableLaw_of_parts (State.innerLaw_of_slotless h.slots h.list h.slot h.settling hsane hports)
    ⟨hopen, hbound, by rw [h.queue]; exact nofun, by rw [h.queue]; exact Nat.zero_le _⟩ (fun d => ?_)
    ⟨fun hrun => absurd h.running hrun, fun m todo hm => absurd hm (h.masking m todo), fun x d src hx => ?_, fun _ => h.queue⟩
  · rw [hqueued, h.queue]
    rfl
  · rw [h.running] at hx
    cases hx

theorem State.tableLaw.queued_adopting (h : s.tableLaw) (hadopt : s.pu.adoption ≠ none) (d : Dest) : (s.record d).queued = 0 := by
  rw [h.marks, (h.adopting hadopt).1]
  rfl

/-! ### The restart -/

/-- A restart carried out keeps the table laws: no record counts as built and the port map does not stand (R48, R153). -/
theorem State.tableLaw.carryOutRestart (h : s.tableLaw) (hrun : s.xe.running = none) : s.carryOutRestart.tableLaw := by
  have k := State.carryOutRestart_restarts h.inner.core h.marks
  generalize s.carryOutRestart = t at k ⊢
  have hadopt : t.pu.adoption = some { stage := .drain, adopted := 0, fixed := 0 } := by rw [k.frame]
  have hbuilt : ∀ d, t.isBuilt d = false := fun d => by rw [State.isBuilt, hadopt]; rfl
  have hmap : ¬ t.mapStands := fun hstands => hstands _ hadopt rfl
  have hadopts : t.adopts := by
    refine ⟨fun n => ?_, by rw [k.frame], fun d => by rw [k.record], by rw [k.frame], by rw [k.frame],
      by rw [k.frame]; exact hrun, by rw [k.frame]; exact nofun⟩
    rw [k.frame]
    exact Vector.getElem_replicate _
  refine hadopts.tableLaw (by rw [k.frame]; exact List.nodup_nil) (by rw [k.frame]; exact Nat.zero_le _)
    (fun d => by rw [k.record]) (fun d => ?_) ⟨fun hstands => absurd hstands hmap, fun hstands => absurd hstands hmap⟩
  have hlaw := h.destLaw d
  rw [hbuilt, State.forcedFor_congr (s := s) (by rw [k.dt]), k.record]
  exact {
    intent := hlaw.intent
    current := hlaw.current
    darkNone := hlaw.darkNone
    drop := fun hd => ⟨(hlaw.drop hd).1, rfl, rfl⟩
    slotless := fun _ => rfl
    rebuilt := fun _ => nofun
    wanted := nofun
    unbuilt := fun _ => rfl
    forcedFlag := hlaw.forcedFlag
    forcedRest := fun _ => ⟨rfl, nofun⟩ }

theorem State.tableLaw.headGranted (h : s.tableLaw) : s.headGranted.tableLaw := by
  obtain he | ⟨acc, next, rest, restart, hhead, he⟩ | ⟨acc, hhead, he⟩ | ⟨acc, hhead, he⟩ := s.headGranted_cases <;> rw [he]
  · exact h
  · cases restart with
    | false => exact h.headWrites _
    | true => exact h.takeRestart (h.apart.running_iff hhead) _
  · exact h.retireHead
  · exact h.carryOutRestart (h.apart.running_iff hhead)

/-! ### The stages of the adoption -/

theorem State.isBuilt_adopting (h : s.pu.adoption = some a) (d : Dest) : s.isBuilt d = decide (d.val < a.built) := by
  rw [State.isBuilt, h]

theorem State.mapStands_of_stage (h : s.pu.adoption = some a) (hstage : a.stage ≠ .drain) : s.mapStands := fun b hb => by
  obtain rfl := Option.some.inj (h.symm.trans hb)
  exact hstage

/-- An adoption that goes on with as many records built, the port map standing, keeps the table laws. -/
theorem State.tableLaw.setStageAt (h : s.tableLaw) (hadopt : s.pu.adoption = some a) (hstage : a.stage ≠ .drain)
    (hstage' : b.stage ≠ .drain) (hbuilt : b.built = a.built) : (s.setAdoption (some b)).tableLaw := by
  have hne : s.pu.adoption ≠ none := by rw [hadopt]; exact nofun
  have hadopts := h.adopts hne
  have hsame : ∀ d, (s.setAdoption (some b)).isBuilt d = s.isBuilt d := fun d => by
    rw [State.isBuilt_adopting (s := s.setAdoption (some b)) rfl, State.isBuilt_adopting hadopt, hbuilt]
  have hmap := State.mapStands_of_stage hadopt hstage
  refine State.adopts.tableLaw (s := s.setAdoption (some b))
    ⟨hadopts.slots, hadopts.list, hadopts.slot, hadopts.queue, hadopts.settling, hadopts.running, hadopts.masking⟩
    h.openDests h.openBound (h.queued_adopting hne) (fun d => ?_) ⟨fun _ p d => ?_, fun _ p d => ?_⟩
  · have hlaw := (h.destLaw d).tosane
    rw [hsame]
    rw [Option.isSome_iff_ne_none.2 hne] at hlaw
    exact hlaw
  · rw [hsame]
    exact h.holders hmap p d
  · rw [hsame]
    exact h.claimants hmap p d

/-- The adoption of a restart begins with the port map emptied (R48, R153). -/
theorem adoptionStartStep_tableLaw (h : s.tableLaw) : (adoptionStartStep s).tableLaw := by
  obtain he | ⟨a, hadopt, hdrain, -, he⟩ := adoptionStartStep_cases s <;> rw [he]
  · exact h
  · have hne : s.pu.adoption ≠ none := by rw [hadopt]; exact nofun
    have hadopts := h.adopts hne
    have hbuilt : ∀ d, s.isBuilt d = false := fun d => by
      rw [State.isBuilt_adopting hadopt, Adoption.built, hdrain]
      rfl
    refine State.adopts.tableLaw
      ⟨hadopts.slots, hadopts.list, hadopts.slot, hadopts.queue, hadopts.settling, hadopts.running, hadopts.masking⟩
      h.openDests h.openBound (h.queued_adopting hne) (fun d => ?_) ⟨fun _ p d => ?_, fun _ p d => ?_⟩
    · have hlaw := (h.destLaw d).tosane
      rw [hbuilt, Option.isSome_iff_ne_none.2 hne] at hlaw
      exact hlaw
    · refine ⟨fun hp => ?_, fun hp => nomatch hp.1⟩
      rw [show (Vector.replicate 48 ({ holder := none, claimant := none } : PortRecord))[p] = _ from
        Vector.getElem_replicate _] at hp
      cases hp
    · refine ⟨fun hp => ?_, fun hp => nomatch hp.1⟩
      rw [show (Vector.replicate 48 ({ holder := none, claimant := none } : PortRecord))[p] = _ from
        Vector.getElem_replicate _] at hp
      cases hp

/-! ### The path words -/

/-- A record as adoption builds it: at rest on its source, and dark where it is forced (R150). -/
structure DestRecord.found (d : Dest) (r : DestRecord) (iso : Bool) : Prop where
  legal : legalSource d r.intentSrc
  rest : r.curSrc = r.intentSrc
  darkNone : r.intentSrc = .none → r.curAttn = dark
  drop : isLine d = false → r.blocked = false ∧ r.wanted = false
  slot : r.slot = none
  queued : r.queued = 0
  forced : r.forced = iso
  calm : r.forced = true → r.wanted = false ∧ r.curAttn = dark

theorem State.adoptedRecord_found {src : Source} {attn : Attn} (hlegal : legalSource d src)
    (hdark : src = .none → attn = dark) :
    (s.adoptedRecord d src attn).found d (s.forcedFor (s.adoptedRecord d src attn).intentSrc) where
  legal := hlegal
  rest := rfl
  darkNone := fun hsrc => by
    rw [State.adoptedRecord_eq, hdark hsrc]
    exact ite_self _
  drop := fun hd => by
    have hbit : s.maskBit d = false := by rw [State.maskBit, hd]; rfl
    unfold State.adoptedRecord
    rw [hbit]
    exact ⟨rfl, rfl⟩
  slot := rfl
  queued := rfl
  forced := rfl
  calm := fun hforced => by
    have hsrc : s.forcedFor src = true := hforced
    unfold State.adoptedRecord
    rw [hsrc]
    dsimp only
    exact ⟨by rw [Bool.not_true, Bool.and_false, Bool.false_and], if_pos rfl⟩

/-- The record of the next destination built keeps the table laws, if no record built holds its port (R48, R150). -/
theorem State.tableLaw.build (h : s.tableLaw) (hadopt : s.pu.adoption = some a) (hstage : a.stage ≠ .drain)
    (ha : a.built = d.val) (hb : b.built = d.val + 1) (hb' : b.stage ≠ .drain) {r : DestRecord}
    (hr : r.found d (s.forcedFor r.intentSrc)) (hfree : ∀ p, r.intentSrc = .port p → s.dt.ports[p].holder = none)
    (hrecord : ∀ e, t.record e = if e = d then r else s.record e)
    (hport : ∀ p : Port, t.dt.ports[p] = if r.intentSrc = .port p then { holder := some d, claimant := some d } else s.dt.ports[p])
    (hiso : t.dt.isolated = s.dt.isolated) (hslots : t.re.slots = s.re.slots) (hlist : t.re.list = s.re.list)
    (hcsa : t.csa = s.csa) (hrun : t.xe.running = s.xe.running) (hhead : t.cbp.head = s.cbp.head)
    (hnext : t.pu.adoption = some b) : t.tableLaw := by
  have hne : s.pu.adoption ≠ none := by rw [hadopt]; exact nofun
  have hadopts := h.adopts hne
  have hmap := State.mapStands_of_stage hadopt hstage
  have hown : t.record d = r := (hrecord d).trans (if_pos rfl)
  have hother : ∀ e, e ≠ d → t.record e = s.record e := fun e he => (hrecord e).trans (if_neg he)
  have hnot : s.isBuilt d = false := by
    rw [State.isBuilt_adopting hadopt, ha]
    exact decide_eq_false (lt_irrefl _)
  have hnow : t.isBuilt d = true := by
    rw [State.isBuilt_adopting hnext, hb]
    exact decide_eq_true (Nat.lt_succ_self _)
  have hsame : ∀ e, e ≠ d → t.isBuilt e = s.isBuilt e := fun e he => by
    rw [State.isBuilt_adopting hnext, State.isBuilt_adopting hadopt, ha, hb, decide_eq_decide]
    have : e.val ≠ d.val := fun hv => he (Fin.ext hv)
    omega
  have hclear : ∀ p, r.intentSrc = .port p → ∀ e, s.isBuilt e = true → (s.record e).intentSrc ≠ .port p := fun p hp e he hsrc => by
    have hcur := (h.rebuilt hne e he).trans hsrc
    exact nomatch (hfree p hp).symm.trans ((h.holders hmap p e).2 ⟨he, hcur⟩)
  have hmaps : ∀ (name : PortRecord → Option Dest) (source : DestRecord → Source),
      name { holder := some d, claimant := some d } = some d → source r = r.intentSrc →
      (∀ (p : Port) e, name s.dt.ports[p] = some e ↔ s.isBuilt e = true ∧ source (s.record e) = .port p) →
      (∀ p, r.intentSrc = .port p → ∀ e, s.isBuilt e = true → source (s.record e) ≠ .port p) →
      ∀ (p : Port) e, name t.dt.ports[p] = some e ↔ t.isBuilt e = true ∧ source (t.record e) = .port p :=
    fun name source hname hsource hold hoff p e => by
      rw [hport]
      by_cases hp : r.intentSrc = .port p <;> by_cases he : e = d
      · rw [if_pos hp, hname, he, hown, hsource]
        exact ⟨fun _ => ⟨hnow, hp⟩, fun _ => rfl⟩
      · rw [if_pos hp, hname, hother e he, hsame e he]
        exact ⟨fun hd => absurd (Option.some.inj hd).symm he, fun ⟨hbuilt, hsrc⟩ => absurd hsrc (hoff p hp e hbuilt)⟩
      · rw [if_neg hp, hold, he, hown, hsource, hnot]
        exact ⟨fun hd => (nomatch hd.1), fun hd => absurd hd.2 hp⟩
      · rw [if_neg hp, hold, hother e he, hsame e he]
  have hfor : ∀ src, t.forcedFor src = s.forcedFor src := State.forcedFor_congr hiso
  have hslot : ∀ e, (t.record e).slot = none ∧ (t.record e).queued = 0 := fun e => by
    by_cases he : e = d
    · rw [he, hown]
      exact ⟨hr.slot, hr.queued⟩
    · rw [hother e he]
      exact ⟨hadopts.slot e, h.queued_adopting hne e⟩
  refine State.adopts.tableLaw ⟨by rw [hslots]; exact hadopts.slots, hlist.trans hadopts.list, fun e => (hslot e).1,
    by rw [hcsa]; exact hadopts.queue, by rw [hcsa]; exact hadopts.settling, hrun.trans hadopts.running,
    by rw [hhead]; exact hadopts.masking⟩ (by rw [hcsa]; exact h.openDests) (by rw [hcsa]; exact h.openBound)
    (fun e => (hslot e).2) (fun e => ?_) ⟨fun _ p e => ?_, fun _ p e => ?_⟩
  · by_cases he : e = d
    · subst he
      rw [hown, hnow, hfor]
      exact {
        intent := hr.legal
        current := by rw [hr.rest]; exact hr.legal
        darkNone := fun hsrc => hr.darkNone (hr.rest.symm.trans hsrc)
        drop := fun hd => ⟨(hr.drop hd).1, (hr.drop hd).2, hr.slot⟩
        slotless := fun _ => hr.slot
        rebuilt := fun _ _ => hr.rest
        wanted := fun hwant => ⟨hr.slot, by
          by_contra hforced
          exact nomatch hwant.symm.trans (hr.calm ((Bool.not_eq_false _).mp hforced)).1⟩
        unbuilt := nofun
        forcedFlag := hr.forced
        forcedRest := fun hforced => ⟨hr.slot, fun _ => ⟨hr.rest, (hr.calm hforced).2⟩⟩ }
    · rw [hother e he, hsame e he, hfor, hnext]
      have hlaw := (h.destLaw e).tosane
      rw [hadopt] at hlaw
      exact hlaw
  · exact hmaps _ _ rfl hr.rest (h.holders hmap) (fun q hq c hbuilt hsrc =>
      hclear q hq c hbuilt ((h.rebuilt hne c hbuilt).symm.trans hsrc)) p e
  · exact hmaps _ _ rfl rfl (h.claimants hmap) hclear p e

end Slotless

end Sys2Proof.Machine

/-! O58. -/

namespace Sys2Proof.Machine

section Adopt
variable {s : State} {a : Adoption} {d : Dest} {w : Word}

theorem stageAfter_built {b : Adoption} (h : b.stage = stageAfter d) : b.built = d.val + 1 ∧ b.stage ≠ .drain := by
  unfold stageAfter at h
  split at h
  · rw [Adoption.built, h]
    exact ⟨rfl, nofun⟩
  · have := d.isLt
    rw [Adoption.built, h]
    exact ⟨show 432 = d.val + 1 by omega, nofun⟩

/-- A path word that needs no fix has a legal source whose port no earlier word has taken (R150). -/
theorem State.fixFor_eq_none (h : s.fixFor d w = none) : legalSource d ((pathSource d w).getD .none) ∧
    ((pathSource d w).getD .none = .none → pathAttn w = dark) ∧
    ∀ p, (pathSource d w).getD .none = .port p → s.dt.ports[p].holder = none := by
  have hsrc := State.source_of_fixFor h
  generalize (pathSource d w).getD .none = src at hsrc ⊢
  rw [State.fixFor_decoded hsrc] at h
  split at h
  · cases h
  · next hdark =>
    split at h
    · cases h
    · next hu =>
      refine ⟨legalSource_of_pathSource hsrc (Bool.eq_false_iff.2 hu), fun hnone => ?_, ?_⟩
      · by_contra hattn
        exact hdark ⟨hnone, hattn⟩
      · rintro p rfl
        split at h
        · cases h
        · next hholder => exact hholder

theorem State.tableLaw.adoptWord (h : s.tableLaw) (hadopt : s.pu.adoption = some a) (hstage : a.stage = .path d) (w : Word) :
    (s.adoptWord a d w).tableLaw := by
  have hdrain : a.stage ≠ .drain := by rw [hstage]; exact nofun
  have hbuilt : a.built = d.val := by rw [Adoption.built, hstage]
  unfold State.adoptWord
  split
  · next reason keeper _ =>
    have k := s.adoptFixed_spec a d w reason keeper
    dsimp only at k
    generalize s.adoptFixed a d w reason keeper = t at k ⊢
    obtain ⟨hown, hothers, hports, -, -, hdt, -, hframe⟩ := k
    have hfound : (s.adoptedRecord d .none dark).found d (s.forcedFor (s.adoptedRecord d .none dark).intentSrc) :=
      State.adoptedRecord_found trivial fun _ => rfl
    have hsrc : (s.adoptedRecord d .none dark).intentSrc = .none := rfl
    generalize s.adoptedRecord d .none dark = r at hown hfound hsrc
    generalize t.currentWord d = v at hframe
    have hport : ∀ p, r.intentSrc ≠ .port p := fun p hp => nomatch hsrc.symm.trans hp
    refine h.build hadopt hdrain hbuilt (b := { stage := .fixedWord d v, adopted := a.adopted, fixed := a.fixed + 1 })
      rfl nofun hfound (fun p hp => absurd hp (hport p)) (fun e => ?_)
      (fun p => by rw [hports, if_neg (hport p)]) (by rw [hdt]) (by rw [hframe]) (by rw [hframe]) (by rw [hframe])
      (by rw [hframe]) (by rw [hframe]) (by rw [hframe])
    split
    · next he => rw [he, hown]
    · next he => exact hothers e he
  · next hfix =>
    obtain ⟨hlegal, hdark, hfree⟩ := State.fixFor_eq_none hfix
    generalize (pathSource d w).getD .none = src at hlegal hdark hfree ⊢
    have k := s.adoptFound_spec a d w (src := src)
    dsimp only at k
    generalize s.adoptFound a d w src = t at k ⊢
    obtain ⟨hown, hothers, htaken, hkept, -, -, hdt, hframe⟩ := k
    have hfound := State.adoptedRecord_found (s := s) (d := d) hlegal hdark
    have hsrc : (s.adoptedRecord d src (pathAttn w)).intentSrc = src := rfl
    generalize s.adoptedRecord d src (pathAttn w) = r at hown hfound hsrc
    subst hsrc
    generalize hnext : ({ stage := stageAfter d, adopted := a.adopted + 1, fixed := a.fixed } : Adoption) = b at hframe
    have hstage' : b.stage = stageAfter d := by rw [← hnext]
    have hre : t.re = { s.re with loads := t.re.loads } := congrArg State.re hframe
    refine h.build hadopt hdrain hbuilt (stageAfter_built hstage').1 (stageAfter_built hstage').2 hfound hfree (fun e => ?_)
      (fun p => ?_) (by rw [hdt]) (by rw [hre]) (by rw [hre]) (by rw [hframe]) (by rw [hframe]) (by rw [hframe])
      (by rw [hframe])
    · split
      · next he => rw [he, hown]
      · next he => exact hothers e he
    · split
      · next hp => exact htaken p hp
      · next hp => exact hkept p hp

/-- With every record built, the end of an adoption leaves the table as an idle part has it. -/
theorem State.tableLaw.adoptionDone (h : s.tableLaw) (hadopt : s.pu.adoption = some a) (hstage : a.stage ≠ .drain)
    (hbuilt : a.built = 432) (c : Adoption) : (s.adoptionDone c).tableLaw := by
  have hne : s.pu.adoption ≠ none := by rw [hadopt]; exact nofun
  have hall : ∀ d, s.isBuilt d = true := fun d => by
    rw [State.isBuilt_adopting hadopt, hbuilt]
    exact decide_eq_true d.isLt
  have hmap := State.mapStands_of_stage hadopt hstage
  have hadopts := h.adopts hne
  have hnone : (s.adoptionDone c).pu.adoption = none := rfl
  refine State.tableLaw_of_parts (State.innerLaw_of_slotless hadopts.slots hadopts.list hadopts.slot hadopts.settling
    (fun d => ?_) ⟨fun _ p d => ?_, fun _ p d => ?_⟩) h.bounded h.marks
    ⟨fun hrun => absurd hadopts.running hrun, fun _ _ _ => hnone, fun x d src hx => absurd (hadopts.running.symm.trans hx) nofun,
      fun hne => absurd hnone hne⟩
  · have hlaw := (h.destLaw d).tosane
    rw [hnone, State.isBuilt_of_idle hnone]
    rw [hall] at hlaw
    exact { hlaw with slotless := nofun, rebuilt := nofun }
  · rw [State.isBuilt_of_idle hnone]
    exact (h.holders hmap p d).trans (by rw [hall]; exact Iff.rfl)
  · rw [State.isBuilt_of_idle hnone]
    exact (h.claimants hmap p d).trans (by rw [hall]; exact Iff.rfl)

/-- The end of an adoption that has built every record keeps the table laws (R151). -/
theorem State.tableLaw.endAdoption (h : s.tableLaw) (hadopt : s.pu.adoption = some a) (hstage : a.stage ≠ .drain)
    (hbuilt : a.built = 432) (c : Adoption) : (s.endAdoption c).tableLaw := by
  have hoccasion := (h.adoptionDone hadopt hstage hbuilt c).occasion rfl
  rw [State.endAdoption_eq]
  split
  · exact hoccasion.retireHead
  · exact hoccasion

theorem State.tableLaw.afterHeader (h : s.tableLaw) (hadopt : s.pu.adoption = some a) (hstage : a.stage ≠ .drain)
    (hbuilt : a.built = 432) (c : Adoption) (p : Plan) : (s.afterHeader c p).tableLaw := by
  unfold State.afterHeader
  split
  · exact h.setStageAt hadopt hstage nofun hbuilt.symm
  · exact h.endAdoption hadopt hstage hbuilt c

theorem State.setCondition_beside (s : State) (p : Plan) (c : PlanCondition) : s.standsBeside (s.setCondition p c) :=
  ⟨rfl, rfl, rfl, rfl, rfl, rfl, rfl, rfl⟩

/-- An access of the adoption keeps the table laws (R150, R151). -/
theorem State.tableLaw.adoptionStep (h : s.tableLaw) (hadopt : s.pu.adoption = some a) (w : Word) :
    (s.adoptionStep a w).tableLaw := by
  have hbuilt : a.built = match a.stage with
    | .drain => 0
    | .mask _ => 0
    | .path d => d.val
    | .fixedWord d _ => d.val + 1
    | .header _ => 432
    | .tornHeader _ _ => 432 := by rw [Adoption.built] <;> rfl
  unfold State.adoptionStep
  split
  · exact h
  · next m hstage =>
    rw [hstage] at hbuilt
    refine (State.tableLaw.setStageAt (s := s.setMask m w) (h.beside (State.keepsTable_of_beside rfl rfl rfl rfl) rfl
      (.inl rfl)) hadopt (by rw [hstage]; exact nofun) ?_ ?_)
    · unfold stageAfterMask
      split <;> exact nofun
    · rw [hbuilt]
      unfold stageAfterMask
      split <;> rfl
  · next d hstage => exact h.adoptWord hadopt hstage w
  · next d v hstage =>
    rw [hstage] at hbuilt
    exact h.setStageAt hadopt (by rw [hstage]; exact nofun) (stageAfter_built rfl).2 ((stageAfter_built rfl).1.trans hbuilt.symm)
  · next p hstage =>
    rw [hstage] at hbuilt
    have hdrain : a.stage ≠ .drain := by rw [hstage]; exact nofun
    have hset : ∀ c, (s.setCondition p c).tableLaw := fun c => (s.setCondition_beside p c).tableLaw h
    unfold State.adoptHeader
    split
    · exact (hset _).afterHeader hadopt hdrain hbuilt _ _
    · split
      · exact (hset _).afterHeader hadopt hdrain hbuilt _ _
      · refine State.tableLaw.setStageAt ((hset _).emit _ _ _ _ _) (a := a) ?_ hdrain nofun hbuilt.symm
        rw [State.emit_eq]
        exact hadopt
  · next p v hstage =>
    rw [hstage] at hbuilt
    exact h.afterHeader hadopt (by rw [hstage]; exact nofun) hbuilt _ _

end Adopt

end Sys2Proof.Machine

/-! O58. -/

namespace Sys2Proof.Machine

section Commands
variable {s : State}

/-- A host transaction leaves the head in handling alone. -/
theorem hostWriteStep_head (a : Addr) (e : BitVec 4) (data : Word) (s : State) :
    (hostWriteStep a e data s).cbp.head = s.cbp.head := by
  unfold hostWriteStep
  split
  · rfl
  · split
    · rfl
    · split
      · rfl
      · split
        · rfl
        · split
          · rfl
          · split <;> rfl

theorem State.newRead_head (s : State) (a : Addr) (size : Size) : (s.newRead a size).cbp.head = s.cbp.head := by
  unfold State.newRead
  split
  · rfl
  · split <;> rfl

theorem hostReadStep_head (a : Addr) (e : BitVec 4) (s : State) : (hostReadStep a e s).cbp.head = s.cbp.head := by
  unfold hostReadStep
  split
  · rfl
  · split
    · rfl
    · split
      · rfl
      · split
        · rfl
        · unfold State.judgeRead
          split
          · rfl
          · split
            · split
              · split <;> rfl
              · exact s.newRead_head _ _
            · exact s.newRead_head _ _

theorem delayedReadIssueStep_head (i : ReadSlotNo) (s : State) : (delayedReadIssueStep i s).cbp.head = s.cbp.head := by
  unfold delayedReadIssueStep
  split
  · split
    · split <;> rfl
    · rfl
    · rfl
  · rfl

theorem State.slotGranted_head (s : State) (i : ReadSlotNo) (bytes : List Byte) :
    (s.slotGranted i bytes).cbp.head = s.cbp.head := by
  unfold State.slotGranted
  split
  · split <;> rfl
  · rfl

theorem State.directGranted_head (s : State) (bytes : List Byte) : (s.directGranted bytes).cbp.head = s.cbp.head := by
  unfold State.directGranted
  split
  · split <;> rfl
  · rfl
  · rfl

/-- A command that touches the CBP alone, but for the head in handling, keeps the table laws. -/
theorem State.tableLaw.onBus (h : s.tableLaw) {t : State} (ht : t = { s with cbp := t.cbp }) (hhead : t.cbp.head = s.cbp.head) :
    t.tableLaw :=
  h.beside (by rw [ht]; exact State.keepsTable_of_beside rfl rfl rfl rfl) (by rw [ht]) (.inl hhead)

/-- A table as a hard reset leaves it meets the table laws, whatever adoption begins with the mask words (R145, R149). -/
theorem State.tableLaw_of_preload {t : State} (hrecords : t.dt.records = State.reset.dt.records)
    (hports : t.dt.ports = State.reset.dt.ports) (hiso : t.dt.isolated = State.reset.dt.isolated)
    (hslots : t.re.slots = State.reset.re.slots) (hlist : t.re.list = State.reset.re.list) (hcsa : t.csa = State.reset.csa)
    (hrun : t.xe.running = none) (hhead : t.cbp.head = .waiting) {a : Adoption} (ha : t.pu.adoption = some a)
    (hbuilt : a.built = 0) : t.tableLaw := by
  have hrec : ∀ d, t.record d = blankRecord := fun d => (State.record_congr hrecords d).trans (reset_record d)
  have hnot : ∀ d, t.isBuilt d = false := fun d => by rw [State.isBuilt_adopting ha, hbuilt]; rfl
  have hport : ∀ p : Port, t.dt.ports[p] = { holder := none, claimant := none } := fun p => by rw [hports]; exact reset_port p
  refine State.adopts.tableLaw ⟨fun n => by rw [hslots]; exact reset_slot n, hlist, fun d => by rw [hrec]; rfl, by rw [hcsa]; rfl,
    by rw [hcsa]; rfl, hrun, by rw [hhead]; exact nofun⟩ (by rw [hcsa]; exact List.nodup_nil) (by rw [hcsa]; exact Nat.zero_le _)
    (fun d => by rw [hrec]; rfl) (fun d => ?_) ⟨fun _ p d => ?_, fun _ p d => ?_⟩
  · have hlaw := (reset_tableLaw.destLaw d).tosane
    rw [reset_record] at hlaw
    rw [hrec, hnot]
    exact { hlaw with
      slotless := fun _ => rfl, rebuilt := fun _ => nofun, unbuilt := fun _ => rfl, forcedFlag := rfl
      forcedRest := nofun }
  · rw [hport, hnot]
    exact ⟨nofun, fun hd => nomatch hd.1⟩
  · rw [hport, hnot]
    exact ⟨nofun, fun hd => nomatch hd.1⟩

theorem State.hardReset_tableLaw {t : State} (hdt : t.dt = State.reset.dt) (hre : t.re = State.reset.re)
    (hcsa : t.csa = State.reset.csa) (hpu : t.pu = State.reset.pu) (hxe : t.xe = State.reset.xe)
    (hhead : t.cbp.head = .waiting) : t.tableLaw :=
  reset_tableLaw.beside (State.keepsTable_of_beside hdt hre hcsa hpu) (by rw [hxe]) (.inl hhead)

/-- Preload ends with the table as the hard reset left it, and adoption begins (R149). -/
theorem preloadEndStep_tableLaw (hpre : s.preloadLaw) (h : s.tableLaw) (image : List Byte) :
    (preloadEndStep image s).tableLaw := by
  obtain he | ⟨hpower, he⟩ := preloadEndStep_cases image s <;> rw [he]
  · exact h
  · have hdormant : s = s.dormant := hpre (by rw [hpower]; decide)
    have hdt : s.dt = State.reset.dt := (congrArg State.dt hdormant :)
    have hre : s.re = State.reset.re := (congrArg State.re hdormant :)
    have hcsa : s.csa = State.reset.csa := (congrArg State.csa hdormant :)
    have hxe : s.xe = State.reset.xe := (congrArg State.xe hdormant :)
    have hhead : s.cbp.head = .waiting := congrArg (fun u : State => u.cbp.head) hdormant
    exact State.tableLaw_of_preload (congrArg DestTable.records hdt) (congrArg DestTable.ports hdt)
      (congrArg DestTable.isolated hdt) (congrArg RampEngine.slots hre) (congrArg RampEngine.list hre) hcsa
      (congrArg ExchangeEngine.running hxe) hhead rfl rfl

theorem resetReleaseStep_tableLaw (hpre : s.preloadLaw) (h : s.tableLaw) (winsel : BitVec 2) (lockout romen : Bool) :
    (resetReleaseStep winsel lockout romen s).tableLaw := by
  unfold resetReleaseStep
  split
  · next hpower =>
    have hdormant : s = s.dormant := hpre (by rw [hpower]; decide)
    have hadopt : s.pu.adoption = none := congrArg (fun u : State => u.pu.adoption) hdormant
    refine State.tableLaw_of_parts ?_ h.bounded h.marks ⟨fun hrun => ⟨hadopt, (h.exclusive hrun).2⟩, h.masking, h.swapWord,
      fun hne => absurd hadopt hne⟩
    exact ⟨⟨h.inner.core.slots, h.inner.core.slotNames, h.inner.core.list, h.inner.core.holders⟩, h.inner.dests,
      h.inner.claims, ⟨h.inner.serves.listed, h.inner.serves.ids, h.inner.serves.serving⟩⟩
  · exact h

theorem State.updateWritten_keepsTable (s : State) : s.keepsTable s.updateWritten := by
  unfold State.updateWritten
  dsimp only
  split <;> exact ⟨rfl, rfl, rfl, rfl, rfl, rfl, rfl⟩

/-- PATH_WRITE does nothing, or takes a head of the window's path words. -/
theorem pathWriteStep_takes (s : State) : pathWriteStep s = s ∨ ∃ q d, s.headToTake = some q ∧ q.zone ≠ .passThrough ∧
    s.closeWaits d q = false ∧
    pathWriteStep s = (s.takePathWord d (s.pathMerged d q) (s.closes d q) q.tag).retireHead := by
  unfold pathWriteStep
  split
  · next q hq =>
    split
    · next hzone =>
      split
      · next d _ =>
        split
        · exact .inl rfl
        · next hwait =>
          refine .inr ⟨q, d, hq, fun hpass => ?_, Bool.eq_false_iff.2 hwait, rfl⟩
          rw [hpass] at hzone
          exact hzone.elim nofun nofun
      · exact .inl rfl
    · exact .inl rfl
  · exact .inl rfl

theorem commandStep_tableLaw (c : Instr) (s : State) (hpre : s.preloadLaw) (h : s.tableLaw) : (commandStep c s).tableLaw := by
  have hbeside : ∀ {t : State}, s.standsBeside t → t.tableLaw := fun k => k.tableLaw h
  have hgranted : ∀ r, (s.granted r).tableLaw := fun r => h.beside (s.granted_keepsTable r) rfl (.inl rfl)
  cases c with
  | resetAssert u =>
    obtain he | ⟨_, _, _, _, he⟩ := resetAssertStep_cases u s <;> rw [commandStep, he] <;>
      exact State.hardReset_tableLaw rfl rfl rfl rfl rfl rfl
  | resetRelease winsel lockout romen => exact resetReleaseStep_tableLaw hpre h winsel lockout romen
  | preloadEnd image => exact preloadEndStep_tableLaw hpre h image
  | timebaseTick =>
    simp only [commandStep, timebaseTickStep]
    split
    · exact h
    · exact hbeside ⟨rfl, rfl, rfl, rfl, rfl, rfl, rfl, rfl⟩
  | hostWrite a e d => exact h.onBus (hostWriteStep_eq a e d s) (hostWriteStep_head a e d s)
  | hostRead a e => exact h.onBus (hostReadStep_eq a e s) (hostReadStep_head a e s)
  | delayedReadIssue i => exact h.onBus (delayedReadIssueStep_eq i s) (delayedReadIssueStep_head i s)
  | discardTimerExpiry i =>
    obtain he | ⟨_, _, _, _, he⟩ := discardTimerExpiryStep_cases i s <;> rw [commandStep, he]
    · exact h
    · exact (h.onBus (t := s.freeReadSlot i) rfl rfl).emit _ _ _ _ _
  | pathWrite =>
    obtain he | ⟨q, d, hq, hzone, hwait, he⟩ := pathWriteStep_takes s <;> rw [commandStep, he]
    · exact h
    · refine (h.takePathWord (State.headToTake_window hq hzone).2 d (fun hclose htrial => ?_) q.tag).retireHead
      rw [State.closeWaits, hclose, htrial, Bool.not_false, Bool.and_self, Bool.true_and] at hwait
      exact not_le.1 (of_decide_eq_false hwait)
  | maskViewWrite =>
    obtain he | ⟨m, todo, _, _, hhead, _, he⟩ | ⟨q, view, m, hq, hzone, _, he⟩ := maskViewWriteStep_cases s <;>
      rw [commandStep, he]
    · exact h
    · exact h.blockNext (h.masking m todo hhead) _ _ _
    · refine State.tableLaw.blockNext (s := s.setMask _ _)
        (h.beside (State.keepsTable_of_beside rfl rfl rfl rfl) rfl (.inl rfl)) ?_ _ _ _
      exact (State.headToTake_window hq (by rw [hzone]; exact nofun)).2
  | writeThrough =>
    obtain he | ⟨_, _, _, he⟩ := writeThroughStep_cases s <;> rw [commandStep, he]
    · exact h
    · exact h.headWrites _
  | planHeaderWrite =>
    obtain he | ⟨_, _, _, _, _, he | he⟩ := planHeaderWriteStep_cases s <;> rw [commandStep, he]
    · exact h
    · exact (hbeside (s.setCondition_beside _ _)).headWrites _
    · exact (h.emit _ _ _ _ _).retireHead
  | statusZoneWrite =>
    obtain he | ⟨_, _, _, he⟩ := statusZoneWriteStep_cases s <;> rw [commandStep, he]
    · exact h
    · exact (h.emit _ _ _ _ _).retireHead
  | narrowCommandWrite =>
    obtain he | ⟨_, _, _, he⟩ := narrowCommandWriteStep_cases s <;> rw [commandStep, he]
    · exact h
    · exact (h.emit _ _ _ _ _).headWrites _
  | cmdUnlock =>
    obtain he | ⟨_, _, he⟩ := cmdUnlockStep_cases s <;> rw [commandStep, he]
    · exact h
    · exact (h.onBus (t := { s with cbp := { s.cbp with lock := unlocked s.cbp.lock } }) rfl rfl).headWrites _
  | cmdAbortSet =>
    obtain he | ⟨_, _, he⟩ := cmdAbortSetStep_cases s <;> rw [commandStep, he]
    · exact h
    · exact h.abortOpen.headWrites _
  | cmdExchange =>
    obtain he | ⟨q, _, he⟩ := cmdExchangeStep_cases s <;> rw [commandStep, he]
    · exact h
    · exact (hbeside (s.controllerRequest_beside _)).headWrites _
  | cmdRelease =>
    obtain he | ⟨q, _, he⟩ := cmdReleaseStep_cases s <;> rw [commandStep, he]
    · exact h
    · refine State.tableLaw.headWrites ?_ _
      obtain ⟨u, hu, hm | ⟨k, hm⟩⟩ := s.manualRelease_requests q.data.toNat q.tag <;> rw [hm]
      · exact hbeside hu
      · exact (hbeside hu).release k _
  | cmdRingTail =>
    obtain he | ⟨_, _, ⟨_, _, he⟩ | ⟨_, _, he⟩ | ⟨_, he⟩⟩ := cmdRingTailStep_cases s <;> rw [commandStep, he]
    · exact h
    · exact h.headWrites _
    · exact h.beside (State.keepsTable_of_beside rfl rfl rfl rfl) rfl (.inr rfl)
    · exact (h.emit _ _ _ _ _).headWrites _
  | cmdRestart =>
    obtain he | ⟨_, hq, he⟩ := cmdRestartStep_cases s <;> rw [commandStep, he]
    · exact h
    · exact h.takeRestart (State.commandToTake_window hq).1 _
  | ctlWriteGrant =>
    obtain he | ⟨_, hr, he⟩ := ctlWriteGrantStep_cases s <;> rw [commandStep, he]
    · exact h
    · exact (hgranted _).headGranted
  | ctlReadGrant =>
    obtain he | ⟨hr, ⟨i, _, he⟩ | ⟨_, he⟩⟩ := ctlReadGrantStep_cases s <;> rw [commandStep, he]
    · exact h
    · exact (hgranted _).onBus (State.slotGranted_eq _ _ _) (State.slotGranted_head _ _ _)
    · exact (hgranted _).onBus (State.directGranted_eq _ _) (State.directGranted_head _ _)
  | tblGrant =>
    obtain he | ⟨hr, he⟩ := tblGrantStep_cases s <;> rw [commandStep, he]
    · exact h
    · exact (hgranted .tbl).beside (State.updateWritten_keepsTable _) (by rw [State.updateWritten_eq])
        (.inl (by rw [State.updateWritten_eq]))
  | rampTickExpiry =>
    rw [commandStep, rampTickExpiryStep_eq]
    exact h.beside ⟨rfl, rfl, rfl, rfl, rfl, rfl, rfl⟩ rfl (.inl rfl)
  | wayPass w =>
    obtain he | ⟨_, he⟩ := wayPassStep_cases w s <;> rw [commandStep, he]
    · exact h
    · exact (h.takePass w).passWay w
  | arbiterOccasion =>
    obtain he | ⟨_, hidle, he⟩ := arbiterOccasionStep_cases s <;> rw [commandStep, he]
    · exact h
    · exact h.occasion hidle
  | checkIntervalExpiry =>
    rw [commandStep, checkIntervalExpiryStep_eq]
    exact hbeside ⟨rfl, rfl, rfl, rfl, rfl, rfl, rfl, rfl⟩
  | losChange w level =>
    simp only [commandStep, losChangeStep]
    split <;> exact hbeside ⟨rfl, rfl, rfl, rfl, rfl, rfl, rfl, rfl⟩
  | wayEvaluation w =>
    obtain ⟨u, hu, he | he | he⟩ := wayEvaluationStep_requests w s <;> rw [commandStep, he]
    · exact hbeside hu
    · exact (hbeside hu).isolate w
    · exact (hbeside hu).release w none
  | exchangeStart => exact exchangeStartStep_tableLaw h
  | exchangeAccessGrant =>
    obtain he | ⟨x, _, hx, hr, he⟩ := exchangeAccessGrantStep_cases s <;> rw [commandStep, he]
    · exact h
    · exact (hgranted .xch).exchangeStep (s := s.granted .xch) (by show s.xe.running ≠ none; rw [hx]; exact nofun) _ _
  | exchangeSwap => exact exchangeSwapStep_tableLaw h
  | adoptionStart => exact adoptionStartStep_tableLaw h
  | adoptionAccessGrant =>
    obtain he | ⟨a, ha, hr, he⟩ := adoptionAccessGrantStep_cases s <;> rw [commandStep, he]
    · exact h
    · exact (hgranted .xch).adoptionStep ha _
  | eventRecordGrant =>
    obtain he | ⟨_, hr, he⟩ := eventRecordGrantStep_cases s <;> rw [commandStep, he]
    · exact h
    · rw [State.recordGranted_eq]
      exact (hgranted .evt).beside (State.keepsTable_of_beside rfl rfl rfl rfl) rfl (.inl rfl)
  | ringWordGrant =>
    obtain he | ⟨_, hr, he⟩ := ringWordGrantStep_cases s <;> rw [commandStep, he]
    · exact h
    · obtain ⟨_, hg⟩ | ⟨_, _, _, _, hg⟩ := (s.granted .evt).ringWordGranted_cases <;> rw [hg]
      · exact (hgranted .evt).beside (State.keepsTable_of_beside rfl rfl rfl rfl) rfl (.inl rfl)
      · exact (hgranted .evt).beside (State.keepsTable_of_beside rfl rfl rfl rfl) rfl (.inr rfl)
  | statusZoneGrant =>
    obtain he | ⟨_, hr, he⟩ := statusZoneGrantStep_cases s <;> rw [commandStep, he]
    · exact h
    · rw [State.statusGranted_eq]
      exact (hgranted .evt).beside (State.keepsTable_of_beside rfl rfl rfl rfl) rfl (.inl rfl)

end Commands

/-- Settles O58: every command keeps the table laws, part by part; without an adoption the port map names the records
themselves, and the laws of sources and slots are those of R21. -/
theorem tableLawsAreKept : Obligations.TableLawsAreKept := by
  unfold Obligations.TableLawsAreKept
  refine ⟨fun s t => step_keeps_law (fun s rest h => h.beside (State.keepsTable_of_beside rfl rfl rfl rfl) rfl (.inl rfl))
    commandStep_tableLaw, fun s h hidle => ?_⟩
  have hmap := State.mapStands_of_idle hidle
  have hbuilt := State.isBuilt_of_idle hidle
  refine ⟨fun p d e hd he => ?_, fun p d e hd he => ?_, fun d hline => ⟨fun hsrc => ?_, fun hsrc => ?_⟩, h.darkNone,
    fun d n sl hn hsl hphase => ?_⟩
  · exact Option.some.inj (((h.claimants hmap p d).2 ⟨hbuilt d, hd⟩).symm.trans ((h.claimants hmap p e).2 ⟨hbuilt e, he⟩))
  · exact Option.some.inj (((h.holders hmap p d).2 ⟨hbuilt d, hd⟩).symm.trans ((h.holders hmap p e).2 ⟨hbuilt e, he⟩))
  · have hlegal := h.intents d
    rw [hsrc] at hlegal
    exact hlegal.2 rfl
  · have hlegal := h.currents d
    rw [hsrc] at hlegal
    exact hlegal.2 rfl
  · obtain ⟨q, hq, rfl⟩ := h.slotNames d n hn
    obtain rfl := Option.some.inj (hq.symm.trans hsl)
    exact ((h.slots n q hq).waiting hphase).1

end Sys2Proof.Machine

/-! O60. -/

namespace Sys2Proof.Machine

section Darkens
variable {s t u : State} {d : Dest}

/-- No line destination that stands blocked has been brightened, and none whose record is still to be built. -/
structure State.darkens (s t : State) : Prop where
  blocked : ∀ d, isLine d = true → (t.record d).blocked = true → (s.record d).curAttn.toNat ≤ (t.record d).curAttn.toNat
  unbuilt : ∀ d, t.isBuilt d = false → (s.record d).curAttn.toNat ≤ (t.record d).curAttn.toNat

theorem toNat_le_dark (a : Attn) : a.toNat ≤ dark.toNat := Nat.le_of_lt_succ a.isLt

theorem State.darkens_of_attn (h : ∀ d, (t.record d).curAttn = (s.record d).curAttn) : s.darkens t :=
  ⟨fun d _ _ => by rw [h], fun d _ => by rw [h]⟩

theorem State.darkens_of_records (h : t.dt.records = s.dt.records) : s.darkens t :=
  State.darkens_of_attn fun d => by rw [State.record_congr h]

theorem State.darkens.of_records (k : u.darkens t) (h : u.dt.records = s.dt.records) : s.darkens t := by
  have hrec := State.record_congr h
  exact ⟨fun d => hrec d ▸ k.blocked d, fun d => hrec d ▸ k.unbuilt d⟩

theorem State.darkens.to_records (k : s.darkens u) (h : t.dt.records = u.dt.records) (hpu : t.pu = u.pu) : s.darkens t := by
  have hrec := State.record_congr h
  refine ⟨fun d => ?_, fun d => ?_⟩
  · rw [hrec]
    exact k.blocked d
  · rw [hrec, State.isBuilt_congr hpu]
    exact k.unbuilt d

theorem State.darkens_of_line (hidle : t.pu.adoption = none)
    (h : ∀ d, isLine d = true → (t.record d).blocked = true → (s.record d).curAttn.toNat ≤ (t.record d).curAttn.toNat) :
    s.darkens t := ⟨h, fun d hd => by rw [State.isBuilt_of_idle hidle] at hd; cases hd⟩

/-- The flagged destinations are the forced ones, which stand dark, and the blocked ones (R5, R7). -/
theorem State.darkens.flagged (k : s.darkens t) (h : t.tableLaw) (hflag : (t.record d).flagged) :
    (s.record d).curAttn.toNat ≤ (t.record d).curAttn.toNat := by
  by_cases hbuilt : t.isBuilt d = true
  · obtain hblocked | hforced := hflag
    · refine k.blocked d ?_ hblocked
      by_contra hline
      rw [(h.drops d ((Bool.not_eq_true _).mp hline)).1] at hblocked
      cases hblocked
    · rw [((h.forcedRest d hforced).2 hbuilt).2]
      exact toNat_le_dark _
  · exact k.unbuilt d ((Bool.not_eq_true _).mp hbuilt)

/-! ### The requests -/

theorem State.takePathWord_attn (s : State) (d : Dest) (merged : Word) (close : Bool) (tag : Nat) (e : Dest) :
    ((s.takePathWord d merged close tag).record e).curAttn = (s.record e).curAttn := by
  by_cases hfits : (openWord s.csa.openSet d).isSome = true ∨ s.csa.openSet.length < 4
  · rw [State.takePathWord_room hfits]
    cases close with
    | false => rfl
    | true =>
      show (((s.emptyOpen.closeSet _ _ _ _).record e)).curAttn = _
      cases hcheck : staticChecks [] (takeOpen s.csa.openSet d (storedWord merged)) with
      | some failed =>
        rw [State.closeSet_failed hcheck, State.record_congr (congrArg DestTable.records (s.emptyOpen.emit_standsBeside _ _ _ _ _).dt)]
        rfl
      | none =>
        rw [State.closeSet_passed hcheck]
        split
        · rw [State.record_congr (congrArg DestTable.records (s.emptyOpen.trial_beside _ _).dt)]
          rfl
        · rw [(s.emptyOpen.enterQueue_enters _ _ _).record]
          rfl
  · obtain ⟨hnone, hfull⟩ := not_or.1 hfits
    rw [State.takePathWord_overflow (Option.not_isSome_iff_eq_none.1 hnone) (not_lt.1 hfull),
      State.record_congr (congrArg DestTable.records (s.emptyOpen.emit_standsBeside _ _ _ _ _).dt)]
    rfl

/-- A blocked-flag request leaves every attenuation as it was (R6). -/
theorem State.blockNext_attn (h : s.tableLaw) (hidle : s.pu.adoption = none) (tag : Nat) (m : Fin 12) (todo : List (Fin 32))
    (e : Dest) : ((s.blockNext tag m todo).record e).curAttn = (s.record e).curAttn := by
  cases todo with
  | nil => rfl
  | cons b rest =>
    obtain ⟨hmake, -⟩ := Work.changeBlocked_makes (w := s.begin) h.inner.core h.inner.listed
      (State.isBuilt_of_idle hidle (maskDest m b)) (h.inner.waits _) ((s.maskWord m).getLsbD b.val)
    show ((s.begin.changeBlocked (maskDest m b) ((s.maskWord m).getLsbD b.val)).st.record e).curAttn = _
    by_cases he : e = maskDest m b
    · rw [he, hmake.record, DestRecord.reevaluated_record]
      rfl
    · rw [hmake.others e he]
      rfl

theorem State.isolate_darkens (h : s.tableLaw) (k : Way) : s.darkens (s.isolate k) := by
  obtain ⟨v, hv, hspans⟩ := s.isolate_spans h.inner k
  have hle : ∀ d, (s.record d).curAttn.toNat ≤ (v.st.record d).curAttn.toNat := fun d => by
    by_cases hd : d ∈ s.fedFrom k
    · rw [hspans.record d hd]
      unfold DestRecord.forcedDark
      split
      · exact toNat_le_dark _
      · exact le_refl _
    · rw [hspans.others d hd]
      exact le_refl _
  rw [hv]
  exact ⟨fun d _ _ => hle d, fun d _ => hle d⟩

theorem State.release_darkens (h : s.tableLaw) (k : Way) (tag : Option Nat) : s.darkens (s.release k tag) := by
  obtain ⟨v, hv, hspans⟩ := s.release_spans h.inner k tag
  have hbuilt : ∀ d, (s.release k tag).isBuilt d = s.isBuilt d := fun d => by
    rw [hv]
    exact State.isBuilt_congr (s := s) (t := v.finish tag) hspans.reworks.outside.pu d
  have hsame : ∀ d, isLine d = true ∨ s.isBuilt d = false → (v.st.record d).curAttn = (s.record d).curAttn := fun d hor => by
    by_cases hd : d ∈ s.fedFrom k
    · rw [hspans.record d hd]
      unfold DestRecord.unforced
      split
      · next hb =>
        unfold DestRecord.released
        dsimp only
        rw [if_pos (hor.resolve_right (by rw [hb]; exact nofun))]
      · rfl
    · rw [hspans.others d hd]
      rfl
  refine ⟨fun d hline _ => ?_, fun d hb => ?_⟩
  · rw [hv]
    exact (congrArg BitVec.toNat (hsame d (.inl hline))).symm.le
  · rw [hbuilt] at hb
    rw [hv]
    exact (congrArg BitVec.toNat (hsame d (.inr hb))).symm.le

/-- A swap leaves its destination at its effective target and the displaced holder dark (R116). -/
theorem State.canSwap.darkens {src : Source} (h : s.canSwap d src) (attn : Attn) : s.darkens (s.swapped d src attn) := by
  refine State.darkens_of_line ((s.swap_requested d src attn).outside.pu ▸ h.idle) fun c hline hblocked => ?_
  rw [State.swapped_record h attn] at hblocked ⊢
  split
  · next hc =>
    rw [if_pos hc] at hblocked
    have hdark : (s.swapLeft d src attn c).1.curAttn = dark := by
      obtain rfl | hother := State.mem_swapDests.1 hc
      · rw [State.swapLeft_own] at hblocked ⊢
        unfold DestRecord.direct
        exact if_pos (.inr (.inl ⟨hline, hblocked⟩))
      · obtain ⟨hne, -⟩ := h.displaced hother
        rw [State.swapLeft_other s src attn hne, DestRecord.displaced_record]
    rw [hdark]
    exact toNat_le_dark _
  · exact le_refl _

end Darkens

end Sys2Proof.Machine

/-! O60. -/

namespace Sys2Proof.Machine

/-! ### The occasion of the arbiter -/

section Occasion
variable {s t : State} {w : Work} {q : QueuedSet} {rest : List QueuedSet} {d : Dest} {id : Nat} {e : SetEntry}

/-- An entry settled is never brightened by it: it is at once dark, or its phase evaluation leaves its attenuation (R39). -/
theorem State.settlesEntry.attn (k : s.settlesEntry t id e) (h : s.coreLaw) (hline : isLine d = true) :
    (s.record d).curAttn.toNat ≤ (t.record d).curAttn.toNat := by
  obtain ⟨hothers, -, hforced, hplain⟩ := k
  by_cases hd : d = e.dest
  · subst hd
    by_cases hf : (s.record e.dest).forced = true
    · rw [(hforced hline hf).1]
      exact toNat_le_dark _
    · obtain ⟨hslot, hrest, hmoves⟩ := hplain hline ((Bool.not_eq_true _).mp hf)
      have hphased : ∀ {sl : RampSlot} {r : DestRecord} {n : SlotNo} {l : List SlotNo}, s.evaluates t n sl r l → sl.dest = e.dest →
          r.curAttn = (s.record e.dest).curAttn → (t.record e.dest).curAttn = (s.record e.dest).curAttn := fun hev hdest hattn => by
        have hrecord := congrArg Prod.fst hev.1
        dsimp only at hrecord
        rw [hdest, DestRecord.phased_record] at hrecord
        rw [hrecord]
        exact hattn
      refine (congrArg BitVec.toNat ?_).symm.le
      cases hn : (s.record e.dest).slot with
      | some n =>
        obtain ⟨sl, hsl, hdest⟩ := h.slotNames e.dest n hn
        exact hphased (hslot n sl hn hsl) hdest rfl
      | none =>
        by_cases hatrest : atRest e.dest (s.record e.dest) = true
        · rw [(hrest hn hatrest).1]
        · obtain ⟨n, -, -, hev⟩ := hmoves hn ((Bool.not_eq_true _).mp hatrest)
          exact hphased hev rfl rfl
  · rw [hothers d hd]

/-- An applied set brightens no line destination at once (R39). -/
theorem Work.admitsSet.attn (h : w.admitsSet q rest) (hline : isLine d = true) :
    (w.st.record d).curAttn.toNat ≤ ((w.applySet q).st.record d).curAttn.toNat := by
  have hrun : ∀ i, (w.st.record d).curAttn.toNat ≤ ((w.entriesSettled q i).record d).curAttn.toNat := fun i => by
    induction i with
    | zero => exact (congrArg BitVec.toNat (w.intended_kept h.legal d).2.2).symm.le
    | succ i ih =>
      obtain ⟨hmid, hentry⟩ := h.run i
      cases hi : q.entries[i]? with
      | none =>
        have hlen := List.getElem?_eq_none_iff.1 hi
        unfold Work.entriesSettled at ih ⊢
        rw [List.take_of_length_le hlen] at ih
        rw [List.take_of_length_le (Nat.le_succ_of_le hlen)]
        exact ih
      | some e => exact ih.trans ((hentry e hi).attn hmid.core hline)
  rw [w.applySet_record, ← w.entriesSettled_all]
  exact hrun _

/-- An occasion of the arbiter brightens no line destination at once. -/
theorem Work.arbitrate_attn (fuel : Nat) {w : Work} (h : w.st.tableLaw) (hidle : w.st.pu.adoption = none)
    (hline : isLine d = true) : (w.st.record d).curAttn.toNat ≤ ((Work.arbitrate fuel w).st.record d).curAttn.toNat := by
  induction fuel generalizing w with
  | zero => exact le_refl _
  | succ fuel ih =>
    cases hqueue : w.st.csa.queue with
    | nil =>
      have hadmit := Work.foldl_admitWanted _ h.inner hidle w.st.wantedDests_sorted fun d => State.mem_wantedDests.1
      rw [Work.arbitrate_empty h.inner hidle hqueue, hadmit.record d]
    | cons q rest =>
      cases hcheck : w.st.dynamicCheck q.entries with
      | some failed =>
        obtain ⟨e, p, c⟩ := failed
        have hreject := w.rejectSet_rejects q e p c
        have hpu : (w.rejectSet q e p c).st.pu.adoption = none := by
          rw [hreject.frame, State.emitPortHeld_eq]
          exact hidle
        have hnext := ih (hreject.tableLaw h hqueue) hpu
        rw [hreject.record] at hnext
        rw [Work.arbitrate_rejects hqueue hcheck]
        exact hnext
      | none =>
        by_cases hroom : w.st.neededSlots q.entries ≤ w.st.freeSlots.length
        · rw [Work.arbitrate_applies hqueue hcheck hroom]
          have happly : w.admitsSet q rest := ⟨h, hidle, hqueue, hcheck, hroom⟩
          exact (happly.attn hline).trans (ih happly.tableLaw (by rw [(w.applySet_outside q).pu]; exact hidle))
        · rw [Work.arbitrate_waits hqueue hcheck (not_le.1 hroom)]

theorem State.occasion_darkens (h : s.tableLaw) (hidle : s.pu.adoption = none) : s.darkens s.occasion := by
  refine State.darkens_of_line (by rw [s.occasion_requested.outside.pu]; exact hidle) fun d hline _ => ?_
  rw [State.occasion_eq rfl, Work.close_record]
  exact Work.arbitrate_attn _ (w := s.begin) h hidle hline

end Occasion

/-! ### The pass of a way -/

section Pass
variable {s t : State} {n : SlotNo} {sl : RampSlot} {maxStep left leaves : Nat} {d : Dest}

theorem stepToward_dark {a : Attn} {delta : Nat} (h : delta ≤ distance a dark) : a.toNat ≤ (stepToward a dark delta).toNat := by
  rw [stepToward_toNat h]
  split
  · exact Nat.le_add_right _ _
  · next hnot =>
    have : distance a dark = a.toNat - dark.toNat := by unfold distance; omega
    have := toNat_le_dark a
    omega

/-- A slot of a blocked destination has the goal 255 (R5, R72). -/
theorem State.slotLaw.goal_of_blocked (h : s.slotLaw n sl) (hblocked : (s.record sl.dest).blocked = true) : sl.goal = dark := by
  by_cases hsrc : (s.record sl.dest).curSrc = (s.record sl.dest).intentSrc
  · rw [h.toTarget hsrc]
    exact if_pos (.inr (.inl ⟨h.line, hblocked⟩))
  · exact h.toDark hsrc

/-- A visit never brightens a blocked destination (R68). -/
theorem State.visits.attn (k : s.visits maxStep left sl t leaves) (h : s.tableLaw) (hs : s.re.slots[n] = some sl)
    (hblocked : (s.record d).blocked = true) : (s.record d).curAttn.toNat ≤ (t.record d).curAttn.toNat := by
  cases k with
  | stays _ => exact le_refl _
  | moves v _ r q hmake _ _ hcase =>
    show _ ≤ (v.st.record d).curAttn.toNat
    by_cases hd : d = sl.dest
    · subst hd
      rw [hmake.record]
      obtain ⟨-, -, -, hr⟩ | ⟨-, a, ha, -, hr⟩ := hcase
      · rw [show r = _ from congrArg Prod.fst hr, DestRecord.towardTarget_record]
      · obtain ⟨delta, -, hle, rfl, -, -⟩ := findStep_some ha
        have hattn : r.curAttn = stepToward (s.record sl.dest).curAttn sl.goal delta := by
          split at hr
          · rw [show r = _ from congrArg Prod.fst hr, DestRecord.phased_record]
          · rw [show r = _ from congrArg Prod.fst hr]
        rw [(h.slots n sl hs).goal_of_blocked hblocked] at hattn hle
        rw [hattn]
        exact stepToward_dark (hle.trans (min_le_right _ _))
    · rw [hmake.others d hd]
      exact le_refl _

/-- A pass never brightens a blocked destination (R67). -/
theorem State.passWay_attn (h : s.tableLaw) (slots : List SlotNo) (left : Nat) (hblocked : (s.record d).blocked = true) :
    (s.record d).curAttn.toNat ≤ ((slots.foldl (State.visit maxStep) (s, left)).1.record d).curAttn.toNat := by
  induction slots generalizing s left with
  | nil => exact le_refl _
  | cons n slots ih =>
    rw [List.foldl_cons]
    cases hs : s.re.slots[n] with
    | none =>
      rw [State.visit_free hs]
      exact ih h left hblocked
    | some sl =>
      have hpass := (State.visit_keeps h hs maxStep left).1
      have hvisit := (State.visit_visits h.inner hs maxStep left).attn h hs hblocked
      exact hvisit.trans (ih hpass.table _ ((hpass.flags d).2.2.1.trans hblocked))

theorem State.passWay_darkens (h : s.tableLaw) (w : Way) : s.darkens (s.passWay w) := by
  have hpass := (State.visits_foldl s.pu.params.maxStep (s.slotsOfWay w) h
    (passBudget s.pu.params.budgetFloor s.pu.params.slewFraction s.re.loads[w])).1
  refine ⟨fun d _ hblocked => ?_, fun d hb => ?_⟩
  · exact State.passWay_attn h _ _ ((hpass.flags d).2.2.1.symm.trans hblocked)
  · by_cases hadopt : s.pu.adoption = none
    · rw [State.isBuilt_of_idle (by rw [(s.passWay_requested w).outside.pu]; exact hadopt)] at hb
      cases hb
    · have hnone : s.slotsOfWay w = [] := by rw [State.slotsOfWay, (h.adopts hadopt).list]; rfl
      unfold State.passWay
      rw [hnone]
      exact le_refl _

end Pass

end Sys2Proof.Machine

/-! O60. -/

namespace Sys2Proof.Machine

section Commands
variable {s : State}

theorem State.headGranted_darkens (h : s.tableLaw) : s.darkens s.headGranted := by
  obtain he | ⟨_, _, _, _, _, he⟩ | ⟨_, _, he⟩ | ⟨_, _, he⟩ := s.headGranted_cases <;> rw [he]
  · exact State.darkens_of_records rfl
  · exact State.darkens_of_records rfl
  · exact State.darkens_of_records s.retireHead_keepsTable.records
  · exact State.darkens_of_attn fun d => by rw [(State.carryOutRestart_restarts h.inner.core h.marks).record]

theorem exchangeSwapStep_darkens (h : s.tableLaw) : s.darkens (exchangeSwapStep s) := by
  obtain he | ⟨x, d, src, hrun, hstage, hkey, hsrc, he⟩ := exchangeSwapStep_cases s <;> rw [he]
  · exact State.darkens_of_records rfl
  · cases hfree : s.otherClaimant d src with
    | some claim =>
      unfold State.swapEntry
      rw [hfree]
      dsimp only
      rw [State.skipEntry_eq]
      exact State.darkens_of_records rfl
    | none =>
      rw [State.swapEntry_swaps hfree]
      exact ((h.canSwap hrun hstage hkey hsrc hfree).darkens _).to_records rfl rfl

/-- No command but a hard reset and an adoption's grant brightens what the laws hold dark. -/
theorem commandStep_darkens {c : Instr} (h : s.tableLaw) (hreset : ∀ u, c ≠ .resetAssert u) (hadopt : c ≠ .adoptionAccessGrant) :
    s.darkens (commandStep c s) := by
  have hsame : s.darkens s := State.darkens_of_records rfl
  have hrecords : ∀ {t : State}, s.keepsTable t → s.darkens t := fun k => State.darkens_of_records k.records
  have hgranted : ∀ r, (s.granted r).tableLaw := fun r => h.beside (s.granted_keepsTable r) rfl (.inl rfl)
  have hbeside : ∀ {u : State}, s.standsBeside u → u.tableLaw := fun k => k.tableLaw h
  cases c with
  | resetAssert u => exact absurd rfl (hreset u)
  | adoptionAccessGrant => exact absurd rfl hadopt
  | resetRelease winsel lockout romen =>
    simp only [commandStep, resetReleaseStep]
    split <;> exact State.darkens_of_records rfl
  | preloadEnd image =>
    obtain he | ⟨_, he⟩ := preloadEndStep_cases image s <;> rw [commandStep, he]
    · exact hsame
    · exact State.darkens_of_records rfl
  | timebaseTick =>
    simp only [commandStep, timebaseTickStep]
    split <;> exact State.darkens_of_records rfl
  | hostWrite a e d => rw [commandStep, hostWriteStep_eq]; exact State.darkens_of_records rfl
  | hostRead a e => rw [commandStep, hostReadStep_eq]; exact State.darkens_of_records rfl
  | delayedReadIssue i => rw [commandStep, delayedReadIssueStep_eq]; exact State.darkens_of_records rfl
  | discardTimerExpiry i =>
    obtain he | ⟨_, _, _, _, he⟩ := discardTimerExpiryStep_cases i s <;> rw [commandStep, he]
    · exact hsame
    · exact State.darkens_of_records (State.emit_keepsTable _ _ _ _ _ _).records
  | pathWrite =>
    obtain he | ⟨q, d, _, _, _, he⟩ := pathWriteStep_takes s <;> rw [commandStep, he]
    · exact hsame
    · exact State.darkens.to_records (State.darkens_of_attn (State.takePathWord_attn _ _ _ _ _))
        (State.retireHead_keepsTable _).records (State.retireHead_keepsTable _).pu
  | maskViewWrite =>
    obtain he | ⟨m, todo, _, _, hhead, _, he⟩ | ⟨q, view, m, hq, hzone, _, he⟩ := maskViewWriteStep_cases s <;>
      rw [commandStep, he]
    · exact hsame
    · exact State.darkens_of_attn (State.blockNext_attn h (h.masking m todo hhead) _ _ _)
    · have hidle := (State.headToTake_window hq (by rw [hzone]; exact nofun)).2
      have hset : (s.setMask m (maskWrite view (s.maskWord m) q.position q.bytes)).tableLaw :=
        h.beside (State.keepsTable_of_beside rfl rfl rfl rfl) rfl (.inl rfl)
      exact (State.darkens_of_attn (State.blockNext_attn hset hidle _ _ _)).of_records rfl
  | writeThrough =>
    obtain he | ⟨_, _, _, he⟩ := writeThroughStep_cases s <;> rw [commandStep, he] <;> exact State.darkens_of_records rfl
  | planHeaderWrite =>
    obtain he | ⟨_, _, _, _, _, he | he⟩ := planHeaderWriteStep_cases s <;> rw [commandStep, he]
    · exact hsame
    · exact State.darkens_of_records rfl
    · exact hrecords ((s.emit_keepsTable _ _ _ _ _).trans (State.retireHead_keepsTable _))
  | statusZoneWrite =>
    obtain he | ⟨_, _, _, he⟩ := statusZoneWriteStep_cases s <;> rw [commandStep, he]
    · exact hsame
    · exact hrecords ((s.emit_keepsTable _ _ _ _ _).trans (State.retireHead_keepsTable _))
  | narrowCommandWrite =>
    obtain he | ⟨_, _, _, he⟩ := narrowCommandWriteStep_cases s <;> rw [commandStep, he]
    · exact hsame
    · exact State.darkens_of_records (s.emit_keepsTable _ _ _ _ _).records
  | cmdUnlock =>
    obtain he | ⟨_, _, he⟩ := cmdUnlockStep_cases s <;> rw [commandStep, he] <;> exact State.darkens_of_records rfl
  | cmdAbortSet =>
    obtain he | ⟨_, _, he⟩ := cmdAbortSetStep_cases s <;> rw [commandStep, he]
    · exact hsame
    · rw [State.abortOpen_eq]
      exact State.darkens_of_records rfl
  | cmdExchange =>
    obtain he | ⟨q, _, he⟩ := cmdExchangeStep_cases s <;> rw [commandStep, he]
    · exact hsame
    · exact State.darkens_of_records (s.controllerRequest_beside _).keepsTable.records
  | cmdRelease =>
    obtain he | ⟨q, _, he⟩ := cmdReleaseStep_cases s <;> rw [commandStep, he]
    · exact hsame
    · refine State.darkens.to_records (u := s.manualRelease q.data.toNat q.tag) ?_ rfl rfl
      obtain ⟨u, hu, hm | ⟨k, hm⟩⟩ := s.manualRelease_requests q.data.toNat q.tag <;> rw [hm]
      · exact hrecords hu.keepsTable
      · exact (State.release_darkens (hbeside hu) k _).of_records hu.keepsTable.records
  | cmdRingTail =>
    obtain he | ⟨_, _, ⟨_, _, he⟩ | ⟨_, _, he⟩ | ⟨_, he⟩⟩ := cmdRingTailStep_cases s <;> rw [commandStep, he]
    · exact hsame
    · exact State.darkens_of_records rfl
    · exact State.darkens_of_records rfl
    · exact State.darkens_of_records (s.emit_keepsTable _ _ _ _ _).records
  | cmdRestart =>
    obtain he | ⟨_, _, he⟩ := cmdRestartStep_cases s <;> rw [commandStep, he] <;> exact State.darkens_of_records rfl
  | ctlWriteGrant =>
    obtain he | ⟨_, hr, he⟩ := ctlWriteGrantStep_cases s <;> rw [commandStep, he]
    · exact hsame
    · exact (State.headGranted_darkens (hgranted _)).of_records rfl
  | ctlReadGrant =>
    obtain he | ⟨hr, ⟨i, _, he⟩ | ⟨_, he⟩⟩ := ctlReadGrantStep_cases s <;> rw [commandStep, he]
    · exact hsame
    · rw [State.slotGranted_eq]; exact State.darkens_of_records rfl
    · rw [State.directGranted_eq]; exact State.darkens_of_records rfl
  | tblGrant =>
    obtain he | ⟨hr, he⟩ := tblGrantStep_cases s <;> rw [commandStep, he]
    · exact hsame
    · exact State.darkens_of_records (s := s) (State.updateWritten_keepsTable _).records
  | rampTickExpiry => rw [commandStep, rampTickExpiryStep_eq]; exact State.darkens_of_records rfl
  | wayPass w =>
    obtain he | ⟨_, he⟩ := wayPassStep_cases w s <;> rw [commandStep, he]
    · exact hsame
    · exact (State.passWay_darkens (h.takePass w) w).of_records rfl
  | arbiterOccasion =>
    obtain he | ⟨_, hidle, he⟩ := arbiterOccasionStep_cases s <;> rw [commandStep, he]
    · exact hsame
    · exact State.occasion_darkens h hidle
  | checkIntervalExpiry => rw [commandStep, checkIntervalExpiryStep_eq]; exact State.darkens_of_records rfl
  | losChange w level =>
    simp only [commandStep, losChangeStep]
    split <;> exact State.darkens_of_records rfl
  | wayEvaluation w =>
    obtain ⟨u, hu, he | he | he⟩ := wayEvaluationStep_requests w s <;> rw [commandStep, he]
    · exact hrecords hu.keepsTable
    · exact (State.isolate_darkens (hbeside hu) w).of_records hu.keepsTable.records
    · exact (State.release_darkens (hbeside hu) w none).of_records hu.keepsTable.records
  | exchangeStart =>
    simp only [commandStep, exchangeStartStep]
    split
    · exact hrecords (State.startFrom_stands s.xe.list s).1
    · exact hsame
  | exchangeAccessGrant =>
    obtain he | ⟨x, _, hx, hr, he⟩ := exchangeAccessGrantStep_cases s <;> rw [commandStep, he]
    · exact hsame
    · rw [State.exchangeStep_eq]; exact State.darkens_of_records rfl
  | exchangeSwap => exact exchangeSwapStep_darkens h
  | adoptionStart =>
    obtain he | ⟨_, _, _, _, he⟩ := adoptionStartStep_cases s <;> rw [commandStep, he] <;> exact State.darkens_of_records rfl
  | eventRecordGrant =>
    obtain he | ⟨_, hr, he⟩ := eventRecordGrantStep_cases s <;> rw [commandStep, he]
    · exact hsame
    · rw [State.recordGranted_eq]; exact State.darkens_of_records rfl
  | ringWordGrant =>
    obtain he | ⟨_, hr, he⟩ := ringWordGrantStep_cases s <;> rw [commandStep, he]
    · exact hsame
    · obtain ⟨_, hg⟩ | ⟨_, _, _, _, hg⟩ := (s.granted .evt).ringWordGranted_cases <;> rw [hg] <;>
        exact State.darkens_of_records rfl
  | statusZoneGrant =>
    obtain he | ⟨_, hr, he⟩ := statusZoneGrantStep_cases s <;> rw [commandStep, he]
    · exact hsame
    · rw [State.statusGranted_eq]; exact State.darkens_of_records rfl

end Commands

/-- Settles O60: a forced destination stands dark, and whatever moves a blocked line destination moves it to 255 or toward it;
the table laws of the state reached say which destinations are which. -/
theorem flaggedNeverBrightens : Obligations.FlaggedNeverBrightens := by
  unfold Obligations.FlaggedNeverBrightens
  intro c s t d hpre h hexec hreset hadopt _ hflag
  rw [exec_eq_commandStep] at hexec
  obtain rfl := Host.Outcome.next.inj hexec
  exact (commandStep_darkens h hreset hadopt).flagged (commandStep_tableLaw c s hpre h) hflag

end Sys2Proof.Machine

/-! The path image and the mask words in memory, in three parts: the picture of the table (R16), the posted writes (R127), and
the mask words (R88); and what each part depends on. -/

namespace Sys2Proof.Machine

/-- The picture of the table in memory: of `State.imageLaw`, what speaks of records, of the table-update list and of memory. -/
structure State.pictureLaw (s : State) : Prop where
  image : ∀ d : Dest, s.dt.records[d].isSome = true → d ∉ s.dt.updates.map UpdateEntry.dest →
    s.loadWord (pathOffset d) = s.currentWord d
  listed : (s.dt.updates.map UpdateEntry.dest).Nodup
  fixed : ∀ a d w, s.pu.adoption = some a → a.stage = .fixedWord d w →
    (s.record d).intentSrc = .none ∧ w = s.currentWord d

/-- The host's writes, posted and held, are judged ones. -/
structure State.postsLaw (s : State) : Prop where
  queue : ∀ h ∈ s.cbp.queue, h.judged s.pu.params
  held : ∀ a size data, s.cbp.held = some (.write a size data) → accessFaults s.pu.params a size = false

/-- The queue's head: of `State.imageLaw`, what speaks of the head in handling. -/
structure State.headLaw (s : State) : Prop where
  head : ∀ todo restart, s.cbp.head = .writing todo restart → ∀ acc ∈ todo,
    acc.sparesImage s.pu.params ∧ (acc.sparesMasks s.pu.params ∨ s.isMaskWrite acc)
  taken : s.cbp.head ≠ .waiting → s.cbp.queue ≠ []
  ringWord : s.cbp.head = .ringWord → ∀ h rest, s.cbp.queue = h :: rest → h.zone = .command

/-- The mask words and the blocked flags as `State.maskLaw` gives them where no mask write is in handling. -/
structure State.masksSettled (s : State) : Prop where
  present : s.pu.power = .running → s.pu.adoption = none →
    (∀ m : Fin 12, s.masks[m].isSome = true) ∧ ∀ d : Dest, s.dt.records[d].isSome = true
  rebuilt : ∀ a, s.pu.adoption = some a →
    (∀ m : Fin 12, m.val < a.masksRead → s.masks[m].isSome = true) ∧
      ∀ d : Dest, d.val < a.built → s.dt.records[d].isSome = true
  flags : ∀ d : Dest, s.dt.records[d].isSome = true → isLine d = true →
    s.masks[maskWordOf d].isSome = true ∧ (s.record d).blocked = s.maskBit d
  words : ∀ (m : Fin 12) (w : Word), s.masks[m] = some w → s.loadWord (0x700 + 4 * m.val) = w

/-- No mask write is in handling. -/
structure State.calm (s : State) : Prop where
  masking : ∀ m todo, s.cbp.head ≠ .masking m todo
  free : ∀ m, ¬ s.maskInHand m

section Parts
variable {s t : State}

theorem State.imageLaw_iff : s.imageLaw ↔ s.pictureLaw ∧ s.postsLaw ∧ s.headLaw ∧ s.maskLaw :=
  ⟨fun h => ⟨⟨h.image, h.listed, h.fixed⟩, ⟨h.queue, h.held⟩, ⟨h.head, h.taken, h.ringWord⟩, h.mask⟩,
    fun ⟨hpicture, hposts, hhead, hmask⟩ => ⟨hpicture.image, hpicture.listed, hposts.queue, hposts.held, hhead.head, hhead.taken,
      hhead.ringWord, hpicture.fixed, hmask⟩⟩

theorem State.imageLaw.picture (h : s.imageLaw) : s.pictureLaw := (State.imageLaw_iff.1 h).1

theorem State.imageLaw.posts (h : s.imageLaw) : s.postsLaw := (State.imageLaw_iff.1 h).2.1

theorem State.imageLaw.headed (h : s.imageLaw) : s.headLaw := (State.imageLaw_iff.1 h).2.2.1

theorem State.calm.notDue (h : s.calm) (d : Dest) : ¬ s.blockDue d :=
  fun ⟨m, _, todo, hhead, _⟩ => h.masking m todo hhead

theorem State.maskLaw.settled (h : s.maskLaw) (hcalm : s.calm) : s.masksSettled :=
  ⟨h.present, h.rebuilt, fun d hd hline => (h.flags d hd hline).imp id fun hflag => hflag (hcalm.notDue d),
    fun m w hw => h.words m w hw (hcalm.free m)⟩

theorem State.masksSettled.maskLaw (h : s.masksSettled)
    (hmasking : ∀ m todo, s.cbp.head = .masking m todo → s.masks[m].isSome = true) : s.maskLaw :=
  ⟨h.present, h.rebuilt, fun d hd hline => (h.flags d hd hline).imp id fun hflag _ => hflag, fun m w hw _ => h.words m w hw,
    hmasking⟩

theorem State.masksSettled.maskLaw_of_head (h : s.masksSettled) (hcalm : ∀ m todo, s.cbp.head ≠ .masking m todo) : s.maskLaw :=
  h.maskLaw fun m todo hhead => absurd hhead (hcalm m todo)

theorem State.calm_of_head (hmasking : ∀ m todo, s.cbp.head ≠ .masking m todo)
    (hwriting : ∀ todo restart, s.cbp.head ≠ .writing todo restart) : s.calm :=
  ⟨hmasking, fun m hm => hm.elim (fun ⟨todo, hhead⟩ => hmasking m todo hhead) fun ⟨todo, _, hhead, _⟩ => hwriting todo false hhead⟩

theorem State.calm_of_waiting (h : s.cbp.head = .waiting) : s.calm :=
  State.calm_of_head (by rw [h]; exact nofun) (by rw [h]; exact nofun)

/-- The stages in which the head has nothing more of its own to write: its handling begins, or another block's grant is due. -/
theorem State.headLaw_of_stage (hwriting : ∀ todo restart, s.cbp.head ≠ .writing todo restart)
    (htaken : s.cbp.head ≠ .waiting → s.cbp.queue ≠ []) (hring : s.cbp.head ≠ .ringWord) : s.headLaw :=
  ⟨fun todo restart hhead => absurd hhead (hwriting todo restart), htaken, fun hhead => absurd hhead hring⟩

theorem State.headLaw_of_waiting (h : s.cbp.head = .waiting) : s.headLaw :=
  State.headLaw_of_stage (by rw [h]; exact nofun) (fun hne => absurd h hne) (by rw [h]; exact nofun)

/-! ### What each part depends on -/

theorem State.currentWord_of_records (hrecords : t.dt.records = s.dt.records) (hslots : t.re.slots = s.re.slots) (d : Dest) :
    t.currentWord d = s.currentWord d :=
  State.currentWord_congr (State.record_congr hrecords d)
    (State.slotOf_congr (by rw [State.record_congr hrecords]) fun n _ => by rw [hslots])

theorem State.pictureLaw.congr (h : s.pictureLaw) (hrecords : t.dt.records = s.dt.records)
    (hupdates : t.dt.updates = s.dt.updates) (hslots : t.re.slots = s.re.slots)
    (hwords : ∀ d : Dest, t.loadWord (pathOffset d) = s.loadWord (pathOffset d)) (hpu : t.pu = s.pu) : t.pictureLaw := by
  have hword := State.currentWord_of_records hrecords hslots
  refine ⟨fun d hd hlisted => ?_, by rw [hupdates]; exact h.listed, fun a d w ha hstage => ?_⟩
  · rw [hwords, hword]
    exact h.image d (by rw [← hrecords]; exact hd) (by rw [← hupdates]; exact hlisted)
  · rw [hword, State.record_congr hrecords]
    exact h.fixed a d w (by rw [← hpu]; exact ha) hstage

theorem State.postsLaw.congr (h : s.postsLaw) (hqueue : t.cbp.queue = s.cbp.queue) (hheld : t.cbp.held = s.cbp.held)
    (hparams : t.pu.params = s.pu.params) : t.postsLaw :=
  ⟨by rw [hqueue, hparams]; exact h.queue, by rw [hheld, hparams]; exact h.held⟩

theorem State.wordWrite_of_params (hparams : t.pu.params = s.pu.params) (offset : Nat) (w : Word) :
    t.wordWrite offset w = s.wordWrite offset w := by rw [State.wordWrite, State.wordWrite, hparams]

theorem State.isMaskWrite.congr {acc : Access} (h : s.isMaskWrite acc) (hmasks : t.masks = s.masks) (hpu : t.pu = s.pu) :
    t.isMaskWrite acc := by
  obtain ⟨hidle, m, w, hw, rfl⟩ := h
  exact ⟨by rw [hpu]; exact hidle, m, w, by rw [hmasks]; exact hw, (State.wordWrite_of_params (by rw [hpu]) _ _).symm⟩

theorem State.headLaw.congr (h : s.headLaw) (hqueue : t.cbp.queue = s.cbp.queue) (hhead : t.cbp.head = s.cbp.head)
    (hmasks : t.masks = s.masks) (hpu : t.pu = s.pu) : t.headLaw := by
  refine ⟨fun todo restart hwriting acc hacc => ?_, by rw [hhead, hqueue]; exact h.taken, by rw [hhead, hqueue]; exact h.ringWord⟩
  obtain ⟨himage, hmask⟩ := h.head todo restart (hhead.symm.trans hwriting) acc hacc
  rw [hpu]
  exact ⟨himage, hmask.imp id fun hm => hm.congr hmasks hpu⟩

theorem State.maskWord_of_masks (hmasks : t.masks = s.masks) (m : Fin 12) : t.maskWord m = s.maskWord m := by
  rw [State.maskWord, State.maskWord, hmasks]

theorem State.maskBit_of_masks (hmasks : t.masks = s.masks) (d : Dest) : t.maskBit d = s.maskBit d := by
  rw [State.maskBit, State.maskBit, State.maskWord_of_masks hmasks]

/-- Two states show the mask law the same blocked flags, MU words and mask words in memory. -/
structure State.showsMasks (s t : State) : Prop where
  present : ∀ d : Dest, t.dt.records[d].isSome = s.dt.records[d].isSome
  blocked : ∀ d : Dest, (t.record d).blocked = (s.record d).blocked
  masks : t.masks = s.masks
  words : ∀ m : Fin 12, t.loadWord (0x700 + 4 * m.val) = s.loadWord (0x700 + 4 * m.val)
  pu : t.pu = s.pu

theorem State.showsMasks_of_records (hrecords : t.dt.records = s.dt.records) (hmasks : t.masks = s.masks)
    (hwords : ∀ m : Fin 12, t.loadWord (0x700 + 4 * m.val) = s.loadWord (0x700 + 4 * m.val)) (hpu : t.pu = s.pu) :
    s.showsMasks t :=
  ⟨fun d => congrArg (fun r : Vector (Option DestRecord) 432 => r[d].isSome) hrecords,
    fun d => by rw [State.record_congr hrecords], hmasks, hwords, hpu⟩

theorem State.loadWord_of_mem (hmem : t.mem = s.mem) (hpu : t.pu = s.pu) (offset : Nat) :
    t.loadWord offset = s.loadWord offset := by rw [State.loadWord, State.loadWord, hmem, hpu]

/-- The mask law carries over to a state that shows the same and whose head leaves at least as much due and in hand. -/
theorem State.maskLaw.carry (h : s.maskLaw) (k : s.showsMasks t) (hdue : ∀ d, s.blockDue d → t.blockDue d)
    (hhand : ∀ m, s.maskInHand m → t.maskInHand m)
    (hmasking : ∀ m todo, t.cbp.head = .masking m todo → s.masks[m].isSome = true) : t.maskLaw := by
  refine ⟨fun hrun hidle => ?_, fun a ha => ?_, fun d hd hline => ?_, fun m w hw hm => ?_, fun m todo hhead => ?_⟩
  · rw [k.pu] at hrun hidle
    obtain ⟨hmasks, hrecords⟩ := h.present hrun hidle
    exact ⟨by rw [k.masks]; exact hmasks, fun d => (k.present d).trans (hrecords d)⟩
  · rw [k.pu] at ha
    obtain ⟨hmasks, hrecords⟩ := h.rebuilt a ha
    exact ⟨by rw [k.masks]; exact hmasks, fun d hd => (k.present d).trans (hrecords d hd)⟩
  · obtain ⟨hmask, hflag⟩ := h.flags d ((k.present d).symm.trans hd) hline
    rw [k.masks, k.blocked, State.maskBit_of_masks k.masks]
    exact ⟨hmask, fun hnot => hflag fun hs => hnot (hdue d hs)⟩
  · rw [k.words]
    exact h.words m w (by rw [← k.masks]; exact hw) fun hs => hm (hhand m hs)
  · rw [k.masks]
    exact hmasking m todo hhead

theorem State.blockDue_congr (hhead : t.cbp.head = s.cbp.head) (d : Dest) : t.blockDue d ↔ s.blockDue d := by
  rw [State.blockDue, State.blockDue, hhead]

theorem State.maskInHand_congr (hhead : t.cbp.head = s.cbp.head) (hmasks : t.masks = s.masks)
    (hparams : t.pu.params = s.pu.params) (m : Fin 12) : t.maskInHand m ↔ s.maskInHand m := by
  simp only [State.maskInHand, State.wordWrite_of_params hparams, hhead, hmasks]

theorem State.maskLaw.congr (h : s.maskLaw) (k : s.showsMasks t) (hhead : t.cbp.head = s.cbp.head) : t.maskLaw :=
  h.carry k (fun d => (State.blockDue_congr hhead d).2)
    (fun m => (State.maskInHand_congr hhead k.masks (by rw [k.pu]) m).2)
    fun m todo hm => h.masking m todo (hhead.symm.trans hm)

/-- From a head with no mask write in handling the mask law carries over to any head. -/
theorem State.maskLaw.fromCalm (h : s.maskLaw) (hcalm : s.calm) (k : s.showsMasks t)
    (hmasking : ∀ m todo, t.cbp.head = .masking m todo → s.masks[m].isSome = true) : t.maskLaw :=
  h.carry k (fun d hd => absurd hd (hcalm.notDue d)) (fun m hm => absurd hm (hcalm.free m)) hmasking

theorem State.masksSettled.congr (h : s.masksSettled) (k : s.showsMasks t) : t.masksSettled := by
  refine ⟨fun hrun hidle => ?_, fun a ha => ?_, fun d hd hline => ?_, fun m w hw => ?_⟩
  · rw [k.pu] at hrun hidle
    obtain ⟨hmasks, hrecords⟩ := h.present hrun hidle
    exact ⟨by rw [k.masks]; exact hmasks, fun d => (k.present d).trans (hrecords d)⟩
  · rw [k.pu] at ha
    obtain ⟨hmasks, hrecords⟩ := h.rebuilt a ha
    exact ⟨by rw [k.masks]; exact hmasks, fun d hd => (k.present d).trans (hrecords d hd)⟩
  · rw [k.masks, k.blocked, State.maskBit_of_masks k.masks]
    exact h.flags d ((k.present d).symm.trans hd) hline
  · rw [k.words]
    exact h.words m w (by rw [← k.masks]; exact hw)

/-- Beside the table, the port and the queue's head nothing counts for the law. -/
theorem State.imageLaw.beside (h : s.imageLaw) (hrecords : t.dt.records = s.dt.records) (hupdates : t.dt.updates = s.dt.updates)
    (hslots : t.re.slots = s.re.slots) (hmem : t.mem = s.mem) (hpu : t.pu = s.pu) (hmasks : t.masks = s.masks)
    (hqueue : t.cbp.queue = s.cbp.queue) (hheld : t.cbp.held = s.cbp.held) (hhead : t.cbp.head = s.cbp.head) : t.imageLaw := by
  have hwords := State.loadWord_of_mem hmem hpu
  exact State.imageLaw_iff.2 ⟨h.picture.congr hrecords hupdates hslots (fun d => hwords _) hpu,
    h.posts.congr hqueue hheld (by rw [hpu]), h.headed.congr hqueue hhead hmasks hpu,
    h.mask.congr (State.showsMasks_of_records hrecords hmasks (fun m => hwords _) hpu) hhead⟩

theorem State.standsBeside.imageLaw (k : s.standsBeside t) (h : s.imageLaw) : t.imageLaw :=
  h.beside (by rw [k.dt]) (by rw [k.dt]) (by rw [k.re]) k.mem k.pu k.masks (by rw [k.cbp]) (by rw [k.cbp]) (by rw [k.cbp])

theorem State.imageLaw.emit (h : s.imageLaw) (kind : RecordKind) (reason : Nat) (subject : BitVec 16) (a b : Word) :
    (s.emit kind reason subject a b).imageLaw := (s.emit_standsBeside kind reason subject a b).imageLaw h

end Parts

end Sys2Proof.Machine

/-! Which memory writes leave the path words and the mask words alone. -/

namespace Sys2Proof.Machine

section Spares
variable {s t : State} {p : Params} {a : Nat} {bytes : List Byte} {acc : Access} {r : Requester}

theorem memReadWord_of_keepsOutside {m m' : List Host.Cell} {n b : Nat} (h : keepsOutside m m' a n)
    (hout : b + 4 ≤ a ∨ a + n ≤ b) : memReadWord m' b = memReadWord m b := by
  refine congrArg wordOfBytes (List.map_congr_left fun i hi => h _ ?_)
  have := List.mem_range.1 hi
  omega

/-- The memory after an access, with nothing else changed that a word read shows. -/
structure State.accesses (s t : State) (acc : Access) : Prop where
  read : ∀ a n, acc = .read a n → t.mem = s.mem
  write : ∀ a bytes, acc = .write a bytes → t.mem = memWriteBytes s.mem a bytes
  pu : t.pu = s.pu

theorem State.granted_accesses (h : s.access r = some acc) : s.accesses (s.granted r) acc := by
  refine ⟨fun a n he => ?_, fun a bytes he => ?_, rfl⟩
  · subst he
    rw [State.granted_read h]
  · subst he
    rw [State.granted_write h]

/-- A word that the access does not reach stands. -/
theorem State.accesses.word (k : s.accesses t acc) {offset : Nat} (hout : ∀ a bytes, acc = .write a bytes →
    a + bytes.length ≤ windowAddr s.pu.params offset ∨ windowAddr s.pu.params offset + 4 ≤ a) :
    t.loadWord offset = s.loadWord offset := by
  unfold State.loadWord
  rw [k.pu]
  cases acc with
  | read a n => rw [k.read a n rfl]
  | write a bytes =>
    rw [k.write a bytes rfl]
    refine memReadWord_of_keepsOutside (memWriteBytes_keepsOutside _ _ _) ?_
    have := hout a bytes rfl
    omega

theorem windowAddr_zero (p : Params) : windowAddr p 0 = p.windowBase.toNat * 65536 := Nat.add_zero _

theorem windowAddr_eq (p : Params) (offset : Nat) : windowAddr p offset = windowAddr p 0 + offset := by
  rw [windowAddr_zero, windowAddr]

theorem State.accesses.pathWord (k : s.accesses t acc) (h : acc.sparesImage s.pu.params) (d : Dest) :
    t.loadWord (pathOffset d) = s.loadWord (pathOffset d) := by
  refine k.word fun a bytes he => ?_
  subst he
  have h : a + bytes.length ≤ windowAddr s.pu.params 0 ∨ windowAddr s.pu.params 0x6C0 ≤ a := h
  rw [windowAddr_eq _ 0x6C0] at h
  rw [windowAddr_eq, pathOffset]
  have := d.isLt
  omega

theorem State.accesses.maskWord (k : s.accesses t acc) (h : acc.sparesMasks s.pu.params) (m : Fin 12) :
    t.loadWord (0x700 + 4 * m.val) = s.loadWord (0x700 + 4 * m.val) := by
  refine k.word fun a bytes he => ?_
  subst he
  have h : a + bytes.length ≤ windowAddr s.pu.params 0x700 ∨ windowAddr s.pu.params 0x730 ≤ a := h
  rw [windowAddr_eq _ 0x700, windowAddr_eq _ 0x730] at h
  rw [windowAddr_eq]
  have := m.isLt
  omega

/-- A whole word written is read back, and every other word stands. -/
theorem State.accesses.wordWrite {offset : Nat} {w : Word} (k : s.accesses t (s.wordWrite offset w)) (hwf : Memory.wf s.mem) :
    t.loadWord offset = w ∧
      ∀ o, o + 4 ≤ offset ∨ offset + 4 ≤ o → t.loadWord o = s.loadWord o := by
  refine ⟨?_, fun o ho => k.word fun a bytes he => ?_⟩
  · rw [State.loadWord, k.pu, k.write _ _ rfl]
    exact memReadWord_memWriteBytes hwf _ w
  · obtain ⟨rfl, rfl⟩ := Access.write.inj he
    have hlength : (wordBytes w).length = 4 := rfl
    rw [hlength, windowAddr_eq _ offset, windowAddr_eq _ o]
    omega

theorem State.wordWrite_sparesMasks {offset : Nat} (h : offset + 4 ≤ 0x700 ∨ 0x730 ≤ offset) (w : Word) :
    (s.wordWrite offset w).sparesMasks s.pu.params := by
  change _ + (wordBytes w).length ≤ _ ∨ _ ≤ _
  have hlength : (wordBytes w).length = 4 := rfl
  rw [hlength, windowAddr_eq _ offset, windowAddr_eq _ 0x700, windowAddr_eq _ 0x730]
  omega

theorem State.wordWrite_sparesImage {offset : Nat} (h : 0x6C0 ≤ offset) (w : Word) :
    (s.wordWrite offset w).sparesImage s.pu.params := by
  refine Or.inr ?_
  rw [windowAddr_eq _ offset, windowAddr_eq _ 0x6C0]
  omega

/-- The write of a mask word at the direct view is none of those that spare the mask words. -/
theorem State.maskWrite_not_spares (m : Fin 12) (w : Word) : ¬ (s.wordWrite (0x700 + 4 * m.val) w).sparesMasks s.pu.params := by
  intro h
  change _ + (wordBytes w).length ≤ _ ∨ _ ≤ _ at h
  have hlength : (wordBytes w).length = 4 := rfl
  rw [hlength, windowAddr_eq _ (0x700 + 4 * m.val), windowAddr_eq _ 0x700, windowAddr_eq _ 0x730] at h
  have := m.isLt
  omega

theorem State.maskWrite_inj {m n : Fin 12} {w v : Word}
    (h : s.wordWrite (0x700 + 4 * m.val) w = s.wordWrite (0x700 + 4 * n.val) v) : m = n := by
  have haddr := (Access.write.inj h).1
  rw [windowAddr_eq, windowAddr_eq _ (0x700 + 4 * n.val)] at haddr
  exact Fin.ext (by omega)

/-- A grant that spares the path words and the mask words makes no difference to the law. -/
theorem State.imageLaw.granted (h : s.imageLaw) (hacc : s.access r = some acc) (himage : acc.sparesImage s.pu.params)
    (hmasks : acc.sparesMasks s.pu.params) : (s.granted r).imageLaw := by
  have k := State.granted_accesses hacc
  exact State.imageLaw_iff.2 ⟨h.picture.congr rfl rfl rfl (k.pathWord himage) rfl, h.posts.congr rfl rfl rfl,
    h.headed.congr rfl rfl rfl rfl, h.mask.congr (State.showsMasks_of_records rfl rfl (k.maskWord hmasks) rfl) rfl⟩

/-- A grant that writes a whole word above the mask words, or reads. -/
theorem State.imageLaw.granted_above (h : s.imageLaw) {offset : Nat} {w : Word}
    (hacc : s.access r = some (s.wordWrite offset w)) (hoffset : 0x730 ≤ offset) : (s.granted r).imageLaw :=
  h.granted hacc (State.wordWrite_sparesImage (by omega) w) (State.wordWrite_sparesMasks (.inr hoffset) w)

theorem State.imageLaw.granted_read (h : s.imageLaw) {n : Nat} (hacc : s.access r = some (.read a n)) :
    (s.granted r).imageLaw := h.granted hacc trivial trivial

end Spares

section Through
variable {p : Params} {h : PostedWrite} {acc : Access}

/-- The zones that keep the written bytes off the path words and the mask words. -/
def Zone.spares : Zone → Bool
  | .passThrough => true
  | .linePath => false
  | .dropPath => false
  | .mask _ => false
  | .command => true
  | .status => true
  | .planStore => true
  | .planHeader => true
  | .ring => true
  | .plain => true

theorem Zone.spares_of_writesThrough {z : Zone} (h : writesThrough z = true) : z.spares = true := by
  cases z with
  | linePath | dropPath | mask | command | status | planHeader => exact absurd h nofun
  | passThrough | planStore | ring | plain => rfl

/-- An offset in such a zone lies behind the path words and off the direct view. -/
theorem zoneOfOffset_spares {length o : Nat} (h : (zoneOfOffset length o).spares = true) :
    0x6C0 ≤ o ∧ ¬ (0x700 ≤ o ∧ o < 0x730) := by
  refine ⟨not_lt.1 fun hlt => ?_, fun hmask => ?_⟩
  · have hpath : zoneOfOffset length o = .linePath ∨ zoneOfOffset length o = .dropPath := by
      unfold zoneOfOffset
      split
      · exact .inl rfl
      · exact .inr rfl
    obtain he | he := hpath <;> rw [he] at h <;> exact absurd h nofun
  · rw [zoneOfOffset_mask (v := .direct) hmask] at h
    exact absurd h nofun

/-- The accesses of a judged write in such a zone lie outside the window or, whole, in one word of it that is no path word and
no mask word. -/
theorem PostedWrite.through_spares (hj : h.judged p) (hzone : h.zone.spares = true) (hacc : acc ∈ h.through) :
    acc.sparesImage p ∧ acc.sparesMasks p := by
  obtain ⟨hz, hfault⟩ := hj
  have hnot : ¬ (2 ^ 24 < h.addr.toNat + h.size.bytes ∨ _) := fun hor =>
    absurd (((accessFaults_iff p h.addr h.size).2 hor).symm.trans hfault) nofun
  have hsize : 1 ≤ h.size.bytes ∧ h.size.bytes ≤ 4 := by cases h.size <;> decide
  suffices hkey : ∀ a bytes, acc = .write a bytes → (a + bytes.length ≤ windowAddr p 0 ∨ windowAddr p 0x6C0 ≤ a) ∧
      (a + bytes.length ≤ windowAddr p 0x700 ∨ windowAddr p 0x730 ≤ a) by
    cases acc with
    | read a n => exact ⟨trivial, trivial⟩
    | write a bytes => exact hkey a bytes rfl
  rw [windowAddr_eq _ 0x6C0, windowAddr_eq _ 0x700, windowAddr_eq _ 0x730, windowAddr_zero]
  intro a bytes he
  subst he
  by_cases hin : inWindow p h.addr = true
  · have hdiv := (inWindow_iff p h.addr).1 hin
    have hinside : crosses h.addr h.size = false := Bool.eq_false_iff.2 fun hc =>
      hnot (.inr ⟨(crosses_iff _ _).1 hc, 0, hsize.1, hdiv⟩)
    rw [zoneOf, if_pos hin] at hz
    rw [hz] at hzone
    have hoffset := zoneOfOffset_spares hzone
    rw [PostedWrite.through_inside hinside] at hacc
    obtain ⟨rfl, rfl⟩ := Access.write.inj (List.mem_singleton.1 hacc)
    rw [crosses, decide_eq_false_iff_not] at hinside
    rw [List.length_map, List.length_range]
    unfold offsetOf at hoffset
    omega
  · have hout : ∀ i < h.size.bytes, h.addr.toNat / 4 = (h.addr.toNat + h.size.bytes - 1) / 4 ∨
        (h.addr.toNat + i) / 65536 ≠ p.windowBase.toNat := fun i hi => by
      by_contra hboth
      rw [not_or, not_not] at hboth
      exact hnot (.inr ⟨hboth.1, i, hi, hboth.2⟩)
    have hdiv : h.addr.toNat / 65536 ≠ p.windowBase.toNat := fun hd => hin ((inWindow_iff p h.addr).2 hd)
    have hlast := hout (h.size.bytes - 1) (by omega)
    by_cases hcross : crosses h.addr h.size = true
    · rw [PostedWrite.through_crossing hcross] at hacc
      have hne := (crosses_iff _ _).1 hcross
      rw [crosses, decide_eq_true_eq] at hcross
      obtain he | he := List.mem_cons.1 hacc
      · obtain ⟨rfl, rfl⟩ := Access.write.inj he
        rw [List.length_take, List.length_map, List.length_range]
        omega
      · obtain ⟨rfl, rfl⟩ := Access.write.inj (List.mem_singleton.1 he)
        rw [List.length_drop, List.length_map, List.length_range]
        omega
    · rw [PostedWrite.through_inside (Bool.eq_false_iff.2 hcross)] at hacc
      obtain ⟨rfl, rfl⟩ := Access.write.inj (List.mem_singleton.1 hacc)
      rw [crosses, decide_eq_true_eq] at hcross
      rw [List.length_map, List.length_range]
      omega

end Through

end Sys2Proof.Machine

/-! The port: the host's transactions, and the head's handling from the taking of the head to its end (R126, R127). -/

namespace Sys2Proof.Machine

/-- The posted writes stand, and no write is newly held. -/
structure State.keepsPosts (s t : State) : Prop where
  queue : t.cbp.queue = s.cbp.queue
  held : ∀ a size data, t.cbp.held = some (.write a size data) → s.cbp.held = some (.write a size data)

section Host
variable {s t u : State}

theorem State.keepsPosts_of_eq (hqueue : t.cbp.queue = s.cbp.queue) (hheld : t.cbp.held = s.cbp.held) : s.keepsPosts t :=
  ⟨hqueue, fun _ _ _ h => hheld.symm.trans h⟩

theorem State.keepsPosts_of_read {a : Addr} {size : Size} {got : List Byte} (hqueue : t.cbp.queue = s.cbp.queue)
    (hheld : t.cbp.held = some (.read a size got)) : s.keepsPosts t :=
  ⟨hqueue, fun _ _ _ h => absurd (hheld.symm.trans h) nofun⟩

theorem State.keepsPosts_of_none (hqueue : t.cbp.queue = s.cbp.queue) (hheld : t.cbp.held = none) : s.keepsPosts t :=
  ⟨hqueue, fun _ _ _ h => absurd (hheld.symm.trans h) nofun⟩

theorem State.keepsPosts.trans (h : s.keepsPosts t) (k : t.keepsPosts u) : s.keepsPosts u :=
  ⟨k.queue.trans h.queue, fun a size data hu => h.held a size data (k.held a size data hu)⟩

theorem State.newRead_posts (s : State) (a : Addr) (size : Size) : s.keepsPosts (s.newRead a size) := by
  unfold State.newRead
  split
  · exact State.keepsPosts_of_read rfl rfl
  · split <;> exact State.keepsPosts_of_eq rfl rfl

theorem hostReadStep_posts (a : Addr) (e : BitVec 4) (s : State) : s.keepsPosts (hostReadStep a e s) := by
  have hsame : ∀ r, s.keepsPosts (s.respond r) := fun _ => State.keepsPosts_of_eq rfl rfl
  unfold hostReadStep
  split
  · exact hsame _
  · split
    · exact State.keepsPosts_of_eq rfl rfl
    · split
      · exact hsame _
      · split
        · exact hsame _
        · unfold State.judgeRead
          split
          · exact hsame _
          · split
            · split
              · split <;> exact State.keepsPosts_of_eq rfl rfl
              · exact s.newRead_posts _ _
            · exact s.newRead_posts _ _

theorem delayedReadIssueStep_posts (i : ReadSlotNo) (s : State) : s.keepsPosts (delayedReadIssueStep i s) := by
  have hsame : s.keepsPosts s := State.keepsPosts_of_eq rfl rfl
  unfold delayedReadIssueStep
  split
  · split
    · split
      · exact State.keepsPosts_of_eq rfl rfl
      · exact hsame
    · exact hsame
    · exact hsame
  · exact hsame

theorem State.slotGranted_posts (s : State) (i : ReadSlotNo) (bytes : List Byte) : s.keepsPosts (s.slotGranted i bytes) := by
  unfold State.slotGranted
  split
  · split <;> exact State.keepsPosts_of_eq rfl rfl
  · exact State.keepsPosts_of_eq rfl rfl

theorem State.directGranted_posts (s : State) (bytes : List Byte) : s.keepsPosts (s.directGranted bytes) := by
  unfold State.directGranted
  split
  · split
    · exact State.keepsPosts_of_none rfl rfl
    · exact State.keepsPosts_of_read rfl rfl
  · exact State.keepsPosts_of_eq rfl rfl
  · exact State.keepsPosts_of_eq rfl rfl

theorem State.withdrawDirect_posts (s : State) : s.keepsPosts s.withdrawDirect := by
  unfold State.withdrawDirect
  split
  · dsimp only
    split <;> exact State.keepsPosts_of_none rfl rfl
  · exact State.keepsPosts_of_eq rfl rfl
  · exact State.keepsPosts_of_eq rfl rfl

theorem State.startFrom_posts (l : List ExchangeRequest) (s : State) : s.keepsPosts (State.startFrom l s) := by
  induction l generalizing s with
  | nil => exact State.keepsPosts_of_eq rfl rfl
  | cons r rest ih =>
    rw [State.startFrom]
    split
    · have hemit := s.emit_standsBeside .exchangeRefused 2 (exchangeSubject r.plan) (originDetail r.origin) (refusedDetail r)
      exact (State.keepsPosts_of_eq (by rw [hemit.cbp]) (by rw [hemit.cbp])).trans (ih _)
    · unfold State.beginExchange
      refine State.keepsPosts.trans ?_ (State.withdrawDirect_posts _)
      exact State.keepsPosts_of_eq rfl rfl

theorem State.postsLaw.keep (h : s.postsLaw) (k : s.keepsPosts t) (hparams : t.pu.params = s.pu.params) : t.postsLaw := by
  refine ⟨?_, fun a size data hheld => ?_⟩
  · rw [k.queue, hparams]
    exact h.queue
  · rw [hparams]
    exact h.held a size data (k.held a size data hheld)

/-- A write that was not answered FAULT joins the queue judged (R125, R126). -/
theorem State.postsLaw.post (h : s.postsLaw) {a : Addr} {size : Size} (hfault : accessFaults s.pu.params a size = false)
    (data : Word) : (s.post a size data).postsLaw := by
  rw [(s.post_spec a size data).1]
  refine ⟨fun p hp => ?_, h.held⟩
  obtain hp | hp := List.mem_append.1 hp
  · exact h.queue p hp
  · obtain rfl := List.mem_singleton.1 hp
    exact ⟨rfl, hfault⟩

/-- The queue grows at its end, which leaves its head in place. -/
theorem State.headLaw.append (h : s.headLaw) (hhead : t.cbp.head = s.cbp.head) {new : List PostedWrite}
    (hqueue : t.cbp.queue = s.cbp.queue ++ new) (hmasks : t.masks = s.masks) (hpu : t.pu = s.pu) : t.headLaw := by
  have hnonempty : t.cbp.head ≠ .waiting → s.cbp.queue ≠ [] := by rw [hhead]; exact h.taken
  have hsame : ({ t with cbp := s.cbp } : State).headLaw := h.congr rfl rfl hmasks hpu
  refine ⟨fun todo restart hwriting => hsame.head todo restart (hhead.symm.trans hwriting), fun hne => ?_,
    fun hring q rest hq => ?_⟩
  · rw [hqueue]
    exact List.append_ne_nil_of_left_ne_nil (hnonempty hne) _
  · obtain ⟨p, tail, hs⟩ := List.exists_cons_of_ne_nil (hnonempty (by rw [hring]; exact nofun))
    rw [hqueue, hs] at hq
    obtain rfl := (List.cons.inj hq).1
    exact h.ringWord (hhead.symm.trans hring) p tail hs

/-- A step of the bus that adds to the queue at most, with the head in handling left as it was. -/
theorem State.imageLaw.onBus (h : s.imageLaw) (ht : t = { s with cbp := t.cbp }) (hhead : t.cbp.head = s.cbp.head)
    {new : List PostedWrite} (hqueue : t.cbp.queue = s.cbp.queue ++ new) (hposts : t.postsLaw) : t.imageLaw := by
  have hpu : t.pu = s.pu := by rw [ht]
  have hmasks : t.masks = s.masks := by rw [ht]
  have hrecords : t.dt.records = s.dt.records := by rw [ht]
  have hwords := State.loadWord_of_mem (t := t) (s := s) (by rw [ht]) hpu
  exact State.imageLaw_iff.2 ⟨h.picture.congr hrecords (by rw [ht]) (by rw [ht]) (fun d => hwords _) hpu, hposts,
    h.headed.append hhead hqueue hmasks hpu,
    h.mask.congr (State.showsMasks_of_records hrecords hmasks (fun m => hwords _) hpu) hhead⟩

theorem State.imageLaw.keepPosts (h : s.imageLaw) (ht : t = { s with cbp := t.cbp }) (hhead : t.cbp.head = s.cbp.head)
    (k : s.keepsPosts t) : t.imageLaw :=
  h.onBus ht hhead (k.queue.trans (List.append_nil _).symm) (h.posts.keep k (by rw [ht]))

theorem hostWriteStep_imageLaw (h : s.imageLaw) (a : Addr) (e : BitVec 4) (data : Word) :
    (hostWriteStep a e data s).imageLaw := by
  have hsame : ∀ r, (s.respond r).imageLaw := fun _ => h.keepPosts rfl rfl (State.keepsPosts_of_eq rfl rfl)
  unfold hostWriteStep
  split
  · exact hsame _
  · split
    · exact h
    · split
      · exact hsame _
      · next size hsize =>
        split
        · exact hsame _
        · next hfault =>
          have hfault : accessFaults s.pu.params a size = false := Bool.eq_false_iff.2 hfault
          split
          · exact hsame _
          · split
            · have hposts := h.posts.post hfault data
              exact h.onBus rfl rfl rfl ⟨hposts.queue, hposts.held⟩
            · refine h.onBus rfl rfl (List.append_nil _).symm ⟨h.posts.queue, fun a' size' data' hheld => ?_⟩
              obtain ⟨rfl, rfl, rfl⟩ := HeldTransaction.write.inj (Option.some.inj hheld)
              exact hfault

end Host

section Head
variable {s t : State} {p : PostedWrite}

/-- The head goes on to another stage of its handling, with no mask write in handling before it. -/
theorem State.imageLaw.setHead (h : s.imageLaw) (hcalm : s.calm) {stage : HeadStage} (hhead : (s.setHead stage).headLaw)
    (hmasking : ∀ m todo, stage = .masking m todo → s.masks[m].isSome = true) : (s.setHead stage).imageLaw :=
  State.imageLaw_iff.2 ⟨h.picture.congr rfl rfl rfl (fun _ => rfl) rfl, h.posts.congr rfl rfl rfl, hhead,
    h.mask.fromCalm hcalm (State.showsMasks_of_records rfl rfl (fun _ => rfl) rfl) hmasking⟩

/-- A head in handling with the memory writes to be granted, which spare the path words and the mask words. -/
theorem State.imageLaw.headWrites (h : s.imageLaw) (hcalm : s.calm) (hqueue : s.cbp.queue ≠ []) {todo : List Access}
    (hacc : ∀ acc ∈ todo, acc.sparesImage s.pu.params ∧ acc.sparesMasks s.pu.params) (restart : Bool) :
    (s.headWrites todo restart).imageLaw := by
  refine h.setHead hcalm ⟨fun todo' restart' hwriting acc hmem => ?_, fun _ => hqueue, nofun⟩ nofun
  obtain ⟨rfl, -⟩ := HeadStage.writing.inj hwriting
  exact (hacc acc hmem).imp id .inl

/-- The head's bytes are written as posted, in a zone that keeps them off the path words and the mask words. -/
theorem State.imageLaw.mailbox (h : s.imageLaw) (hcalm : s.calm) {rest : List PostedWrite} (hqueue : s.cbp.queue = p :: rest)
    (hzone : p.zone.spares = true) (restart : Bool) : (s.mailbox p restart).imageLaw :=
  h.headWrites hcalm (by rw [hqueue]; exact nofun)
    (fun _ hacc => PostedWrite.through_spares (h.posts.queue p (by rw [hqueue]; exact List.mem_cons_self)) hzone hacc) restart

theorem State.imageLaw.takeThrough (h : s.imageLaw) (hp : s.headToTake = some p) (hzone : p.zone.spares = true) (restart : Bool)
    (k : s.standsBeside t) : (t.mailbox p restart).imageLaw := by
  obtain ⟨hwaiting, ⟨rest, hqueue⟩, -⟩ := State.headToTake_spec hp
  exact (k.imageLaw h).mailbox (State.calm_of_waiting (by rw [k.cbp]; exact hwaiting)) (by rw [k.cbp]; exact hqueue) hzone restart

theorem State.imageLaw.takeCommand {n : Nat} (h : s.imageLaw) (hp : s.commandToTake n = some p) (restart : Bool)
    (k : s.standsBeside t) : (t.mailbox p restart).imageLaw := by
  obtain ⟨hp, hzone, -⟩ := State.commandToTake_spec hp
  exact h.takeThrough hp (by rw [hzone]; rfl) restart k

theorem State.postsLaw.retireHead (h : s.postsLaw) : s.retireHead.postsLaw := by
  have hpop : s.popHead.postsLaw := ⟨fun q hq => h.queue q (List.mem_of_mem_tail hq), h.held⟩
  rw [State.retireHead_eq_postHeld]
  obtain ⟨-, he⟩ | ⟨a, size, data, hheld, ⟨-, he⟩ | ⟨-, he⟩⟩ := State.postHeld_spec s.popHead <;> rw [he]
  · exact hpop
  · exact ⟨hpop.queue, nofun⟩
  · have hfree : ({ s.popHead with cbp := { s.popHead.cbp with held := none } } : State).postsLaw := ⟨hpop.queue, nofun⟩
    have hposts := hfree.post (h.held a size data hheld) data
    exact ⟨hposts.queue, hposts.held⟩

/-- A head that leaves the queue leaves no mask write in handling behind. -/
theorem State.imageLaw_retireHead (hpicture : s.pictureLaw) (hposts : s.postsLaw) (hmasks : s.masksSettled) :
    s.retireHead.imageLaw := by
  have hhead := s.retireHead_head_lock.1
  have hwords := State.loadWord_of_mem s.retireHead_mem s.retireHead_pu
  exact State.imageLaw_iff.2 ⟨hpicture.congr (by rw [State.retireHead_dt]) (by rw [State.retireHead_dt])
      (by rw [State.retireHead_re]) (fun d => hwords _) s.retireHead_pu, hposts.retireHead, State.headLaw_of_waiting hhead,
    (hmasks.congr (State.showsMasks_of_records (by rw [State.retireHead_dt]) s.retireHead_masks (fun m => hwords _)
      s.retireHead_pu)).maskLaw_of_head (by rw [hhead]; exact nofun)⟩

theorem State.imageLaw.retireHead (h : s.imageLaw) (hcalm : s.calm) : s.retireHead.imageLaw :=
  State.imageLaw_retireHead h.picture h.posts (h.mask.settled hcalm)

end Head

end Sys2Proof.Machine

/-! The memory writes of the queue's head, as CTL grants them (R127). -/

namespace Sys2Proof.Machine

section HeadGrant
variable {s : State} {acc : Access} {rest : List Access} {restart : Bool}

/-- What is still to write once the first of the head's accesses has been granted. -/
def State.headLeft (s : State) (rest : List Access) (restart : Bool) : State := (s.granted .ctl).headWrites rest restart

/-- The mask words follow the MU also across the write of one of them: the word granted is the MU's own, and the others that
are in hand are still to be written. -/
theorem State.imageLaw.headLeft_words (h : s.imageLaw) (hwf : Memory.wf s.mem) (hhead : s.cbp.head = .writing (acc :: rest) restart)
    (hacc : s.access .ctl = some acc) {m : Fin 12} {w : Word} (hw : s.masks[m] = some w)
    (hfree : ¬ (s.headLeft rest restart).maskInHand m) : (s.headLeft rest restart).loadWord (0x700 + 4 * m.val) = w := by
  have k := State.granted_accesses hacc
  have hstill : acc ≠ s.wordWrite (0x700 + 4 * m.val) w → ¬ s.maskInHand m := fun hne hm => by
    obtain ⟨todo, he⟩ | ⟨todo, v, he, hv, hmem⟩ := hm
    · rw [hhead] at he
      cases he
    · rw [hhead] at he
      obtain ⟨rfl, rfl⟩ := HeadStage.writing.inj he
      obtain rfl := Option.some.inj (hw.symm.trans hv)
      exact hfree (.inr ⟨rest, w, rfl, hw, (List.mem_cons.1 hmem).resolve_left fun heq => hne heq.symm⟩)
  obtain ⟨-, hspares | ⟨-, n, v, hv, rfl⟩⟩ := h.head _ _ hhead acc List.mem_cons_self
  · refine (k.maskWord hspares m).trans (h.mask.words m w hw (hstill ?_))
    rintro rfl
    exact State.maskWrite_not_spares m w hspares
  · obtain ⟨hword, hothers⟩ := k.wordWrite hwf
    by_cases hmn : m = n
    · subst hmn
      obtain rfl := Option.some.inj (hw.symm.trans hv)
      exact hword
    · have hne : m.val ≠ n.val := fun he => hmn (Fin.ext he)
      exact (hothers (0x700 + 4 * m.val) (by omega)).trans
        (h.mask.words m w hw (hstill fun heq => hmn (State.maskWrite_inj heq).symm))

/-- A granted write of the head leaves the law, with the rest of its writes still to be made (R127). -/
theorem State.imageLaw.headLeft (h : s.imageLaw) (hwf : Memory.wf s.mem) (hhead : s.cbp.head = .writing (acc :: rest) restart)
    (hacc : s.access .ctl = some acc) : (s.headLeft rest restart).imageLaw := by
  have hall := h.head _ _ hhead
  have hdue : ∀ d, ¬ s.blockDue d := fun d ⟨_, _, _, he, _⟩ => absurd (hhead.symm.trans he) nofun
  refine State.imageLaw_iff.2 ⟨h.picture.congr rfl rfl rfl
      ((State.granted_accesses hacc).pathWord (hall acc List.mem_cons_self).1) rfl, h.posts.congr rfl rfl rfl,
    ⟨fun todo again hwriting a ha => ?_, fun _ => h.taken (by rw [hhead]; exact nofun), nofun⟩,
    ⟨h.mask.present, h.mask.rebuilt, fun d hd hline => (h.mask.flags d hd hline).imp id fun hflag _ => hflag (hdue d),
      fun m w hw hfree => h.headLeft_words hwf hhead hacc hw hfree, nofun⟩⟩
  obtain ⟨rfl, -⟩ := HeadStage.writing.inj hwriting
  exact hall a (List.mem_cons_of_mem _ ha)

/-- After the last of the head's writes no mask word is in hand. -/
theorem State.imageLaw.lastGranted (h : s.imageLaw) (hwf : Memory.wf s.mem) (hhead : s.cbp.head = .writing [acc] restart)
    (hacc : s.access .ctl = some acc) :
    (s.granted .ctl).pictureLaw ∧ (s.granted .ctl).postsLaw ∧ (s.granted .ctl).masksSettled := by
  have hleft := h.headLeft hwf hhead hacc
  have hcalm : (s.headLeft [] restart).calm := by
    refine ⟨nofun, fun m hm => ?_⟩
    obtain ⟨_, he⟩ | ⟨todo, _, he, -, hmem⟩ := hm
    · cases he
    · obtain ⟨rfl, -⟩ := HeadStage.writing.inj he
      exact absurd hmem List.not_mem_nil
  exact ⟨hleft.picture.congr rfl rfl rfl (fun _ => rfl) rfl, hleft.posts.congr rfl rfl rfl,
    (hleft.mask.settled hcalm).congr (State.showsMasks_of_records rfl rfl (fun _ => rfl) rfl)⟩

end HeadGrant

end Sys2Proof.Machine

/-! The requests on the table: each marks whatever destination has its current word changed (R16). -/

namespace Sys2Proof.Machine

/-- Within a request: the blocked flags stand, and a destination that it has not marked has its current word. -/
structure Work.draws (w v : Work) : Prop where
  blocked : ∀ d, (v.st.record d).blocked = (w.st.record d).blocked
  mono : ∀ d ∈ w.marks, d ∈ v.marks
  word : ∀ d, d ∉ v.marks → v.st.currentWord d = w.st.currentWord d

/-- A whole request: beside the table nothing counts, no record is newly built, the blocked flags stand, the list names no
destination twice, and a destination off the list has its current word; a destination that adoption left without a source keeps
its word. -/
structure State.draws (s t : State) : Prop where
  outside : s.keepsOutsideTable t
  present : ∀ d : Dest, t.dt.records[d].isSome = s.dt.records[d].isSome
  blocked : ∀ d, (t.record d).blocked = (s.record d).blocked
  listed : ∀ d ∈ s.dt.updates.map UpdateEntry.dest, d ∈ t.dt.updates.map UpdateEntry.dest
  nodup : (s.dt.updates.map UpdateEntry.dest).Nodup → (t.dt.updates.map UpdateEntry.dest).Nodup
  word : ∀ d, d ∉ t.dt.updates.map UpdateEntry.dest → t.currentWord d = s.currentWord d
  sourceless : s.pu.adoption ≠ none → ∀ d, (s.record d).intentSrc = .none →
    (t.record d).intentSrc = .none ∧ t.currentWord d = s.currentWord d

section Draws
variable {s t u : State} {w v : Work} {tag : Option Nat}

theorem Work.draws.refl (w : Work) : w.draws w := ⟨fun _ => rfl, fun _ hd => hd, fun _ _ => rfl⟩

theorem Work.draws.trans {u : Work} (h : w.draws v) (k : v.draws u) : w.draws u :=
  ⟨fun d => (k.blocked d).trans (h.blocked d), fun d hd => k.mono d (h.mono d hd), fun d hd =>
    (k.word d hd).trans (h.word d fun hv => hd (k.mono d hv))⟩

theorem State.draws.refl (s : State) : s.draws s :=
  ⟨.refl s, fun _ => rfl, fun _ => rfl, fun _ hd => hd, id, fun _ _ => rfl, fun _ _ hsrc => ⟨hsrc, rfl⟩⟩

theorem State.draws.trans (h : s.draws t) (k : t.draws u) : s.draws u := by
  refine ⟨h.outside.trans k.outside, fun d => (k.present d).trans (h.present d), fun d => (k.blocked d).trans (h.blocked d),
    fun d hd => k.listed d (h.listed d hd), k.nodup ∘ h.nodup,
    fun d hd => (k.word d hd).trans (h.word d fun ht => hd (k.listed d ht)), fun hadopt d hsrc => ?_⟩
  obtain ⟨hsrc', hword⟩ := h.sourceless hadopt d hsrc
  exact (k.sourceless (by rw [h.outside.pu]; exact hadopt) d hsrc').imp id fun hu => hu.trans hword

/-- A request's end puts on the list what it has marked (R16). -/
theorem State.requests.mem_finish (h : s.requests v.st) (d : Dest) : d ∈ (v.finish tag).dt.updates.map UpdateEntry.dest ↔
    d ∈ s.dt.updates.map UpdateEntry.dest ∨ d ∈ v.marks := by
  have hupdates : v.st.dt.updates = s.dt.updates := by rw [h.dt]
  show d ∈ (v.marks.foldl (markUpdate tag) v.st.dt.updates).map UpdateEntry.dest ↔ _
  rw [mem_foldl_markUpdate_iff, hupdates]

theorem State.requests.draws (h : s.requests v.st) (k : s.begin.draws v) (tag : Option Nat)
    (hpresent : ∀ d : Dest, v.st.dt.records[d].isSome = true → s.dt.records[d].isSome = true)
    (hsourceless : s.pu.adoption ≠ none → ∀ d, (s.record d).intentSrc = .none →
      (v.st.record d).intentSrc = .none ∧ v.st.currentWord d = s.currentWord d) : s.draws (v.finish tag) := by
  have hupdates : v.st.dt.updates = s.dt.updates := by rw [h.dt]
  refine ⟨(h.finish tag).outside, fun d => ?_, k.blocked, fun d hd => (h.mem_finish d).2 (.inl hd), fun hnodup => ?_,
    fun d hd => k.word d fun hv => hd ((h.mem_finish d).2 (.inr hv)), hsourceless⟩
  · exact Bool.eq_iff_iff.2 ⟨hpresent d, h.present d⟩
  · show ((v.marks.foldl (markUpdate tag) v.st.dt.updates).map UpdateEntry.dest).Nodup
    rw [hupdates]
    exact foldl_markUpdate_nodup hnodup

/-- With no adoption running every record is present from the start. -/
theorem State.requests.draws_idle (h : s.requests v.st) (hidle : s.pu.adoption = none)
    (hall : ∀ d : Dest, s.dt.records[d].isSome = true) (k : s.begin.draws v) (tag : Option Nat) : s.draws (v.finish tag) :=
  h.draws k tag (fun d _ => hall d) fun hadopt => absurd hidle hadopt

theorem State.draws.setOccasion (h : s.draws t) (b : Bool) : s.draws { t with re := { t.re with occasionDue := b } } :=
  ⟨h.outside.trans ⟨rfl, rfl, rfl, rfl, rfl, rfl, rfl, rfl, rfl, rfl⟩, h.present, h.blocked, h.listed, h.nodup, h.word,
    h.sourceless⟩

theorem State.pictureLaw.draw (h : s.pictureLaw) (k : s.draws t) : t.pictureLaw := by
  have hwords := State.loadWord_of_mem k.outside.mem k.outside.pu
  refine ⟨fun d hd hlisted => ?_, k.nodup h.listed, fun a d w ha hstage => ?_⟩
  · rw [hwords, k.word d hlisted]
    exact h.image d ((k.present d).symm.trans hd) fun hs => hlisted (k.listed d hs)
  · rw [k.outside.pu] at ha
    obtain ⟨hsrc, hword⟩ := h.fixed a d w ha hstage
    obtain ⟨hsrc', hword'⟩ := k.sourceless (by rw [ha]; exact nofun) d hsrc
    exact ⟨hsrc', hword.trans hword'.symm⟩

theorem State.draws.showsMasks (k : s.draws t) : s.showsMasks t :=
  ⟨k.present, k.blocked, k.outside.masks, fun _ => State.loadWord_of_mem k.outside.mem k.outside.pu _, k.outside.pu⟩

theorem State.draws.imageLaw (k : s.draws t) (h : s.imageLaw) : t.imageLaw :=
  State.imageLaw_iff.2 ⟨h.picture.draw k, h.posts.congr (by rw [k.outside.cbp]) (by rw [k.outside.cbp]) (by rw [k.outside.pu]),
    h.headed.congr (by rw [k.outside.cbp]) (by rw [k.outside.cbp]) k.outside.masks k.outside.pu,
    h.mask.congr k.showsMasks (by rw [k.outside.cbp])⟩

end Draws

section Requests
variable {s : State} {w v : Work}

/-- Destinations not among `l` keep record and slot, those among it are marked: the request draws what it changes. -/
theorem Work.draws_of_marks {l : List Dest} (hblocked : ∀ d ∈ l, (v.st.record d).blocked = (w.st.record d).blocked)
    (hmarks : ∀ d, d ∈ v.marks ↔ d ∈ w.marks ∨ d ∈ l) (hrecord : ∀ d, d ∉ l → v.st.record d = w.st.record d)
    (hslot : ∀ d, d ∉ l → v.st.slotOf d = w.st.slotOf d) : w.draws v := by
  refine ⟨fun d => ?_, fun d hd => (hmarks d).2 (.inl hd), fun d hd => ?_⟩
  · by_cases hl : d ∈ l
    · exact hblocked d hl
    · rw [hrecord d hl]
  · have hl : d ∉ l := fun hl => hd ((hmarks d).2 (.inr hl))
    exact State.currentWord_congr (hrecord d hl) (hslot d hl)

/-! ### The change sets (R31, R75) -/

/-- A change of queued marks draws the destinations that it counts for. -/
theorem Work.requeues.draws {ds : List Dest} {f : Nat → Nat} (k : w.requeues v ds f) (hsorted : w.marks.Pairwise (· < ·)) :
    w.draws v := by
  refine Work.draws_of_marks (fun d _ => by rw [k.record]) (k.marks.mem hsorted) (fun d hd => ?_) fun d _ => ?_
  · rw [k.record, List.count_eq_zero.2 hd]
    rfl
  · obtain ⟨records, hframe⟩ := k.frame
    exact State.slotOf_congr (by rw [k.record]) fun n _ => by rw [hframe]

theorem State.enterQueue_draws (hidle : s.pu.adoption = none) (hall : ∀ d : Dest, s.dt.records[d].isSome = true)
    (label : BitVec 4) (es : List SetEntry) (tag : Nat) : s.draws (s.enterQueue label es tag) := by
  unfold State.enterQueue
  dsimp only
  set queued : State := { s with csa := { s.csa with queue := s.csa.queue ++ [{ label := label, entries := es }] } }
  have hwork := queued.begin.foldl_changeQueued (entryDests es) (· + 1)
  have hrequests : queued.requests (List.foldl (fun w d => w.changeQueued d (· + 1)) queued.begin (entryDests es)).st :=
    State.requests.foldl (fun w d => (State.reworks.refl w.st).changeQueued d _) _ (.refl queued)
  have hdraws := hrequests.draws_idle hidle hall (hwork.draws List.Pairwise.nil) (some tag)
  have hqueue : s.draws queued := ⟨⟨rfl, rfl, rfl, rfl, rfl, rfl, rfl, rfl, rfl, rfl⟩, fun _ => rfl, fun _ => rfl, fun _ hd => hd,
    id, fun _ _ => rfl, fun _ _ hsrc => ⟨hsrc, rfl⟩⟩
  exact (hqueue.trans hdraws).setOccasion _

end Requests

end Sys2Proof.Machine

/-! The arbiter, the pass and the swap mark what they change. -/

namespace Sys2Proof.Machine

section Occasion
variable {s : State} {w v : Work} {q : QueuedSet} {rest : List QueuedSet}

theorem Work.admissions.draws {l : List Dest} (k : w.admissions v l) (h : w.st.coreLaw) : w.draws v := by
  refine ⟨fun d => by rw [k.record], fun d hd => (k.marks d).2 (.inl hd), fun d hd => ?_⟩
  have hrecord : v.st.record d = w.st.record d := by
    by_cases hl : d ∈ l
    · have hwanted : (v.st.record d).wanted = true :=
        Bool.not_eq_false _ |>.mp fun hw => hd ((k.marks d).2 (.inr ⟨hl, hw⟩))
      exact (k.left d hl hwanted).2.1
    · exact k.others d hl
  refine State.currentWord_congr hrecord (State.slotOf_congr (by rw [hrecord]) fun n hn => k.held n ?_)
  obtain ⟨sl, hsl, -⟩ := h.slotNames d n hn
  rw [hsl]
  exact nofun

theorem Work.rejects.draws {e : SetEntry} {p : Port} {c : Dest} (k : w.rejects v q e p c) (hsorted : w.marks.Pairwise (· < ·)) :
    w.draws v := by
  refine Work.draws_of_marks (fun d _ => by rw [k.record]) (k.marks.mem hsorted) (fun d hd => ?_) fun d _ => ?_
  · rw [k.record, List.count_eq_zero.2 hd]
    rfl
  · exact State.slotOf_congr (by rw [k.record]) fun n _ => by rw [k.frame, State.emitPortHeld_eq]

theorem Work.admitsSet.draws (h : w.admitsSet q rest) : w.draws (w.applySet q) := by
  refine Work.draws_of_marks (fun d hd => ?_) h.marks.2 (fun d hd => h.unnamed hd) fun d hd => ?_
  · obtain ⟨e, he, rfl⟩ := List.mem_map.1 hd
    rw [(h.named he).1]
    rfl
  · have hintended : (w.intended q).st.slotOf d = w.st.slotOf d :=
      State.slotOf_congr (w.intended_kept h.legal d).1 fun n _ => by rw [(w.intended_intends h.legal).frame]; rfl
    have happlied : (w.applySet q).st.slotOf d = (w.settled q).st.slotOf d :=
      State.slotOf_congr (by rw [w.applySet_record]) fun n _ => by rw [(w.applySet_dt q).2.1]
    rw [happlied, (h.settles.others d hd).2, hintended]

/-- The arbiter marks the destinations of every head that it refuses or applies, and those that it admits (R75 to R79). -/
theorem Work.arbitrate_draws (fuel : Nat) {w : Work} (h : w.st.tableLaw) (hidle : w.st.pu.adoption = none)
    (hsorted : w.marks.Pairwise (· < ·)) : w.draws (Work.arbitrate fuel w) := by
  induction fuel generalizing w with
  | zero => exact .refl w
  | succ fuel ih =>
    cases hqueue : w.st.csa.queue with
    | nil =>
      rw [Work.arbitrate_empty h.inner hidle hqueue]
      exact (Work.foldl_admitWanted _ h.inner hidle w.st.wantedDests_sorted fun d => State.mem_wantedDests.1).draws h.inner.core
    | cons q rest =>
      cases hcheck : w.st.dynamicCheck q.entries with
      | some failed =>
        obtain ⟨e, p, c⟩ := failed
        have hreject := w.rejectSet_rejects q e p c
        have hpu : (w.rejectSet q e p c).st.pu.adoption = none := by
          rw [hreject.frame, State.emitPortHeld_eq]
          exact hidle
        rw [Work.arbitrate_rejects hqueue hcheck]
        exact (hreject.draws hsorted).trans (ih (hreject.tableLaw h hqueue) hpu (hreject.marks.sorted hsorted))
      | none =>
        by_cases hroom : w.st.neededSlots q.entries ≤ w.st.freeSlots.length
        · rw [Work.arbitrate_applies hqueue hcheck hroom]
          have happly : w.admitsSet q rest := ⟨h, hidle, hqueue, hcheck, hroom⟩
          exact happly.draws.trans
            (ih happly.tableLaw (by rw [(w.applySet_outside q).pu]; exact hidle) (happly.marks.1 hsorted))
        · rw [Work.arbitrate_waits hqueue hcheck (not_le.1 hroom)]
          exact .refl w

theorem State.occasion_draws (h : s.tableLaw) (hidle : s.pu.adoption = none)
    (hall : ∀ d : Dest, s.dt.records[d].isSome = true) : s.draws s.occasion := by
  have hrequests : s.requests (Work.arbitrate (s.csa.queue.length + 1) s.begin).st :=
    (State.requests.refl s).arbitrate (w := s.begin) _
  exact (hrequests.draws_idle hidle hall (Work.arbitrate_draws _ (w := s.begin) h hidle List.Pairwise.nil) none).setOccasion false

end Occasion

section Pass
variable {s t : State} {n : SlotNo} {sl : RampSlot} {maxStep left leaves : Nat}

/-- A visit that moves its slot or takes a port marks its destination (R68, R69). -/
theorem State.visits.draws (k : s.visits maxStep left sl t leaves) (h : s.tableLaw) (hs : s.re.slots[n] = some sl)
    (hall : ∀ d : Dest, s.dt.records[d].isSome = true) : s.draws t := by
  have hflags := (k.keeps h hs).1.flags
  cases k with
  | stays _ => exact .refl s
  | moves v _ r q hmake hmark hreworks _ =>
    have hidle : s.pu.adoption = none := h.inner.idle hs
    refine hreworks.torequests.draws_idle hidle hall ⟨fun d => (hflags d).2.2.1, nofun, fun d hd => ?_⟩ none
    have hne : d ≠ sl.dest := fun he => hd (he ▸ hmark)
    exact State.currentWord_congr (hmake.others d hne) (hmake.slotOf d hne)

theorem State.passWay_draws (h : s.tableLaw) (hall : ∀ d : Dest, s.dt.records[d].isSome = true) (w : Way) :
    s.draws (s.passWay w) := by
  unfold State.passWay
  dsimp only
  generalize s.pu.params.maxStep = maxStep
  generalize passBudget s.pu.params.budgetFloor s.pu.params.slewFraction s.re.loads[w] = left
  generalize s.slotsOfWay w = slots
  induction slots generalizing s left with
  | nil => exact .refl s
  | cons n slots ih =>
    rw [List.foldl_cons]
    cases hs : s.re.slots[n] with
    | none =>
      rw [State.visit_free hs]
      exact ih h hall left
    | some sl =>
      have hvisit := (State.visit_visits h.inner hs maxStep left).draws h hs hall
      exact hvisit.trans (ih (State.visit_keeps h hs maxStep left).1.table
        (fun d => (hvisit.present d).trans (hall d)) _)

end Pass

section Swap
variable {s : State} {d : Dest} {src : Source}

/-- A swap marks its destination and the holder that it displaces (R116). -/
theorem State.canSwap.draws (h : s.canSwap d src) (hall : ∀ d : Dest, s.dt.records[d].isSome = true) (attn : Attn) :
    s.draws (s.swapped d src attn) := by
  refine (Work.swap_requests s d src attn).torequests.draws_idle h.idle hall
    (Work.draws_of_marks (l := s.swapDests d src) (fun c hc => ?_) (fun c => ?_) (fun c hc => ?_) fun c hc => ?_) none
  · rw [Work.swap_record h, if_pos hc]
    obtain rfl | hother := State.mem_swapDests.1 hc
    · rw [State.swapLeft_own]
      rfl
    · obtain ⟨hne, -⟩ := h.displaced hother
      rw [State.swapLeft_other s src attn hne, DestRecord.displaced_record]
      rfl
  · rw [State.mem_swap_marks h]
    exact (or_iff_right List.not_mem_nil).symm
  · rw [Work.swap_record h, if_neg hc]
    rfl
  · rw [Work.swap_slotOf h, if_neg hc]
    rfl

end Swap

end Sys2Proof.Machine

/-! Isolation and release mark what they change, and build no record, also while an adoption has records yet to build (R8, R9,
R152). -/

namespace Sys2Proof.Machine

/-- One record alone is written, and it names no slot. -/
def Work.rewrites (w v : Work) (d : Dest) : Prop := ∃ r : DestRecord, r.slot = none ∧ v.st.dt.records = w.st.dt.records.set d (some r)

section Rewrites
variable {s t : State} {w v u : Work} {d : Dest}

theorem Work.rewrites.trans (h : w.rewrites v d) (k : v.rewrites u d) : w.rewrites u d := by
  obtain ⟨r, -, hr⟩ := h
  obtain ⟨q, hq, hrecords⟩ := k
  exact ⟨q, hq, by rw [hrecords, hr, Vector.set_set]⟩

theorem Work.rewrites.other (h : w.rewrites v d) {e : Dest} (he : e ≠ d) : v.st.dt.records[e] = w.st.dt.records[e] := by
  obtain ⟨r, -, hr⟩ := h
  rw [hr]
  exact Vector.getElem_set_ne _ _ fun hval => he (Fin.ext hval.symm)

theorem Work.rewrites.slotless (h : w.rewrites v d) (hslot : ∀ e, (w.st.record e).slot = none) (e : Dest) :
    (v.st.record e).slot = none := by
  by_cases he : e = d
  · obtain ⟨r, hnone, hr⟩ := h
    subst he
    have hset : v.st.dt.records[e] = some r := by rw [hr]; exact Vector.getElem_set_self _
    rw [State.record, hset]
    exact hnone
  · rw [State.record, h.other he]
    exact hslot e

theorem Work.setRecord_rewrites (w : Work) {r : DestRecord} (hslot : r.slot = none) : w.rewrites (w.setRecord d r) d :=
  ⟨r, hslot, rfl⟩

theorem Work.rewrites.mark (h : w.rewrites v d) (e : Dest) : w.rewrites (v.mark e) d := h

theorem Work.setRecord_slot (w : Work) {r : DestRecord} (hslot : r.slot = none) : ((w.setRecord d r).st.record d).slot = none :=
  (congrArg DestRecord.slot (State.record_setRecord_same w.st d r)).trans hslot

theorem Work.writeCurrent_rewrites (hslot : (w.st.record d).slot = none) (src : Source) (attn : Attn) :
    w.rewrites (w.writeCurrent d src attn) d := by
  refine ⟨{ w.st.record d with curSrc := src, curAttn := attn }, hslot, ?_⟩
  simp only [Work.writeCurrent, Work.mark_st, State.takeHolder_records, State.clearHolder_records, State.reportLoad_dt]
  rfl

theorem Work.flagForced_rewrites (hslot : (w.st.record d).slot = none) (b : Bool) : w.rewrites (w.flagForced d b) d :=
  Work.rewrites.mark (w.setRecord_rewrites (r := { w.st.record d with forced := b }) hslot) d

theorem Work.forceDest_rewrites (hslot : (w.st.record d).slot = none) : w.rewrites (w.forceDest d) d := by
  have hforced : w.rewrites (w.setRecord d { w.st.record d with forced := true }) d := w.setRecord_rewrites hslot
  have hnone : ((w.setRecord d { w.st.record d with forced := true }).st.record d).slot = none := w.setRecord_slot hslot
  unfold Work.forceDest Work.cancelSlot
  rw [hnone]
  dsimp only
  generalize w.setRecord d { w.st.record d with forced := true } = v at hforced hnone
  have hunwanted : v.rewrites (v.setRecord d { v.st.record d with wanted := false }) d := v.setRecord_rewrites hnone
  exact (hforced.trans hunwanted).trans
    (Work.writeCurrent_rewrites (v.setRecord_slot (r := { v.st.record d with wanted := false }) hnone) _ _)

theorem Work.unforceDest_rewrites (hslot : (w.st.record d).slot = none) : w.rewrites (w.unforceDest d) d := by
  have hfree : w.rewrites ((w.setRecord d { w.st.record d with forced := false }).mark d) d := w.setRecord_rewrites hslot
  have hnone : (((w.setRecord d { w.st.record d with forced := false }).mark d).st.record d).slot = none := by
    rw [Work.mark_st]
    exact w.setRecord_slot hslot
  unfold Work.unforceDest
  dsimp only
  rw [hnone]
  generalize (w.setRecord d { w.st.record d with forced := false }).mark d = v at hfree hnone
  dsimp only
  split
  · exact hfree.trans (v.setRecord_rewrites hnone)
  · unfold Work.reevaluateDrop
    dsimp only
    split
    · exact hfree
    · exact hfree.trans (Work.writeCurrent_rewrites hnone _ _)

/-- Where no destination has a slot, such requests on the destinations of a list write no other record. -/
theorem Work.foldl_rewrites {f : Work → Dest → Work} (hf : ∀ (w : Work) (d : Dest), (∀ e, (w.st.record e).slot = none) →
    w.rewrites (f w d) d) (l : List Dest) {w : Work} (hslot : ∀ e, (w.st.record e).slot = none) (e : Dest) (he : e ∉ l) :
    (l.foldl f w).st.dt.records[e] = w.st.dt.records[e] := by
  induction l generalizing w with
  | nil => rfl
  | cons d l ih =>
    have hfirst := hf w d hslot
    rw [List.foldl_cons, ih (hfirst.slotless hslot) fun hl => he (List.mem_cons_of_mem d hl)]
    exact hfirst.other fun hed => he (hed ▸ List.mem_cons_self)

theorem State.present_of_record (h : s.record d ≠ blankRecord) : s.dt.records[d].isSome = true := by
  cases hd : s.dt.records[d] with
  | some r => rfl
  | none => exact absurd (by rw [State.record, hd]; rfl) h

theorem State.present_of_fed {k : Way} (h : d ∈ s.fedFrom k) : s.dt.records[d].isSome = true :=
  State.present_of_record fun hblank => absurd ((mem_fedFrom.1 h).symm.trans (congrArg (fun r : DestRecord => r.intentSrc.feed) hblank))
    nofun

theorem State.draws_of_records (hout : s.keepsOutsideTable t) (hrecords : t.dt.records = s.dt.records)
    (hupdates : t.dt.updates = s.dt.updates) (hslots : t.re.slots = s.re.slots) : s.draws t :=
  have hword := State.currentWord_of_records hrecords hslots
  ⟨hout, fun d => by rw [hrecords], fun d => by rw [State.record_congr hrecords], fun d hd => by rw [hupdates]; exact hd,
    fun hn => by rw [hupdates]; exact hn, fun d _ => hword d, fun _ d hsrc => ⟨by rw [State.record_congr hrecords]; exact hsrc, hword d⟩⟩

theorem State.setIsolated_draws (s : State) (k : Way) (b : Bool) : s.draws (s.setIsolated k b) :=
  State.draws_of_records ⟨rfl, rfl, rfl, rfl, rfl, rfl, rfl, rfl, rfl, rfl⟩ rfl rfl rfl

end Rewrites

section Requests
variable {s : State} {k : Way}

/-- A request on the destinations fed from a way, each marked, draws what it changes. -/
theorem Work.spans.draws {b lift : Bool} {v : Work} {record : Dest → DestRecord} {content : Dest → Option RampSlot}
    {cut ended : Nat → Nat} (hspans : (s.setIsolated k b).begin.spans v (s.fedFrom k) record content lift cut ended)
    (hblocked : ∀ d, (record d).blocked = (s.record d).blocked)
    (hpresent : ∀ d : Dest, d ∉ s.fedFrom k → v.st.dt.records[d].isSome = true → s.dt.records[d].isSome = true)
    (tag : Option Nat) : s.draws (v.finish tag) := by
  refine (s.setIsolated_draws k b).trans (hspans.reworks.torequests.draws
    (Work.draws_of_marks (fun d hd => ?_) hspans.marks hspans.others hspans.slotOf) tag (fun d hd => ?_) fun _ d hsrc => ?_)
  · rw [hspans.record d hd]
    exact hblocked d
  · by_cases hfed : d ∈ s.fedFrom k
    · exact State.present_of_fed hfed
    · exact hpresent d hfed hd
  · have hfed : d ∉ s.fedFrom k := fun hfed => by
      have hfeed := mem_fedFrom.1 hfed
      rw [show (s.record d).intentSrc = .none from hsrc] at hfeed
      cases hfeed
    exact ⟨by rw [hspans.others d hfed]; exact hsrc, State.currentWord_congr (hspans.others d hfed) (hspans.slotOf d hfed)⟩

theorem State.tableLaw.foldl_present (h : s.tableLaw) (hall : s.pu.adoption = none → ∀ d : Dest, s.dt.records[d].isSome = true)
    {f : Work → Dest → Work} (hf : ∀ (w : Work) (d : Dest), (∀ e, (w.st.record e).slot = none) → w.rewrites (f w d) d)
    {l : List Dest} {b : Bool} {d : Dest} (hd : d ∉ l)
    (hv : (l.foldl f (s.setIsolated k b).begin).st.dt.records[d].isSome = true) : s.dt.records[d].isSome = true := by
  by_cases hidle : s.pu.adoption = none
  · exact hall hidle d
  · rwa [Work.foldl_rewrites hf l (w := (s.setIsolated k b).begin) (h.adopts hidle).slot d hd] at hv

theorem State.isolate_draws (h : s.tableLaw) (hall : s.pu.adoption = none → ∀ d : Dest, s.dt.records[d].isSome = true)
    (k : Way) : s.draws (s.isolate k) := by
  obtain ⟨v, hv, hspans⟩ := s.isolate_spans h.inner k
  have hrecords : v.st.dt.records = (s.isolate k).dt.records := (congrArg (fun u : State => u.dt.records) hv).symm
  rw [hv]
  refine hspans.draws (fun d => ?_) (fun d hd hpresent => ?_) none
  · unfold DestRecord.forcedDark
    split <;> rfl
  · rw [hrecords] at hpresent
    refine h.foldl_present hall (fun w e hslot => ?_) hd hpresent
    split
    · exact Work.forceDest_rewrites (hslot e)
    · exact Work.flagForced_rewrites (hslot e) true

theorem State.release_draws (h : s.tableLaw) (hall : s.pu.adoption = none → ∀ d : Dest, s.dt.records[d].isSome = true)
    (k : Way) (tag : Option Nat) : s.draws (s.release k tag) := by
  obtain ⟨v, hv, hspans⟩ := s.release_spans h.inner k tag
  have hrecords : v.st.dt.records = (s.release k tag).dt.records := (congrArg (fun u : State => u.dt.records) hv).symm
  rw [hv]
  refine hspans.draws (fun d => ?_) (fun d hd hpresent => ?_) tag
  · unfold DestRecord.unforced DestRecord.released
    split
    · dsimp only
      split <;> rfl
    · rfl
  · rw [hrecords] at hpresent
    refine h.foldl_present hall (fun w e hslot => ?_) hd hpresent
    split
    · exact Work.unforceDest_rewrites (hslot e)
    · exact Work.flagForced_rewrites (hslot e) false

end Requests

end Sys2Proof.Machine

/-! Path writes and mask writes (R23 to R31, R87). -/

namespace Sys2Proof.Machine

section PathWrite
variable {s : State}

theorem State.imageLaw.closeSet (h : s.imageLaw) (hidle : s.pu.adoption = none)
    (hall : ∀ d : Dest, s.dt.records[d].isSome = true) (es : List OpenEntry) (label : BitVec 4) (trial : Bool) (tag : Nat) :
    (s.closeSet es label trial tag).imageLaw := by
  cases hcheck : staticChecks [] es with
  | some failed =>
    rw [State.closeSet_failed hcheck]
    exact h.emit _ _ _ _ _
  | none =>
    rw [State.closeSet_passed hcheck]
    split
    · exact (s.trial_beside _ _).imageLaw h
    · exact (State.enterQueue_draws hidle hall _ _ _).imageLaw h

/-- A path word taken into the open set, with the close that it may make, leaves memory in step with the table. -/
theorem State.imageLaw.takePathWord (h : s.imageLaw) (hidle : s.pu.adoption = none)
    (hall : ∀ d : Dest, s.dt.records[d].isSome = true) (d : Dest) (merged : Word) (close : Bool) (tag : Nat) :
    (s.takePathWord d merged close tag).imageLaw := by
  have hempty : s.emptyOpen.imageLaw := h.beside rfl rfl rfl rfl rfl rfl rfl rfl rfl
  by_cases hfits : (openWord s.csa.openSet d).isSome = true ∨ s.csa.openSet.length < 4
  · rw [State.takePathWord_room hfits]
    split
    · exact hempty.closeSet hidle hall _ _ _ _
    · exact h.beside rfl rfl rfl rfl rfl rfl rfl rfl rfl
  · obtain ⟨hnone, hfull⟩ := not_or.1 hfits
    rw [State.takePathWord_overflow (Option.not_isSome_iff_eq_none.1 hnone) (not_lt.1 hfull)]
    exact hempty.emit _ _ _ _ _

end PathWrite

/-! ### The bits of a mask word and their destinations (R83) -/

section Bits
variable {m : Fin 12} {b : Fin 32} {d : Dest}

theorem maskWordOf_maskDest (m : Fin 12) (b : Fin 32) : maskWordOf (maskDest m b) = m := by
  refine Fin.ext ?_
  show (32 * m.val + b.val) / 32 % 12 = m.val
  omega

theorem maskBitOf_maskDest (m : Fin 12) (b : Fin 32) : maskBitOf (maskDest m b) = b.val := by
  show (32 * m.val + b.val) % 32 = b.val
  omega

/-- A line destination is that of its own bit. -/
theorem maskDest_own (hline : isLine d = true) : maskDest (maskWordOf d) ⟨maskBitOf d, Nat.mod_lt _ (by decide)⟩ = d := by
  have hlt : d.val < 384 := of_decide_eq_true hline
  refine Fin.ext ?_
  show 32 * (d.val / 32 % 12) + d.val % 32 = d.val
  omega

theorem State.maskBit_maskDest (s : State) (m : Fin 12) (b : Fin 32) :
    s.maskBit (maskDest m b) = (s.maskWord m).getLsbD b.val := by
  rw [State.maskBit, isLine_maskDest, maskWordOf_maskDest, maskBitOf_maskDest, Bool.true_and]

end Bits

/-! ### The mask write in handling (R87, R88) -/

section MaskWrite
variable {s t : State} {m : Fin 12} {b : Fin 32} {todo rest : List (Fin 32)}

theorem State.blockDue_masking {d : Dest} : (s.setHead (.masking m todo)).blockDue d ↔ ∃ b ∈ todo, maskDest m b = d := by
  constructor
  · rintro ⟨n, b, l, hhead, hb, hd⟩
    obtain ⟨rfl, rfl⟩ := HeadStage.masking.inj hhead
    exact ⟨b, hb, hd⟩
  · rintro ⟨b, hb, hd⟩
    exact ⟨m, b, todo, rfl, hb, hd⟩

theorem State.maskInHand_masking {n : Fin 12} : (s.setHead (.masking m todo)).maskInHand n ↔ n = m := by
  constructor
  · rintro (⟨_, hhead⟩ | ⟨_, _, hhead, _⟩)
    · exact (HeadStage.masking.inj hhead).1.symm
    · cases hhead
  · rintro rfl
    exact .inl ⟨todo, rfl⟩

theorem State.masks_some (h : s.masks[m].isSome = true) : s.masks[m] = some (s.maskWord m) := by
  obtain ⟨w, hw⟩ := Option.isSome_iff_exists.1 h
  rw [State.maskWord, hw]
  rfl

/-- At its next request or at its memory write: the mask write is in handling all the same. -/
theorem State.maskLaw.atStage (h : (s.setHead (.masking m todo)).maskLaw) : (s.setHead (s.maskStage m todo)).maskLaw := by
  have hsome : s.masks[m].isSome = true := h.masking m todo rfl
  cases todo with
  | cons b rest => exact h
  | nil =>
    refine h.carry (State.showsMasks_of_records rfl rfl (fun _ => rfl) rfl) (fun d hd => ?_) (fun n hn => ?_) nofun
    · obtain ⟨b, hb, -⟩ := State.blockDue_masking.1 hd
      exact absurd hb List.not_mem_nil
    · obtain rfl := State.maskInHand_masking.1 hn
      exact .inr ⟨_, s.maskWord n, rfl, State.masks_some hsome, List.mem_singleton_self _⟩

theorem State.headLaw_atStage (hidle : s.pu.adoption = none) (hsome : s.masks[m].isSome = true) (hqueue : s.cbp.queue ≠ [])
    (todo : List (Fin 32)) : (s.setHead (s.maskStage m todo)).headLaw := by
  cases todo with
  | cons b rest => exact State.headLaw_of_stage nofun (fun _ => hqueue) nofun
  | nil =>
    refine ⟨fun l restart hwriting acc hacc => ?_, fun _ => hqueue, nofun⟩
    obtain ⟨rfl, -⟩ := HeadStage.writing.inj hwriting
    obtain rfl := List.mem_singleton.1 hacc
    exact ⟨State.wordWrite_sparesImage (by omega) _, .inr ⟨hidle, m, s.maskWord m, State.masks_some hsome, rfl⟩⟩

theorem State.imageLaw.atStage (h : (s.setHead (.masking m todo)).imageLaw) (hidle : s.pu.adoption = none) :
    (s.setHead (s.maskStage m todo)).imageLaw :=
  State.imageLaw_iff.2 ⟨h.picture.congr rfl rfl rfl (fun _ => rfl) rfl, h.posts.congr rfl rfl rfl,
    State.headLaw_atStage hidle (h.mask.masking m todo rfl) (h.taken nofun) todo, h.mask.atStage⟩

/-- A blocked-flag request gives the flag, marks its destination and changes nothing else that memory follows. -/
structure State.blocks (s t : State) (d : Dest) (value : Bool) : Prop where
  outside : s.keepsOutsideTable t
  own : (t.record d).blocked = value
  others : ∀ e, e ≠ d → t.record e = s.record e
  present : ∀ e : Dest, t.dt.records[e].isSome = true
  word : ∀ e, e ≠ d → t.currentWord e = s.currentWord e
  listed : ∀ e, e ∈ t.dt.updates.map UpdateEntry.dest ↔ e ∈ s.dt.updates.map UpdateEntry.dest ∨ e = d
  nodup : (s.dt.updates.map UpdateEntry.dest).Nodup → (t.dt.updates.map UpdateEntry.dest).Nodup

theorem State.blockRequest_blocks (h : s.tableLaw) (hidle : s.pu.adoption = none)
    (hall : ∀ d : Dest, s.dt.records[d].isSome = true) (tag : Nat) (d : Dest) (value : Bool) :
    s.blocks (s.blockRequest tag d value) d value := by
  obtain ⟨hmake, hmark⟩ := Work.changeBlocked_makes (w := s.begin) h.inner.core h.inner.listed (State.isBuilt_of_idle hidle d)
    (h.inner.waits d) value
  have hrequests : s.requests (s.begin.changeBlocked d value).st :=
    ((State.reworks.refl s).changeBlocked (w := s.begin) d value).torequests
  refine ⟨(s.blockRequest_requested tag d value).outside, ?_, hmake.others,
    fun e => (s.blockRequest_requested tag d value).present e (hall e),
    fun e he => State.currentWord_congr (hmake.others e he) (hmake.slotOf e he), fun e => ?_, fun hn => ?_⟩
  · show ((s.begin.changeBlocked d value).st.record d).blocked = value
    rw [hmake.record, DestRecord.reevaluated_record]
  · refine (hrequests.mem_finish e).trans (or_congr_right ⟨fun he => (hmake.only e he).resolve_left List.not_mem_nil, ?_⟩)
    rintro rfl
    exact hmark
  · obtain ⟨ds, hds⟩ := (s.blockRequest_requested tag d value).updates
    rw [hds]
    exact foldl_markUpdate_nodup hn

theorem State.blocks.pictureLaw {d : Dest} {value : Bool} (k : s.blocks t d value) (h : s.pictureLaw) (hidle : s.pu.adoption = none)
    (hall : ∀ d : Dest, s.dt.records[d].isSome = true) : t.pictureLaw := by
  refine ⟨fun e _ hlisted => ?_, k.nodup h.listed, fun a _ _ ha => ?_⟩
  · have hs : e ∉ s.dt.updates.map UpdateEntry.dest := fun hs => hlisted ((k.listed e).2 (.inl hs))
    rw [State.loadWord_of_mem k.outside.mem k.outside.pu, k.word e fun he => hlisted ((k.listed e).2 (.inr he))]
    exact h.image e (hall e) hs
  · rw [k.outside.pu, hidle] at ha
    cases ha

/-- The request for a changed bit leaves that bit's destination answered for, and the others still due. -/
theorem State.blocks.maskLaw (k : s.blocks t (maskDest m b) ((s.maskWord m).getLsbD b.val))
    (h : (s.setHead (.masking m (b :: rest))).maskLaw) (hidle : s.pu.adoption = none)
    (hall : ∀ d : Dest, s.dt.records[d].isSome = true) : (t.setHead (.masking m rest)).maskLaw := by
  have hmasks := k.outside.masks
  have hpu := k.outside.pu
  refine ⟨fun hrun _ => ⟨?_, k.present⟩, fun a ha => ?_, fun d _ hline => ?_, fun n w hw hfree => ?_, fun n l hhead => ?_⟩
  · show ∀ n : Fin 12, t.masks[n].isSome = true
    rw [hmasks]
    have hrun : s.pu.power = .running := hpu ▸ hrun
    exact (h.present hrun hidle).1
  · rw [show (t.setHead (.masking m rest)).pu = s.pu from hpu, hidle] at ha
    cases ha
  · show t.masks[maskWordOf d].isSome = true ∧ (_ → (t.record d).blocked = t.maskBit d)
    obtain ⟨hsome, hflag⟩ := h.flags d (hall d) hline
    rw [hmasks, State.maskBit_of_masks hmasks]
    refine ⟨hsome, fun hdue => ?_⟩
    by_cases hd : d = maskDest m b
    · subst hd
      rw [k.own, State.maskBit_maskDest]
    · rw [k.others d hd]
      refine hflag fun hs => hdue ?_
      obtain ⟨c, hc, hcd⟩ := State.blockDue_masking.1 hs
      refine State.blockDue_masking.2 ⟨c, (List.mem_cons.1 hc).resolve_left ?_, hcd⟩
      rintro rfl
      exact hd hcd.symm
  · refine (State.loadWord_of_mem (t := t) (s := s) k.outside.mem hpu _).trans (h.words n w ?_ fun hs => hfree ?_)
    · exact (congrArg (fun v : Vector (Option Word) 12 => v[n]) hmasks).symm.trans hw
    · exact State.maskInHand_masking.2 (State.maskInHand_masking.1 hs)
  · obtain ⟨rfl, -⟩ := HeadStage.masking.inj hhead
    show t.masks[m].isSome = true
    rw [hmasks]
    exact h.masking m _ rfl

/-- A mask write sends its next request, or, after the last, goes on to its memory write. -/
theorem State.imageLaw.blockNext (h : (s.setHead (.masking m todo)).imageLaw) (htable : s.tableLaw)
    (hidle : s.pu.adoption = none) (hall : ∀ d : Dest, s.dt.records[d].isSome = true) (tag : Nat) :
    (s.blockNext tag m todo).imageLaw := by
  cases todo with
  | nil => exact h.atStage hidle
  | cons b rest =>
    have k := State.blockRequest_blocks htable hidle hall tag (maskDest m b) ((s.maskWord m).getLsbD b.val)
    have hstage : ∀ u : State, u.masks = s.masks → u.pu = s.pu → s.maskStage m rest = u.maskStage m rest := fun u hm hp => by
      rw [State.maskStage_eq, State.maskStage_eq, State.maskWord_of_masks hm, hp]
    rw [State.blockNext, hstage _ k.outside.masks k.outside.pu]
    generalize s.blockRequest tag (maskDest m b) ((s.maskWord m).getLsbD b.val) = t at k ⊢
    refine State.imageLaw.atStage (State.imageLaw_iff.2 ⟨?_, ?_, ?_, k.maskLaw h.mask hidle hall⟩) (by rw [k.outside.pu]; exact hidle)
    · have hpicture : s.pictureLaw := h.picture.congr rfl rfl rfl (fun _ => rfl) rfl
      exact (k.pictureLaw hpicture hidle hall).congr rfl rfl rfl (fun _ => rfl) rfl
    · have hposts : s.postsLaw := h.posts.congr rfl rfl rfl
      have hnext : t.postsLaw := hposts.congr (by rw [k.outside.cbp]) (by rw [k.outside.cbp]) (by rw [k.outside.pu])
      exact hnext.congr rfl rfl rfl
    · refine State.headLaw_of_stage nofun (fun _ => ?_) nofun
      show t.cbp.queue ≠ []
      rw [k.outside.cbp]
      exact h.taken nofun

/-- The MU takes a mask write: the bits that change are due, the others stand as they did. -/
theorem State.imageLaw.takeMask (h : s.imageLaw) (hwaiting : s.cbp.head = .waiting) (hqueue : s.cbp.queue ≠ [])
    (hsome : s.masks[m].isSome = true) (new : Word) :
    ((s.setMask m new).setHead (.masking m (changedBits (s.maskWord m) new))).imageLaw := by
  have hcalm : s.calm := State.calm_of_waiting hwaiting
  have hset : ∀ n : Fin 12, (s.setMask m new).masks[n] = if m = n then some new else s.masks[n] :=
    fun n => getElem_set_ite s.masks m n (some new)
  have hpresent : ∀ n : Fin 12, s.masks[n].isSome = true → (s.setMask m new).masks[n].isSome = true := fun n hn => by
    rw [hset]
    split
    · rfl
    · exact hn
  refine State.imageLaw_iff.2 ⟨h.picture.congr rfl rfl rfl (fun _ => rfl) rfl, h.posts.congr rfl rfl rfl,
    State.headLaw_of_stage nofun (fun _ => hqueue) nofun, ⟨fun hrun hidle => ?_, fun a ha => ?_, fun d hd hline => ?_,
      fun n w hw hfree => ?_, fun n l hhead => ?_⟩⟩
  · exact ⟨fun n => hpresent n ((h.mask.present hrun hidle).1 n), (h.mask.present hrun hidle).2⟩
  · exact ⟨fun n hn => hpresent n ((h.mask.rebuilt a ha).1 n hn), (h.mask.rebuilt a ha).2⟩
  · obtain ⟨hmask, hflag⟩ := h.mask.flags d hd hline
    refine ⟨hpresent _ hmask, fun hdue => (hflag (hcalm.notDue d)).trans ?_⟩
    have hmaskWord : (s.setMask m new).maskWord (maskWordOf d) = if m = maskWordOf d then new else s.maskWord (maskWordOf d) := by
      rw [State.maskWord, hset]
      split <;> rfl
    show s.maskBit d = (s.setMask m new).maskBit d
    rw [State.maskBit, State.maskBit, hmaskWord]
    split
    · next hm =>
      have hlt : maskBitOf d < 32 := Nat.mod_lt _ (by decide)
      by_contra hne
      refine hdue (State.blockDue_masking.2 ⟨⟨maskBitOf d, hlt⟩, (mem_changedBits _ _ _).2 fun heq => hne ?_, ?_⟩)
      · rw [← hm]
        exact congrArg _ heq.symm
      · rw [hm]
        exact maskDest_own hline
    · rfl
  · have hne : m ≠ n := fun he => hfree (State.maskInHand_masking.2 he.symm)
    refine h.mask.words n w ?_ (hcalm.free n)
    rw [← hw]
    exact ((hset n).trans (if_neg hne)).symm
  · obtain ⟨rfl, -⟩ := HeadStage.masking.inj hhead
    exact hpresent m hsome

end MaskWrite

end Sys2Proof.Machine

/-! The restart: what it marks, and that it builds no record (R153). -/

namespace Sys2Proof.Machine

section Restart
variable {s : State} {w : Work} {d : Dest}

theorem Work.foldl_freeSlot_free (hfree : ∀ n : SlotNo, w.st.re.slots[n] = none) (l : List SlotNo) :
    l.foldl Work.freeSlot w = w := by
  induction l with
  | nil => rfl
  | cons n l ih =>
    have hn : w.freeSlot n = w := by unfold Work.freeSlot; rw [hfree n]
    rw [List.foldl_cons, hn, ih]

/-- Only a record that is there has a wanted flag to clear. -/
theorem Work.foldl_clearWanted_present (l : List Dest)
    (h : (l.foldl (fun w d => if (w.st.record d).wanted then w.clearWanted d else w) w).st.dt.records[d].isSome = true) :
    w.st.dt.records[d].isSome = true := by
  induction l generalizing w with
  | nil => exact h
  | cons c l ih =>
    have hnext := ih h
    dsimp only at hnext
    split at hnext
    · next hwanted =>
      by_cases hd : d = c
      · subst hd
        exact State.present_of_record fun hblank => absurd ((congrArg DestRecord.wanted hblank).symm.trans hwanted) nofun
      · have hsame : (w.clearWanted c).st.dt.records[d] = w.st.dt.records[d] :=
          Vector.getElem_set_ne c.isLt d.isLt fun hval => hd (Fin.ext hval.symm)
        rwa [hsame] at hnext
    · exact hnext

theorem Work.finish_awaits_records (v : Work) :
    (((v.finish none).stopTicks.refuseListed).awaitAdoption).dt.records = v.st.dt.records :=
  (congrArg (fun u : State => u.dt.records) (Work.finish_awaits v) :)

theorem State.carryOutRestart_records (s : State) :
    s.carryOutRestart.dt.records = s.abortOpen.begin.restart.st.dt.records := Work.finish_awaits_records _

theorem Work.setsCleared_noQueue (h : w.st.csa.queue = []) :
    w.setsCleared.st.dt = w.st.dt ∧ w.setsCleared.st.re = w.st.re := by
  have habort : w.abortQueue w.st.csa.queue = w := by rw [h]; rfl
  unfold Work.setsCleared
  rw [habort]
  dsimp only
  rw [foldl_raises State.emitAbandoned_eq]
  exact ⟨rfl, rfl⟩

/-- The restart builds no record: with an adoption running there is no slot and no queued set, and otherwise every record is
there. -/
theorem State.tableLaw.restart_present (h : s.tableLaw)
    (hall : s.pu.adoption = none → ∀ d : Dest, s.dt.records[d].isSome = true)
    (hd : s.carryOutRestart.dt.records[d].isSome = true) : s.dt.records[d].isSome = true := by
  by_cases hidle : s.pu.adoption = none
  · exact hall hidle d
  · have hadopts := h.adopts hidle
    have habort : s.abortOpen.dt = s.dt ∧ s.abortOpen.re = s.re ∧ s.abortOpen.csa.queue = s.csa.queue := by
      rw [State.abortOpen_eq]
      exact ⟨rfl, rfl, rfl⟩
    obtain ⟨hdt, hre, hqueue⟩ := habort
    obtain ⟨hkeptDt, hkeptRe⟩ := Work.setsCleared_noQueue (w := s.abortOpen.begin) (hqueue.trans hadopts.queue)
    have hfree : ∀ n : SlotNo, s.abortOpen.begin.setsCleared.st.re.slots[n] = none := fun n => by
      rw [hkeptRe, show s.abortOpen.begin.st.re = s.re from hre]
      exact hadopts.slots n
    rw [State.carryOutRestart_records, Work.restart_eq, Work.foldl_freeSlot_free hfree] at hd
    have hkept := Work.foldl_clearWanted_present _ hd
    rwa [hkeptDt, show s.abortOpen.begin.st.dt = s.dt from hdt] at hkept

/-- An untagged marking, as a walk down the list. -/
theorem State.marksUpdates.untagged {t : State} {hit : Dest → Bool} (k : s.marksUpdates t none hit) :
    t.dt.updates = (allDests.filter hit).foldl (markUpdate none) s.dt.updates := by
  rw [k (.inl rfl), foldl_markUpdate_eq ((allDests_sorted.imp fun h => h.ne).filter _) (.inl rfl)]

theorem State.marksUpdates.listed_iff {t : State} {hit : Dest → Bool} (k : s.marksUpdates t none hit) :
    d ∈ t.dt.updates.map UpdateEntry.dest ↔ d ∈ s.dt.updates.map UpdateEntry.dest ∨ hit d = true := by
  rw [k.untagged, mem_foldl_markUpdate_iff, List.mem_filter, and_iff_right (mem_allDests d)]

theorem State.marksUpdates.nodup {t : State} {hit : Dest → Bool} (k : s.marksUpdates t none hit)
    (h : (s.dt.updates.map UpdateEntry.dest).Nodup) : (t.dt.updates.map UpdateEntry.dest).Nodup := by
  rw [k.untagged]
  exact foldl_markUpdate_nodup h

/-- The list that a restart leaves: the destinations listed before, and those that had a mark or a slot. -/
theorem State.restarts.listed_iff {t : State} (k : s.restarts t) : d ∈ t.dt.updates.map UpdateEntry.dest ↔
    d ∈ s.dt.updates.map UpdateEntry.dest ∨ (s.record d).slot ≠ none ∨ (s.record d).queued ≠ 0 := by
  rw [k.marks.listed_iff, Bool.or_eq_true, bne_iff_ne, Option.isSome_iff_ne_none]

/-- A destination off the list had neither mark nor slot, so the restart leaves its current word. -/
theorem State.restarts.word {t : State} (k : s.restarts t) (hlisted : d ∉ t.dt.updates.map UpdateEntry.dest) :
    t.currentWord d = s.currentWord d := by
  obtain ⟨-, hor⟩ := not_or.1 fun h => hlisted (k.listed_iff.2 h)
  obtain ⟨hslot, hqueued⟩ := not_or.1 hor
  have hslot := not_not.1 hslot
  have hqueued := not_not.1 hqueued
  have hphase : s.slotPhase (s.record d) = none := by rw [State.slotPhase, hslot]
  have hphase' : t.slotPhase (t.record d) = none := by rw [State.slotPhase, k.record]
  unfold State.currentWord State.stateCode
  rw [hphase, hphase', k.record, hqueued]

/-- The restart carried out leaves the law: every destination that it changes is on the list, and no mask write is in
handling. -/
theorem State.tableLaw.restart_imageLaw (h : s.tableLaw) (hpicture : s.pictureLaw) (hposts : s.postsLaw)
    (hmasks : s.masksSettled) (hqueue : s.cbp.queue ≠ [])
    (hall : s.pu.adoption = none → ∀ d : Dest, s.dt.records[d].isSome = true) : s.carryOutRestart.imageLaw := by
  have k := State.carryOutRestart_restarts h.inner.core h.marks
  have hpresent := fun d : Dest => h.restart_present (d := d) hall
  generalize s.carryOutRestart = t at k hpresent
  have hmem : t.mem = s.mem := (congrArg State.mem k.frame :)
  have hparams : t.pu.params = s.pu.params := (congrArg (fun u : State => u.pu.params) k.frame :)
  have hcbp : t.cbp = { s.cbp with lock := .adopting, head := .restarting } := (congrArg State.cbp k.frame :)
  have hmask : t.masks = s.masks := (congrArg State.masks k.frame :)
  have hadopt : t.pu.adoption = some { stage := .drain, adopted := 0, fixed := 0 } :=
    (congrArg (fun u : State => u.pu.adoption) k.frame :)
  have hword : ∀ offset, t.loadWord offset = s.loadWord offset := fun offset => by
    rw [State.loadWord, State.loadWord, hmem, hparams]
  have hhead : t.cbp.head = .restarting := by rw [hcbp]
  refine State.imageLaw_iff.2 ⟨⟨fun d hd hlisted => ?_, k.marks.nodup hpicture.listed, fun a d w ha hstage => ?_⟩,
    hposts.congr (by rw [hcbp]) (by rw [hcbp]) hparams,
    State.headLaw_of_stage (by rw [hhead]; exact nofun) (fun _ => by rw [hcbp]; exact hqueue) (by rw [hhead]; exact nofun),
    State.masksSettled.maskLaw_of_head ⟨fun _ hidle => ?_, fun a ha => ?_, fun d hd hline => ?_, fun m w hw => ?_⟩
      (by rw [hhead]; exact nofun)⟩
  · rw [hword, k.word hlisted]
    exact hpicture.image d (hpresent d hd) fun hs => hlisted (k.listed_iff.2 (.inl hs))
  · obtain rfl := Option.some.inj (hadopt.symm.trans ha)
    cases hstage
  · exact absurd (hadopt.symm.trans hidle) nofun
  · obtain rfl := Option.some.inj (hadopt.symm.trans ha)
    exact ⟨fun m hm => absurd hm (Nat.not_lt_zero _), fun d hd => absurd hd (Nat.not_lt_zero _)⟩
  · rw [hmask, State.maskBit_of_masks hmask, k.record]
    exact hmasks.flags d (hpresent d hd) hline
  · rw [hword]
    exact hmasks.words m w (by rw [← hmask]; exact hw)

end Restart

end Sys2Proof.Machine

/-! Adoption: memory is read into the MU and the table, and what is fixed is written back (R150 to R152). -/

namespace Sys2Proof.Machine

section Stage
variable {s t : State} {a b : Adoption} {d : Dest}

/-- During an adoption no write of the head is a mask write. -/
theorem State.headLaw.spares (h : s.headLaw) (hadopt : s.pu.adoption ≠ none) {todo : List Access} {restart : Bool}
    (hhead : s.cbp.head = .writing todo restart) : ∀ acc ∈ todo,
      acc.sparesImage s.pu.params ∧ acc.sparesMasks s.pu.params := fun acc hacc =>
  (h.head todo restart hhead acc hacc).imp id fun hor => hor.resolve_right fun hm => hadopt hm.1

theorem State.headLaw.readopt (h : s.headLaw) (hadopt : s.pu.adoption ≠ none) (hcbp : t.cbp.queue = s.cbp.queue)
    (hhead : t.cbp.head = s.cbp.head) (hparams : t.pu.params = s.pu.params) : t.headLaw := by
  refine ⟨fun todo restart hwriting acc hacc => ?_, by rw [hhead, hcbp]; exact h.taken, by rw [hhead, hcbp]; exact h.ringWord⟩
  rw [hparams]
  exact (h.spares hadopt (hhead.symm.trans hwriting) acc hacc).imp id .inl

/-- During an adoption no mask write is in handling. -/
theorem State.tableLaw.calm_adopting (h : s.tableLaw) (hhead : s.headLaw) (hadopt : s.pu.adoption ≠ none) : s.calm := by
  refine ⟨fun m todo hm => hadopt (h.masking m todo hm), fun m hm => ?_⟩
  obtain ⟨todo, he⟩ | ⟨todo, w, he, -, hmem⟩ := hm
  · exact hadopt (h.masking m todo he)
  · exact State.maskWrite_not_spares m w (hhead.spares hadopt he _ hmem).2

/-- What an adoption has read and built, it has read and built also at a stage that counts no more. -/
theorem State.masksSettled.setStage (h : s.masksSettled) (hadopt : s.pu.adoption = some a)
    (hread : b.masksRead = a.masksRead) (hbuilt : b.built = a.built) : (s.setAdoption (some b)).masksSettled :=
  ⟨nofun, fun c hc => by
    obtain rfl := Option.some.inj hc
    rw [hread, hbuilt]
    exact h.rebuilt a hadopt, h.flags, h.words⟩

/-- The adoption goes on to a stage at which no fixed word is to be written. -/
theorem State.imageLaw.setStage (h : s.imageLaw) (htable : s.tableLaw) (hadopt : s.pu.adoption = some a)
    (hread : b.masksRead = a.masksRead) (hbuilt : b.built = a.built) (hfixed : ∀ d w, b.stage ≠ .fixedWord d w) :
    (s.setAdoption (some b)).imageLaw := by
  have hne : s.pu.adoption ≠ none := by rw [hadopt]; exact nofun
  have hcalm := htable.calm_adopting h.headed hne
  refine State.imageLaw_iff.2 ⟨⟨h.image, h.listed, fun c d w hc hstage => ?_⟩, h.posts.congr rfl rfl rfl,
    h.headed.readopt hne rfl rfl rfl, ((h.mask.settled hcalm).setStage hadopt hread hbuilt).maskLaw_of_head hcalm.masking⟩
  obtain rfl := Option.some.inj hc
  exact absurd hstage (hfixed d w)

/-- A mask word read into the MU is the one in memory (R150). -/
theorem State.imageLaw.adoptMask (h : s.imageLaw) (htable : s.tableLaw) (hadopt : s.pu.adoption = some a) {m : Fin 12}
    (hstage : a.stage = .mask m) (hb : b.stage = stageAfterMask m) :
    ((s.setMask m (s.loadWord (0x700 + 4 * m.val))).setAdoption (some b)).imageLaw := by
  have hne : s.pu.adoption ≠ none := by rw [hadopt]; exact nofun
  have hcalm := htable.calm_adopting h.headed hne
  have hsettled := h.mask.settled hcalm
  generalize hw : s.loadWord (0x700 + 4 * m.val) = w
  have hset : ∀ n : Fin 12, (s.setMask m w).masks[n] = if m = n then some w else s.masks[n] :=
    fun n => getElem_set_ite s.masks m n (some w)
  have hpresent : ∀ n : Fin 12, s.masks[n].isSome = true → (s.setMask m w).masks[n] = s.masks[n] := fun n hn => by
    rw [hset]
    split
    · next hmn =>
      obtain ⟨v, hv⟩ := Option.isSome_iff_exists.1 hn
      subst hmn
      rw [hv, ← hsettled.words m v hv, hw]
    · rfl
  have hread : b.masksRead = m.val + 1 ∧ b.built = 0 ∧ ∀ d v, b.stage ≠ .fixedWord d v := by
    by_cases hlt : m.val + 1 < 12
    · have hnext : b.stage = .mask ⟨m.val + 1, hlt⟩ := by rw [hb, stageAfterMask, dif_pos hlt]
      exact ⟨by rw [Adoption.masksRead, hnext], by rw [Adoption.built, hnext], by rw [hnext]; exact nofun⟩
    · have hnext : b.stage = .path 0 := by rw [hb, stageAfterMask, dif_neg hlt]
      have hm := m.isLt
      refine ⟨?_, by rw [Adoption.built, hnext]; rfl, by rw [hnext]; exact nofun⟩
      rw [Adoption.masksRead, hnext]
      show 12 = m.val + 1
      omega
  obtain ⟨hcount, hbuilt, hfixed⟩ := hread
  refine State.imageLaw_iff.2 ⟨⟨h.image, h.listed, fun c d w hc hat => ?_⟩, h.posts.congr rfl rfl rfl,
    h.headed.readopt hne rfl rfl rfl, State.masksSettled.maskLaw_of_head ⟨nofun, fun c hc => ?_, fun d hd hline => ?_,
      fun n v hv => ?_⟩ hcalm.masking⟩
  · obtain rfl := Option.some.inj hc
    exact absurd hat (hfixed d w)
  · obtain rfl := Option.some.inj hc
    rw [hcount, hbuilt]
    refine ⟨fun n hn => ?_, fun d hd => absurd hd (Nat.not_lt_zero _)⟩
    show (s.setMask m w).masks[n].isSome = true
    rw [hset]
    split
    · rfl
    · next hmn =>
      have hlt : n.val < m.val := lt_of_le_of_ne (Nat.lt_succ_iff.1 hn) fun he => hmn (Fin.ext he.symm)
      exact (hsettled.rebuilt a hadopt).1 n (by rw [Adoption.masksRead, hstage]; exact hlt)
  · obtain ⟨hsome, hflag⟩ := hsettled.flags d hd hline
    have hsame := hpresent _ hsome
    show (s.setMask m w).masks[maskWordOf d].isSome = true ∧ (s.record d).blocked = (s.setMask m w).maskBit d
    rw [State.maskBit, State.maskWord, hsame]
    exact ⟨hsome, hflag⟩
  · have hheld : (if m = n then some w else s.masks[n]) = some v := (hset n).symm.trans hv
    by_cases hmn : m = n
    · rw [if_pos hmn] at hheld
      subst hmn
      exact hw.trans (Option.some.inj hheld)
    · rw [if_neg hmn] at hheld
      exact hsettled.words n v hheld

/-- A record built from its path word: it is listed, or memory has its current word already; a fixed one waits for its word to
be written (R150). -/
theorem State.imageLaw.build (h : s.imageLaw) (htable : s.tableLaw) (hadopt : s.pu.adoption = some a) (hstage : a.stage = .path d)
    {r : DestRecord} (hrecords : t.dt.records = s.dt.records.set d (some r)) (hblocked : r.blocked = s.maskBit d)
    (hlisted : ∀ e ∈ s.dt.updates.map UpdateEntry.dest, e ∈ t.dt.updates.map UpdateEntry.dest)
    (hnodup : (t.dt.updates.map UpdateEntry.dest).Nodup) (hslots : t.re.slots = s.re.slots)
    (hmem : t.mem = s.mem) (hmasks : t.masks = s.masks) (hcbp : t.cbp = s.cbp) (hpu : t.pu = { s.pu with adoption := some b })
    (hbuilt : b.built = d.val + 1) (hread : b.masksRead = 12)
    (hown : d ∉ t.dt.updates.map UpdateEntry.dest → s.loadWord (pathOffset d) = t.currentWord d)
    (hfixed : ∀ e w, b.stage = .fixedWord e w → (t.record e).intentSrc = .none ∧ w = t.currentWord e) : t.imageLaw := by
  have hne : s.pu.adoption ≠ none := by rw [hadopt]; exact nofun
  have hcalm := htable.calm_adopting h.headed hne
  have hsettled := h.mask.settled hcalm
  have hadopts := htable.adopts hne
  have hword : ∀ offset, t.loadWord offset = s.loadWord offset := fun offset => by
    rw [State.loadWord, State.loadWord, hmem, hpu]
  have hset : t.dt.records[d] = some r := by rw [hrecords]; exact Vector.getElem_set_self _
  have hother : ∀ e : Dest, e ≠ d → t.dt.records[e] = s.dt.records[e] := fun e he => by
    rw [hrecords]
    exact Vector.getElem_set_ne d.isLt e.isLt fun hval => he (Fin.ext hval.symm)
  have hrecord : ∀ e, e ≠ d → t.record e = s.record e := fun e he => by rw [State.record, State.record, hother e he]
  have hnext : t.pu.adoption = some b := by rw [hpu]
  refine State.imageLaw_iff.2 ⟨⟨fun e he hlist => ?_, hnodup, fun c e w hc hat => ?_⟩,
    h.posts.congr (by rw [hcbp]) (by rw [hcbp]) (by rw [hpu]),
    h.headed.readopt hne (by rw [hcbp]) (by rw [hcbp]) (by rw [hpu]),
    State.masksSettled.maskLaw_of_head ⟨fun _ hidle => ?_, fun c hc => ?_, fun e he hline => ?_, fun n v hv => ?_⟩
      (by rw [hcbp]; exact hcalm.masking)⟩
  · rw [hword]
    by_cases hed : e = d
    · subst hed
      exact hown hlist
    · have hslot : (s.record e).slot = none := hadopts.slot e
      rw [State.currentWord_congr (hrecord e hed)
        ((State.slotOf_none (by rw [hrecord e hed]; exact hslot)).trans (State.slotOf_none hslot).symm)]
      exact h.image e ((hother e hed) ▸ he) fun hs => hlist (hlisted e hs)
  · obtain rfl := Option.some.inj (hnext.symm.trans hc)
    exact hfixed e w hat
  · exact absurd (hnext.symm.trans hidle) nofun
  · obtain rfl := Option.some.inj (hnext.symm.trans hc)
    obtain ⟨hmask, hrec⟩ := hsettled.rebuilt a hadopt
    rw [Adoption.masksRead, hstage] at hmask
    rw [Adoption.built, hstage] at hrec
    rw [hread, hbuilt, hmasks]
    refine ⟨hmask, fun e he => ?_⟩
    by_cases hed : e = d
    · subst hed
      rw [hset]
      rfl
    · rw [hother e hed]
      exact hrec e (lt_of_le_of_ne (Nat.lt_succ_iff.1 he) fun hval => hed (Fin.ext hval))
  · rw [hmasks, State.maskBit_of_masks hmasks]
    by_cases hed : e = d
    · subst hed
      obtain ⟨hmask, -⟩ := hsettled.rebuilt a hadopt
      rw [Adoption.masksRead, hstage] at hmask
      refine ⟨hmask _ (maskWordOf e).isLt, ?_⟩
      rw [State.record, hset]
      exact hblocked
    · rw [hrecord e hed]
      exact hsettled.flags e ((hother e hed) ▸ he) hline
  · rw [hword]
    exact hsettled.words n v (by rw [← hmasks]; exact hv)

end Stage

end Sys2Proof.Machine

/-! The grants of an adoption (R150 to R153). -/

namespace Sys2Proof.Machine

section Words
variable {s : State} {a : Adoption} {d : Dest}

theorem State.buildRecord_records (s : State) (d : Dest) (r : DestRecord) :
    (s.buildRecord d r).dt.records = s.dt.records.set d (some r) := by
  obtain ⟨ports, loads, he⟩ := s.buildRecord_exists d r
  rw [he]

theorem State.adoptFound_records (s : State) (a : Adoption) (d : Dest) (w : Word) (src : Source) :
    (s.adoptFound a d w src).dt.records = s.dt.records.set d (some (s.adoptedRecord d src (pathAttn w))) := by
  refine Eq.trans ?_ (s.buildRecord_records d (s.adoptedRecord d src (pathAttn w)))
  obtain ⟨-, he⟩ | ⟨-, he⟩ := s.adoptFound_cases a d w src <;> rw [he] <;> rfl

theorem State.adoptFixed_records (s : State) (a : Adoption) (d : Dest) (w : Word) (reason : FixReason) (keeper : Option Dest) :
    (s.adoptFixed a d w reason keeper).dt.records = s.dt.records.set d (some (s.adoptedRecord d .none dark)) := by
  refine Eq.trans ?_ (s.buildRecord_records d (s.adoptedRecord d .none dark))
  unfold State.adoptFixed
  dsimp only
  generalize s.buildRecord d (s.adoptedRecord d .none dark) = u
  show (u.emit _ _ _ _ _).dt.records = u.dt.records
  rw [State.emit_eq]

theorem stageAfter_read {b : Adoption} (h : b.stage = stageAfter d) : b.masksRead = 12 ∧ ∀ e w, b.stage ≠ .fixedWord e w := by
  rw [Adoption.masksRead, h]
  by_cases hlt : d.val + 1 < 432
  · rw [stageAfter, dif_pos hlt]
    exact ⟨rfl, nofun⟩
  · rw [stageAfter, dif_neg hlt]
    exact ⟨rfl, nofun⟩

/-- A path word adopted from memory: as found, or fixed and to be written (R150). -/
theorem State.imageLaw.adoptWord (h : s.imageLaw) (htable : s.tableLaw) (hadopt : s.pu.adoption = some a)
    (hstage : a.stage = .path d) : (s.adoptWord a d (s.loadWord (pathOffset d))).imageLaw := by
  generalize hw : s.loadWord (pathOffset d) = w
  unfold State.adoptWord
  split
  · next reason keeper _ =>
    have k := s.adoptFixed_spec a d w reason keeper
    have hrecords := s.adoptFixed_records a d w reason keeper
    dsimp only at k
    generalize s.adoptFixed a d w reason keeper = t at k hrecords ⊢
    obtain ⟨hown, -, -, -, hmarks, -, -, hframe⟩ := k
    have hsrc : (t.record d).intentSrc = .none := by rw [hown]; rfl
    generalize hv : t.currentWord d = v at hframe
    refine h.build htable hadopt hstage hrecords rfl (fun e he => hmarks.listed_iff.2 (.inl he)) (hmarks.nodup h.listed)
      (by rw [hframe]) (by rw [hframe]) (by rw [hframe]) (by rw [hframe])
      (b := { stage := .fixedWord d v, adopted := a.adopted, fixed := a.fixed + 1 }) (by rw [hframe]) rfl rfl
      (fun hnot => absurd (hmarks.listed_iff.2 (.inr (beq_self_eq_true d))) hnot) fun e w' he => ?_
    obtain ⟨rfl, rfl⟩ := AdoptionStage.fixedWord.inj he
    exact ⟨hsrc, hv.symm⟩
  · next hfix =>
    generalize (pathSource d w).getD .none = src
    have k := s.adoptFound_spec a d w (src := src)
    have hrecords := s.adoptFound_records a d w src
    dsimp only at k
    generalize s.adoptFound a d w src = t at k hrecords ⊢
    obtain ⟨-, -, -, -, hsame, hmarked, -, hframe⟩ := k
    generalize hnext : ({ stage := stageAfter d, adopted := a.adopted + 1, fixed := a.fixed } : Adoption) = b at hframe
    have hb : b.stage = stageAfter d := by rw [← hnext]
    have hre : t.re = { s.re with loads := t.re.loads } := congrArg State.re hframe
    have hlist : (∀ e ∈ s.dt.updates.map UpdateEntry.dest, e ∈ t.dt.updates.map UpdateEntry.dest) ∧
        (t.dt.updates.map UpdateEntry.dest).Nodup ∧
        (d ∉ t.dt.updates.map UpdateEntry.dest → s.loadWord (pathOffset d) = t.currentWord d) := by
      by_cases hword : t.currentWord d = w
      · rw [hsame hword]
        exact ⟨fun _ he => he, h.listed, fun _ => hw.trans hword.symm⟩
      · have hmarks := (hmarked hword).2
        exact ⟨fun e he => hmarks.listed_iff.2 (.inl he), hmarks.nodup h.listed,
          fun hnot => absurd (hmarks.listed_iff.2 (.inr (beq_self_eq_true d))) hnot⟩
    obtain ⟨hlisted, hnodup, hown⟩ := hlist
    exact h.build htable hadopt hstage hrecords rfl hlisted hnodup (by rw [hre]) (by rw [hframe]) (by rw [hframe])
      (by rw [hframe]) (by rw [hframe]) (stageAfter_built hb).1 (stageAfter_read hb).1 hown
      fun e w' he => absurd he ((stageAfter_read hb).2 e w')

/-- The grant of a fixed word writes its destination's current word (R150). -/
theorem State.imageLaw.fixedGranted (h : s.imageLaw) (hwf : Memory.wf s.mem) (hadopt : s.pu.adoption = some a) {w : Word}
    (hstage : a.stage = .fixedWord d w) {r : Requester} (hacc : s.access r = some (s.wordWrite (pathOffset d) w)) :
    (s.granted r).imageLaw := by
  have k := State.granted_accesses hacc
  obtain ⟨hword, hothers⟩ := k.wordWrite hwf
  obtain ⟨-, hw⟩ := h.fixed a d w hadopt hstage
  have hlt := d.isLt
  have hspares : (s.wordWrite (pathOffset d) w).sparesMasks s.pu.params :=
    State.wordWrite_sparesMasks (.inl (by unfold pathOffset; omega)) w
  refine State.imageLaw_iff.2 ⟨⟨fun e he hlist => ?_, h.listed, h.fixed⟩, h.posts.congr rfl rfl rfl,
    h.headed.congr rfl rfl rfl rfl, h.mask.congr (State.showsMasks_of_records rfl rfl (k.maskWord hspares) rfl) rfl⟩
  by_cases hed : e = d
  · subst hed
    exact hword.trans hw
  · have hne : e.val ≠ d.val := fun hval => hed (Fin.ext hval)
    exact (hothers (pathOffset e) (by unfold pathOffset; omega)).trans (h.image e he hlist)

end Words

section Ends
variable {s : State} {a : Adoption}

/-- With every mask word and every record there, the adoption ends: the arbiter has its occasion, and a CMD_RESTART's handling
ends (R151, R153). -/
theorem State.imageLaw.endAdoption (h : s.imageLaw) (htable : s.tableLaw) (hadopt : s.pu.adoption = some a)
    (hread : a.masksRead = 12) (hbuilt : a.built = 432) (hstage : a.stage ≠ .drain) (c : Adoption) :
    (s.endAdoption c).imageLaw := by
  have hne : s.pu.adoption ≠ none := by rw [hadopt]; exact nofun
  have hcalm := htable.calm_adopting h.headed hne
  have hsettled := h.mask.settled hcalm
  obtain ⟨hmasks, hrecords⟩ := hsettled.rebuilt a hadopt
  have hall : ∀ d : Dest, s.dt.records[d].isSome = true := fun d => hrecords d (by rw [hbuilt]; exact d.isLt)
  have hdone : (s.adoptionDone c).imageLaw := State.imageLaw_iff.2 ⟨⟨h.image, h.listed, nofun⟩, h.posts.congr rfl rfl rfl,
    h.headed.readopt hne rfl rfl rfl, State.masksSettled.maskLaw_of_head
      ⟨fun _ _ => ⟨fun m => hmasks m (by rw [hread]; exact m.isLt), hall⟩, nofun, hsettled.flags, hsettled.words⟩ hcalm.masking⟩
  have hdraws := State.occasion_draws (htable.adoptionDone hadopt hstage hbuilt c) rfl hall
  have hoccasion := hdraws.imageLaw hdone
  rw [State.endAdoption_eq]
  split
  · next hhead => exact hoccasion.retireHead (State.calm_of_head (by rw [hhead]; exact nofun) (by rw [hhead]; exact nofun))
  · exact hoccasion

theorem State.imageLaw.afterHeader (h : s.imageLaw) (htable : s.tableLaw) (hadopt : s.pu.adoption = some a)
    (hread : a.masksRead = 12) (hbuilt : a.built = 432) (hstage : a.stage ≠ .drain) (c : Adoption) (p : Plan) :
    (s.afterHeader c p).imageLaw := by
  unfold State.afterHeader
  split
  · exact h.setStage htable hadopt hread.symm hbuilt.symm nofun
  · exact h.endAdoption htable hadopt hread hbuilt hstage c

/-- A plan header read: the next header, the end, or the torn header to be written back (R151). -/
theorem State.imageLaw.adoptHeader (h : s.imageLaw) (htable : s.tableLaw) (hadopt : s.pu.adoption = some a) {p : Plan}
    (hstage : a.stage = .header p) (w : Word) : (s.adoptHeader a p w).imageLaw := by
  have hread : a.masksRead = 12 := by rw [Adoption.masksRead, hstage]
  have hbuilt : a.built = 432 := by rw [Adoption.built, hstage]
  have hdrain : a.stage ≠ .drain := by rw [hstage]; exact nofun
  have himage : ∀ c, (s.setCondition p c).imageLaw := fun c => (s.setCondition_beside p c).imageLaw h
  have hlaw : ∀ c, (s.setCondition p c).tableLaw := fun c => (s.setCondition_beside p c).tableLaw htable
  unfold State.adoptHeader
  split
  · exact (himage _).afterHeader (hlaw _) hadopt hread hbuilt hdrain _ _
  · split
    · exact (himage _).afterHeader (hlaw _) hadopt hread hbuilt hdrain _ _
    · refine State.imageLaw.setStage ((himage _).emit _ _ _ _ _) ((hlaw _).emit _ _ _ _ _) (a := a) ?_ hread.symm hbuilt.symm nofun
      rw [State.emit_eq]
      exact hadopt

end Ends

section Grants
variable {s : State} {a : Adoption} {r : Requester}

theorem State.imageLaw.granted_none (h : s.imageLaw) (hacc : s.access r = none) : (s.granted r).imageLaw := by
  have hmem : (s.granted r).mem = s.mem := by
    show (s.makeAccess (s.access r)).mem = s.mem
    rw [hacc]
    rfl
  exact h.beside rfl rfl rfl hmem rfl rfl rfl rfl rfl

theorem adoptionStartStep_imageLaw (h : s.imageLaw) (htable : s.tableLaw) : (adoptionStartStep s).imageLaw := by
  obtain he | ⟨a, hadopt, hstage, -, he⟩ := adoptionStartStep_cases s <;> rw [he]
  · exact h
  · have hread : a.masksRead = 0 := by rw [Adoption.masksRead, hstage]
    have hbuilt : a.built = 0 := by rw [Adoption.built, hstage]
    have hnext := h.setStage htable hadopt (b := { a with stage := .mask 0 }) hread.symm hbuilt.symm nofun
    exact hnext.beside rfl rfl rfl rfl rfl rfl rfl rfl rfl

/-- The word that a granted read returns is the one in memory. -/
theorem State.readBytes_word {offset : Nat} (h : s.adoptionAccess a = some (s.wordRead offset)) (hadopt : s.pu.adoption = some a) :
    wordOfBytes (s.readBytes s.xchAccess) = s.loadWord offset := by
  rw [State.xchAccess_adoption hadopt, h]
  rfl

/-- A grant of the adoption keeps memory in step with what it has built (R150, R151). -/
theorem adoptionAccessGrantStep_imageLaw (h : s.imageLaw) (htable : s.tableLaw) (hwf : Memory.wf s.mem) :
    (adoptionAccessGrantStep s).imageLaw := by
  obtain he | ⟨a, hadopt, -, he⟩ := adoptionAccessGrantStep_cases s <;> rw [he]
  · exact h
  · have hxch : s.access .xch = s.adoptionAccess a := State.xchAccess_adoption hadopt
    have hlaw : (s.granted .xch).tableLaw := htable.beside (s.granted_keepsTable .xch) rfl (.inl rfl)
    cases hstage : a.stage with
    | drain =>
      have hacc : s.access .xch = none := by rw [hxch, State.adoptionAccess, hstage]
      rw [State.adoptionStep, hstage]
      exact h.granted_none hacc
    | mask m =>
      have hread : s.adoptionAccess a = some (s.wordRead (0x700 + 4 * m.val)) := by rw [State.adoptionAccess, hstage]
      have hacc := hxch.trans hread
      rw [State.readBytes_word hread hadopt, State.adoptionStep, hstage, State.granted_read hacc]
      rw [State.granted_read hacc] at hlaw
      exact (h.beside rfl rfl rfl rfl rfl rfl rfl rfl rfl : State.imageLaw { s with tmp := (s.movePointers .xch).tmp }).adoptMask
        hlaw hadopt hstage rfl
    | path d =>
      have hread : s.adoptionAccess a = some (s.wordRead (pathOffset d)) := by rw [State.adoptionAccess, hstage]
      have hacc := hxch.trans hread
      rw [State.readBytes_word hread hadopt, State.adoptionStep, hstage, State.granted_read hacc]
      rw [State.granted_read hacc] at hlaw
      exact (h.beside rfl rfl rfl rfl rfl rfl rfl rfl rfl : State.imageLaw { s with tmp := (s.movePointers .xch).tmp }).adoptWord
        hlaw hadopt hstage
    | fixedWord d w =>
      have hwrite : s.access .xch = some (s.wordWrite (pathOffset d) w) := by rw [hxch, State.adoptionAccess, hstage]
      have hbuilt : a.built = d.val + 1 := by rw [Adoption.built, hstage]
      have hread : a.masksRead = 12 := by rw [Adoption.masksRead, hstage]
      rw [State.adoptionStep, hstage]
      exact (h.fixedGranted hwf hadopt hstage hwrite).setStage hlaw hadopt ((stageAfter_read rfl).1.trans hread.symm)
        ((stageAfter_built rfl).1.trans hbuilt.symm) (stageAfter_read rfl).2
    | header p =>
      have hacc : s.access .xch = some (s.wordRead (planHeaderOffset p)) := by rw [hxch, State.adoptionAccess, hstage]
      rw [State.adoptionStep, hstage]
      exact (h.granted_read hacc).adoptHeader hlaw hadopt hstage _
    | tornHeader p w =>
      have hacc : s.access .xch = some (s.wordWrite (planHeaderOffset p) w) := by rw [hxch, State.adoptionAccess, hstage]
      have hbuilt : a.built = 432 := by rw [Adoption.built, hstage]
      have hread : a.masksRead = 12 := by rw [Adoption.masksRead, hstage]
      rw [State.adoptionStep, hstage]
      exact (h.granted_above hacc (by unfold planHeaderOffset; omega)).afterHeader hlaw hadopt hread hbuilt
        (by rw [hstage]; exact nofun) _ _

end Grants

end Sys2Proof.Machine

/-! The other grants, and the part before preload ends. -/

namespace Sys2Proof.Machine

section HeadGranted
variable {s : State}

/-- CTL carries the head's write only where one is still to be made. -/
theorem State.writing_of_ctlSource (h : s.ctlSource = some .head) :
    ∃ acc todo restart, s.cbp.head = .writing (acc :: todo) restart := by
  unfold State.ctlSource at h
  split at h
  · cases h
  · split at h
    · cases h
    all_goals
      split at h
      · next acc todo restart hhead => exact ⟨acc, todo, restart, hhead⟩
      all_goals cases h

/-- CTL_WRITE_GRANT: the head's write made, it goes on to the next, leaves the queue or carries out a restart (R127, R153). -/
theorem ctlWriteGrantStep_imageLaw (h : s.imageLaw) (htable : s.tableLaw) (hwf : Memory.wf s.mem)
    (hall : s.pu.adoption = none → ∀ d : Dest, s.dt.records[d].isSome = true) : (ctlWriteGrantStep s).imageLaw := by
  obtain he | ⟨hsource, -, he⟩ := ctlWriteGrantStep_cases s <;> rw [he]
  · exact h
  · obtain ⟨acc, todo, restart, hhead⟩ := State.writing_of_ctlSource hsource
    have hacc := State.ctlAccess_head hsource hhead
    have hgranted : (s.granted .ctl).cbp.head = .writing (acc :: todo) restart := hhead
    have hqueue : s.cbp.queue ≠ [] := h.taken (by rw [hhead]; exact nofun)
    rw [State.headGranted, hgranted]
    cases todo with
    | cons next rest => exact h.headLeft hwf hhead hacc
    | nil =>
      obtain ⟨hpicture, hposts, hmasks⟩ := h.lastGranted hwf hhead hacc
      cases restart with
      | false => exact State.imageLaw_retireHead hpicture hposts hmasks
      | true =>
        have hlaw : (s.granted .ctl).tableLaw := htable.beside (s.granted_keepsTable .ctl) rfl (.inl rfl)
        exact hlaw.restart_imageLaw hpicture hposts hmasks hqueue hall

/-- CTL presents a read wherever it does not carry the head. -/
theorem State.imageLaw.ctlReadGranted (h : s.imageLaw) (hsource : s.ctlSource ≠ some .head) : (s.granted .ctl).imageLaw := by
  have hread : s.ctlAccess = none ∨ ∃ a n, s.ctlAccess = some (.read a n) := by
    unfold State.ctlAccess
    split
    · exact .inl rfl
    · split
      · split
        · exact .inr ⟨_, _, rfl⟩
        all_goals exact .inl rfl
      · exact .inl rfl
    · split
      · exact .inr ⟨_, _, rfl⟩
      all_goals exact .inl rfl
    · next hhead => exact absurd hhead hsource
  obtain hnone | ⟨a, n, hacc⟩ := hread
  · exact h.granted_none hnone
  · exact h.granted_read hacc

end HeadGranted

section Tbl
variable {s : State}

theorem State.tblEntry_split {e : UpdateEntry} (h : s.tblEntry = some e) : ∃ before after, s.dt.updates = before ++ e :: after ∧
    (∀ u ∈ before, s.tblMayWrite u.dest = false) ∧ s.tblMayWrite e.dest = true := by
  obtain ⟨he, before, after, hupdates, hbefore⟩ := List.find?_eq_some_iff_append.1 h
  exact ⟨before, after, hupdates, fun u hu => by simpa using hbefore u hu, he⟩

/-- TBL_GRANT: the entry that leaves the list has, in memory, the word written (R17). -/
theorem tblGrantStep_imageLaw (h : s.imageLaw) (hwf : Memory.wf s.mem) : (tblGrantStep s).imageLaw := by
  obtain he | ⟨-, he⟩ := tblGrantStep_cases s <;> rw [he]
  · exact h
  · have hslots : (s.granted .tbl).updateWritten.re.slots = s.re.slots := (s.granted .tbl).updateWritten_keepsTable.slots
    rw [State.updateWritten_eq]
    generalize (s.granted .tbl).updateWritten.re = re at hslots ⊢
    cases hentry : s.tblEntry with
    | none =>
      have hacc : s.access .tbl = none := by rw [State.access, State.tblAccess, hentry]
      have hkept : (s.dt.updates.eraseP fun u => s.tblMayWrite u.dest) = s.dt.updates :=
        List.eraseP_of_forall_not fun u hu => List.find?_eq_none.1 hentry u hu
      exact (h.granted_none hacc).beside rfl hkept hslots rfl rfl rfl rfl rfl rfl
    | some e =>
      have hacc := State.tblAccess_of_entry hentry
      have k := State.granted_accesses hacc
      obtain ⟨hword, hothers⟩ := k.wordWrite hwf
      obtain ⟨before, after, hupdates, hbefore, hmay⟩ := State.tblEntry_split hentry
      have herase : ((s.granted .tbl).dt.updates.eraseP fun u => (s.granted .tbl).tblMayWrite u.dest) = before ++ after :=
        State.eraseP_of_split hupdates hbefore hmay
      have hlt := e.dest.isLt
      have hspares : (s.wordWrite (pathOffset e.dest) (s.currentWord e.dest)).sparesMasks s.pu.params :=
        State.wordWrite_sparesMasks (.inl (by unfold pathOffset; omega)) _
      have hnodup := h.listed
      rw [hupdates, List.map_append, List.map_cons] at hnodup
      rw [herase]
      have hcurrent : ∀ d, State.currentWord { s.granted .tbl with
          dt := { (s.granted .tbl).dt with updates := before ++ after }, re := re } d = s.currentWord d :=
        State.currentWord_of_records rfl hslots
      refine State.imageLaw_iff.2 ⟨⟨fun d hd hlist => ?_, ?_, fun a d w ha hstage => ?_⟩, h.posts.congr rfl rfl rfl,
        h.headed.congr rfl rfl rfl rfl, h.mask.congr (State.showsMasks_of_records rfl rfl (k.maskWord hspares) rfl) rfl⟩
      · rw [hcurrent]
        by_cases hde : d = e.dest
        · subst hde
          exact hword
        · have hne : d.val ≠ e.dest.val := fun hval => hde (Fin.ext hval)
          refine (hothers (pathOffset d) (by unfold pathOffset; omega)).trans (h.image d hd fun hs => hlist ?_)
          rw [hupdates, List.map_append, List.map_cons] at hs
          show d ∈ (before ++ after).map UpdateEntry.dest
          rw [List.map_append]
          exact (List.mem_append.1 hs).elim (fun hs => List.mem_append_left _ hs) fun hs =>
            List.mem_append_right _ ((List.mem_cons.1 hs).resolve_left hde)
      · show ((before ++ after).map UpdateEntry.dest).Nodup
        rw [List.map_append]
        exact hnodup.sublist ((List.sublist_cons_self _ _).append_left _)
      · rw [hcurrent]
        exact h.fixed a d w ha hstage

end Tbl

section Exchange
variable {s : State} {x : RunningExchange}

/-- EXCHANGE_ACCESS_GRANT: the exchange reads, or writes in its plan's words (R114). -/
theorem exchangeAccessGrantStep_imageLaw (h : s.imageLaw) : (exchangeAccessGrantStep s).imageLaw := by
  obtain he | ⟨x, hidle, hx, -, he⟩ := exchangeAccessGrantStep_cases s <;> rw [he]
  · exact h
  · have hxch : s.access .xch = s.exchangeAccess x := State.xchAccess_exchange hidle hx
    rw [State.exchangeAccess] at hxch
    have hgranted : (s.granted .xch).imageLaw := by
      cases hstage : x.stage with
      | header => rw [hstage] at hxch; exact h.granted_above hxch (by unfold planHeaderOffset; omega)
      | key => rw [hstage] at hxch; exact h.granted_read hxch
      | path => rw [hstage] at hxch; exact h.granted_read hxch
      | swap => rw [hstage] at hxch; exact h.granted_none hxch
      | kept w => rw [hstage] at hxch; exact h.granted_above hxch (by unfold planPathOffset planKeyOffset; omega)
      | final => rw [hstage] at hxch; exact h.granted_above hxch (by unfold planHeaderOffset; omega)
    rw [State.exchangeStep_eq]
    exact hgranted.beside rfl rfl rfl rfl rfl rfl rfl rfl rfl

theorem exchangeStartStep_imageLaw (h : s.imageLaw) : (exchangeStartStep s).imageLaw := by
  unfold exchangeStartStep
  split
  · obtain ⟨htable, hhead, hmem, hmasks, hqueue, hdt, -⟩ := State.startFrom_stands s.xe.list s
    have hposts := State.startFrom_posts s.xe.list s
    generalize State.startFrom s.xe.list s = t at *
    have hwords := State.loadWord_of_mem hmem htable.pu
    exact State.imageLaw_iff.2 ⟨h.picture.congr htable.records (by rw [hdt]) htable.slots (fun d => hwords _) htable.pu,
      h.posts.keep hposts (by rw [htable.pu]), h.headed.congr hqueue hhead hmasks htable.pu,
      h.mask.congr (State.showsMasks_of_records htable.records hmasks (fun m => hwords _) htable.pu) hhead⟩
  · exact h

/-- EXCHANGE_SWAP: skipped, or carried out with its destinations marked (R116). -/
theorem exchangeSwapStep_imageLaw (h : s.imageLaw) (htable : s.tableLaw)
    (hall : s.pu.adoption = none → ∀ d : Dest, s.dt.records[d].isSome = true) : (exchangeSwapStep s).imageLaw := by
  obtain he | ⟨x, d, src, hrun, hstage, hkey, hsrc, he⟩ := exchangeSwapStep_cases s <;> rw [he]
  · exact h
  · cases hfree : s.otherClaimant d src with
    | some claim =>
      unfold State.swapEntry
      rw [hfree]
      dsimp only
      rw [State.skipEntry_eq]
      exact h.beside rfl rfl rfl rfl rfl rfl rfl rfl rfl
    | none =>
      rw [State.swapEntry_swaps hfree]
      have hswap := htable.canSwap hrun hstage hkey hsrc hfree
      exact ((hswap.draws (hall hswap.idle) _).imageLaw h).beside rfl rfl rfl rfl rfl rfl rfl rfl rfl

end Exchange

section Events
variable {s : State}

theorem eventRecordGrantStep_imageLaw (h : s.imageLaw) : (eventRecordGrantStep s).imageLaw := by
  obtain he | ⟨hsource, -, he⟩ := eventRecordGrantStep_cases s <;> rw [he]
  · exact h
  · rw [State.recordGranted_eq]
    have hgranted : (s.granted .evt).imageLaw := by
      cases hqueue : s.ew.queue with
      | nil => exact h.granted_none (by rw [State.access, State.evtAccess, hsource, hqueue])
      | cons r rest =>
        have hacc := State.evtAccess_record hsource hqueue
        have habove : ∃ offset w, s.recordAccess r = s.wordWrite offset w ∧ 0x730 ≤ offset := by
          unfold State.recordAccess State.recordOffset
          split
          · exact ⟨_, _, rfl, by omega⟩
          · split
            · exact ⟨_, _, rfl, by omega⟩
            · split
              · exact ⟨_, _, rfl, by omega⟩
              · split
                · exact ⟨_, _, rfl, by omega⟩
                · exact ⟨_, _, rfl, by omega⟩
        obtain ⟨offset, w, hw, hle⟩ := habove
        exact h.granted_above (hacc.trans (by rw [hw])) hle
    exact hgranted.beside rfl rfl rfl rfl rfl rfl rfl rfl rfl

/-- RING_WORD_GRANT: a CMD_RING_TAIL that waited goes on to its mailbox (R139, R141). -/
theorem ringWordGrantStep_imageLaw (h : s.imageLaw) : (ringWordGrantStep s).imageLaw := by
  obtain he | ⟨hsource, -, he⟩ := ringWordGrantStep_cases s <;> rw [he]
  · exact h
  · have hgranted := h.granted_above (State.evtAccess_ringWord hsource) (by omega)
    have hwritten : ({ s.granted .evt with ew := { (s.granted .evt).ew with ringWordDue := false } } : State).imageLaw :=
      hgranted.beside rfl rfl rfl rfl rfl rfl rfl rfl rfl
    obtain ⟨-, hg⟩ | ⟨p, rest, hhead, hqueue, hg⟩ := (s.granted .evt).ringWordGranted_cases <;> rw [hg]
    · exact hwritten
    · have hzone : p.zone = .command := h.ringWord hhead p rest hqueue
      exact hwritten.mailbox (p := p) (rest := rest) (State.calm_of_head (fun m todo hm => absurd (hhead.symm.trans hm) nofun)
        fun todo restart hm => absurd (hhead.symm.trans hm) nofun) hqueue (by rw [hzone]; rfl) false

theorem statusZoneGrantStep_imageLaw (h : s.imageLaw) : (statusZoneGrantStep s).imageLaw := by
  obtain he | ⟨hsource, -, he⟩ := statusZoneGrantStep_cases s <;> rw [he]
  · exact h
  · rw [State.statusGranted_eq]
    have hgranted : (s.granted .evt).imageLaw := by
      cases hrewrite : s.ew.rewrite with
      | none => exact h.granted_none (by rw [State.access, State.evtAccess, hsource, hrewrite])
      | some rw => exact h.granted_above (State.evtAccess_status hsource hrewrite) (by omega)
    exact hgranted.beside rfl rfl rfl rfl rfl rfl rfl rfl rfl

end Events

section Preload
variable {s t : State}

/-- A part whose table and masks hold nothing, with no write in hand, meets the law, whatever adoption begins (R145, R149). -/
theorem State.imageLaw_of_blank (hdt : t.dt.records = State.reset.dt.records) (hupdates : t.dt.updates = [])
    (hmasks : t.masks = State.reset.masks) (hqueue : t.cbp.queue = []) (hheld : t.cbp.held = none) (hhead : t.cbp.head = .waiting)
    (hidle : t.pu.power = .running → t.pu.adoption ≠ none)
    (hadopt : ∀ a, t.pu.adoption = some a → a.stage = .mask 0) : t.imageLaw := by
  have hnone : ∀ d : Dest, t.dt.records[d] = none := fun d => by rw [hdt]; exact Vector.getElem_replicate _
  have hmask : ∀ m : Fin 12, t.masks[m] = none := fun m => by rw [hmasks]; exact Vector.getElem_replicate _
  refine State.imageLaw_iff.2 ⟨⟨fun d hd => ?_, by rw [hupdates]; exact List.nodup_nil, fun a d w ha hstage => ?_⟩,
    ⟨by rw [hqueue]; exact nofun, by rw [hheld]; exact nofun⟩, State.headLaw_of_waiting hhead,
    State.masksSettled.maskLaw_of_head ⟨fun hrun hno => absurd hno (hidle hrun), fun a ha => ?_, fun d hd => ?_, fun m w hw => ?_⟩
      (by rw [hhead]; exact nofun)⟩
  · rw [hnone] at hd
    cases hd
  · exact absurd ((hadopt a ha).symm.trans hstage) nofun
  · rw [Adoption.masksRead, Adoption.built, hadopt a ha]
    exact ⟨fun m hm => absurd hm (Nat.not_lt_zero _), fun d hd => absurd hd (Nat.not_lt_zero _)⟩
  · rw [hnone] at hd
    cases hd
  · rw [hmask] at hw
    cases hw

theorem resetReleaseStep_imageLaw (hpre : s.preloadLaw) (h : s.imageLaw) (winsel : BitVec 2) (lockout romen : Bool) :
    (resetReleaseStep winsel lockout romen s).imageLaw := by
  unfold resetReleaseStep
  split
  · next hpower =>
    have hdormant : s = s.dormant := hpre (by rw [hpower]; decide)
    have hdt : s.dt = State.reset.dt := (congrArg State.dt hdormant :)
    have hmasks : s.masks = State.reset.masks := (congrArg State.masks hdormant :)
    have hcbp : s.cbp = { State.reset.cbp with response := s.cbp.response } := (congrArg State.cbp hdormant :)
    have hadopt : s.pu.adoption = none := congrArg (fun u : State => u.pu.adoption) hdormant
    exact State.imageLaw_of_blank (congrArg DestTable.records hdt) (congrArg DestTable.updates hdt) hmasks
      (congrArg BusPort.queue hcbp) (congrArg BusPort.held hcbp) (congrArg BusPort.head hcbp) nofun
      fun a ha => absurd (hadopt.symm.trans ha) nofun
  · exact h

theorem preloadEndStep_imageLaw (hpre : s.preloadLaw) (h : s.imageLaw) (image : List Byte) : (preloadEndStep image s).imageLaw := by
  obtain he | ⟨hpower, he⟩ := preloadEndStep_cases image s <;> rw [he]
  · exact h
  · have hdormant : s = s.dormant := hpre (by rw [hpower]; decide)
    have hdt : s.dt = State.reset.dt := (congrArg State.dt hdormant :)
    have hmasks : s.masks = State.reset.masks := (congrArg State.masks hdormant :)
    have hcbp : s.cbp = { State.reset.cbp with response := s.cbp.response } := (congrArg State.cbp hdormant :)
    refine State.imageLaw_of_blank (congrArg DestTable.records hdt) (congrArg DestTable.updates hdt) hmasks
      (congrArg BusPort.queue hcbp) (congrArg BusPort.held hcbp) (congrArg BusPort.head hcbp) (fun _ => nofun) fun a ha => ?_
    obtain rfl := Option.some.inj ha
    rfl

theorem resetAssertStep_imageLaw (u : Bool) (s : State) : (resetAssertStep u s).imageLaw := by
  obtain he | ⟨_, _, _, _, he⟩ := resetAssertStep_cases u s <;> rw [he] <;>
    exact State.imageLaw_of_blank rfl rfl rfl rfl rfl rfl nofun nofun

end Preload

end Sys2Proof.Machine

/-! O59. -/

namespace Sys2Proof.Machine

section Commands
variable {s : State}

/-- MASK_VIEW_WRITE: the MU takes the head, or sends its next request (R87). -/
theorem maskViewWriteStep_imageLaw (h : s.imageLaw) (htable : s.tableLaw) (hrun : s.pu.power = .running) :
    (maskViewWriteStep s).imageLaw := by
  obtain he | ⟨m, todo, p, rest, hhead, hqueue, he⟩ | ⟨q, view, m, hq, hzone, _, he⟩ := maskViewWriteStep_cases s <;> rw [he]
  · exact h
  · have hidle := htable.masking m todo hhead
    have hstands : s.setHead (.masking m todo) = s := by rw [← hhead]; rfl
    exact State.imageLaw.blockNext (by rw [hstands]; exact h) htable hidle (h.mask.present hrun hidle).2 p.tag
  · have hidle := (State.headToTake_window hq (by rw [hzone]; exact nofun)).2
    obtain ⟨hwaiting, ⟨rest, hqueue⟩, -⟩ := State.headToTake_spec hq
    obtain ⟨hmasks, hrecords⟩ := h.mask.present hrun hidle
    exact (h.takeMask hwaiting (by rw [hqueue]; exact nofun) (hmasks m) _).blockNext
      (htable.beside (State.keepsTable_of_beside rfl rfl rfl rfl) rfl (.inl rfl)) hidle hrecords q.tag

theorem pathWriteStep_imageLaw (h : s.imageLaw) (hrun : s.pu.power = .running) : (pathWriteStep s).imageLaw := by
  obtain he | ⟨q, d, hq, hzone, _, he⟩ := pathWriteStep_takes s <;> rw [he]
  · exact h
  · have hidle := (State.headToTake_window hq hzone).2
    have htaken := h.takePathWord hidle (h.mask.present hrun hidle).2 d (s.pathMerged d q) (s.closes d q) q.tag
    refine htaken.retireHead (State.calm_of_waiting ?_)
    rw [(s.takePathWord_requested d (s.pathMerged d q) (s.closes d q) q.tag).outside.cbp]
    exact (State.headToTake_spec hq).1

theorem planHeaderWriteStep_imageLaw (h : s.imageLaw) : (planHeaderWriteStep s).imageLaw := by
  obtain he | ⟨q, p, hq, _, _, he | he⟩ := planHeaderWriteStep_cases s <;> rw [he]
  · exact h
  · obtain ⟨hwaiting, ⟨rest, hqueue⟩, -⟩ := State.headToTake_spec hq
    refine ((s.setCondition_beside p .idle).imageLaw h).headWrites (State.calm_of_waiting hwaiting)
      (fun hnil => nomatch hqueue.symm.trans hnil) (fun acc hacc => ?_) false
    obtain rfl := List.mem_singleton.1 hacc
    have hle : 0x730 ≤ planHeaderOffset p := by unfold planHeaderOffset; omega
    exact ⟨State.wordWrite_sparesImage (by omega) _, State.wordWrite_sparesMasks (.inr hle) _⟩
  · exact (h.emit _ _ _ _ _).retireHead (State.calm_of_waiting
      ((congrArg BusPort.head (s.emit_standsBeside _ _ _ _ _).cbp).trans (State.headToTake_spec hq).1))

/-- CMD_RELEASE: the way's destinations are released under the command's tag, or the command is ignored (R103, R104). -/
theorem State.manualRelease_imageLaw (h : s.imageLaw) (htable : s.tableLaw)
    (hall : s.pu.adoption = none → ∀ d : Dest, s.dt.records[d].isSome = true) (v tag : Nat) :
    (s.manualRelease v tag).imageLaw ∧ (s.manualRelease v tag).cbp = s.cbp := by
  obtain ⟨u, hu, hm | ⟨k, hm⟩⟩ := s.manualRelease_requests v tag <;> rw [hm]
  · exact ⟨hu.imageLaw h, hu.cbp⟩
  · have hdraws := State.release_draws (hu.tableLaw htable) (by rw [hu.pu, hu.dt]; exact hall) k (some tag)
    exact ⟨hdraws.imageLaw (hu.imageLaw h), hdraws.outside.cbp.trans hu.cbp⟩

/-- Every command of a running part keeps table memory in step with the table. -/
theorem commandStep_running_imageLaw (c : Instr) (hpre : s.preloadLaw) (hwf : Memory.wf s.mem) (htable : s.tableLaw)
    (h : s.imageLaw) (hrun : s.pu.power = .running) : (commandStep c s).imageLaw := by
  have hall : s.pu.adoption = none → ∀ d : Dest, s.dt.records[d].isSome = true := fun hidle => (h.mask.present hrun hidle).2
  have hsame : s.standsBeside s := .refl s
  cases c with
  | resetAssert u => exact resetAssertStep_imageLaw u s
  | resetRelease winsel lockout romen => exact resetReleaseStep_imageLaw hpre h winsel lockout romen
  | preloadEnd image => exact preloadEndStep_imageLaw hpre h image
  | timebaseTick =>
    simp only [commandStep, timebaseTickStep]
    split
    · exact h
    · exact h.beside rfl rfl rfl rfl rfl rfl rfl rfl rfl
  | hostWrite a e d => exact hostWriteStep_imageLaw h a e d
  | hostRead a e => exact h.keepPosts (hostReadStep_eq a e s) (hostReadStep_head a e s) (hostReadStep_posts a e s)
  | delayedReadIssue i =>
    exact h.keepPosts (delayedReadIssueStep_eq i s) (delayedReadIssueStep_head i s) (delayedReadIssueStep_posts i s)
  | discardTimerExpiry i =>
    obtain he | ⟨_, _, _, _, he⟩ := discardTimerExpiryStep_cases i s <;> rw [commandStep, he]
    · exact h
    · have hfreed : (s.freeReadSlot i).imageLaw := h.beside rfl rfl rfl rfl rfl rfl rfl rfl rfl
      exact hfreed.emit _ _ _ _ _
  | pathWrite => exact pathWriteStep_imageLaw h hrun
  | maskViewWrite => exact maskViewWriteStep_imageLaw h htable hrun
  | writeThrough =>
    obtain he | ⟨q, hq, hthrough, he⟩ := writeThroughStep_cases s <;> rw [commandStep, he]
    · exact h
    · exact h.takeThrough hq (Zone.spares_of_writesThrough hthrough) false hsame
  | planHeaderWrite => exact planHeaderWriteStep_imageLaw h
  | statusZoneWrite =>
    obtain he | ⟨q, hq, _, he⟩ := statusZoneWriteStep_cases s <;> rw [commandStep, he]
    · exact h
    · exact (h.emit _ _ _ _ _).retireHead (State.calm_of_waiting
        ((congrArg BusPort.head (s.emit_standsBeside _ _ _ _ _).cbp).trans (State.headToTake_spec hq).1))
  | narrowCommandWrite =>
    obtain he | ⟨q, hq, hzone, he⟩ := narrowCommandWriteStep_cases s <;> rw [commandStep, he]
    · exact h
    · exact h.takeThrough hq (by rw [hzone]; rfl) false (s.emit_standsBeside _ _ _ _ _)
  | cmdUnlock =>
    obtain he | ⟨q, hq, he⟩ := cmdUnlockStep_cases s <;> rw [commandStep, he]
    · exact h
    · exact (h.takeCommand hq false hsame).beside rfl rfl rfl rfl rfl rfl rfl rfl rfl
  | cmdAbortSet =>
    obtain he | ⟨q, hq, he⟩ := cmdAbortSetStep_cases s <;> rw [commandStep, he]
    · exact h
    · rw [State.abortOpen_eq]
      exact (h.takeCommand hq false hsame).beside rfl rfl rfl rfl rfl rfl rfl rfl rfl
  | cmdExchange =>
    obtain he | ⟨q, hq, he⟩ := cmdExchangeStep_cases s <;> rw [commandStep, he]
    · exact h
    · exact h.takeCommand hq false (s.controllerRequest_beside _)
  | cmdRelease =>
    obtain he | ⟨q, hq, he⟩ := cmdReleaseStep_cases s <;> rw [commandStep, he]
    · exact h
    · obtain ⟨hq, hzone, -⟩ := State.commandToTake_spec hq
      obtain ⟨hwaiting, ⟨rest, hqueue⟩, -⟩ := State.headToTake_spec hq
      obtain ⟨himage, hcbp⟩ := State.manualRelease_imageLaw h htable hall q.data.toNat q.tag
      exact himage.mailbox (State.calm_of_waiting (by rw [hcbp]; exact hwaiting)) (by rw [hcbp]; exact hqueue)
        (by rw [hzone]; rfl) false
  | cmdRingTail =>
    obtain he | ⟨q, hq, ⟨_, _, he⟩ | ⟨_, _, he⟩ | ⟨_, he⟩⟩ := cmdRingTailStep_cases s <;> rw [commandStep, he]
    · exact h
    · exact h.takeCommand hq false hsame
    · obtain ⟨hq, hzone, -⟩ := State.commandToTake_spec hq
      obtain ⟨hwaiting, ⟨rest, hqueue⟩, -⟩ := State.headToTake_spec hq
      have hring : (s.setHead .ringWord).imageLaw := by
        refine h.setHead (State.calm_of_waiting hwaiting) ⟨nofun, fun _ hnil => absurd (hqueue.symm.trans hnil) nofun,
          fun _ p tail hp => ?_⟩ nofun
        obtain rfl := (List.cons.inj (hqueue.symm.trans hp)).1
        exact hzone
      exact hring.beside rfl rfl rfl rfl rfl rfl rfl rfl rfl
    · exact h.takeCommand hq false (s.emit_standsBeside _ _ _ _ _)
  | cmdRestart =>
    obtain he | ⟨q, hq, he⟩ := cmdRestartStep_cases s <;> rw [commandStep, he]
    · exact h
    · exact h.takeCommand hq true hsame
  | ctlWriteGrant => exact ctlWriteGrantStep_imageLaw h htable hwf hall
  | ctlReadGrant =>
    obtain he | ⟨hr, ⟨i, hsource, he⟩ | ⟨hsource, he⟩⟩ := ctlReadGrantStep_cases s <;> rw [commandStep, he]
    · exact h
    · exact (h.ctlReadGranted (by rw [hsource]; exact nofun)).keepPosts (State.slotGranted_eq _ _ _) (State.slotGranted_head _ _ _)
        (State.slotGranted_posts _ _ _)
    · exact (h.ctlReadGranted (by rw [hsource]; exact nofun)).keepPosts (State.directGranted_eq _ _)
        (State.directGranted_head _ _) (State.directGranted_posts _ _)
  | tblGrant => exact tblGrantStep_imageLaw h hwf
  | rampTickExpiry =>
    rw [commandStep, rampTickExpiryStep_eq]
    exact h.beside rfl rfl rfl rfl rfl rfl rfl rfl rfl
  | wayPass w =>
    obtain he | ⟨_, he⟩ := wayPassStep_cases w s <;> rw [commandStep, he]
    · exact h
    · by_cases hidle : s.pu.adoption = none
      · have htaken : (s.takePass w).imageLaw := h.beside rfl rfl rfl rfl rfl rfl rfl rfl rfl
        exact (State.passWay_draws (htable.takePass w) (hall hidle) w).imageLaw htaken
      · have hnone : (s.takePass w).slotsOfWay w = [] := by
          rw [State.slotsOfWay, show (s.takePass w).re.list = [] from (htable.adopts hidle).list]
          rfl
        unfold State.passWay
        rw [hnone]
        exact h.beside rfl rfl rfl rfl rfl rfl rfl rfl rfl
  | arbiterOccasion =>
    obtain he | ⟨_, hidle, he⟩ := arbiterOccasionStep_cases s <;> rw [commandStep, he]
    · exact h
    · exact (State.occasion_draws htable hidle (hall hidle)).imageLaw h
  | checkIntervalExpiry =>
    rw [commandStep, checkIntervalExpiryStep_eq]
    exact h.beside rfl rfl rfl rfl rfl rfl rfl rfl rfl
  | losChange w level =>
    simp only [commandStep, losChangeStep]
    split <;> exact h.beside rfl rfl rfl rfl rfl rfl rfl rfl rfl
  | wayEvaluation w =>
    obtain ⟨u, hu, he | he | he⟩ := wayEvaluationStep_requests w s <;> rw [commandStep, he]
    · exact hu.imageLaw h
    · exact (State.isolate_draws (hu.tableLaw htable) (by rw [hu.pu, hu.dt]; exact hall) w).imageLaw (hu.imageLaw h)
    · exact (State.release_draws (hu.tableLaw htable) (by rw [hu.pu, hu.dt]; exact hall) w none).imageLaw (hu.imageLaw h)
  | exchangeStart => exact exchangeStartStep_imageLaw h
  | exchangeAccessGrant => exact exchangeAccessGrantStep_imageLaw h
  | exchangeSwap => exact exchangeSwapStep_imageLaw h htable hall
  | adoptionStart => exact adoptionStartStep_imageLaw h htable
  | adoptionAccessGrant => exact adoptionAccessGrantStep_imageLaw h htable hwf
  | eventRecordGrant => exact eventRecordGrantStep_imageLaw h
  | ringWordGrant => exact ringWordGrantStep_imageLaw h
  | statusZoneGrant => exact statusZoneGrantStep_imageLaw h

/-- Before preload ends only the host, the clock, the card and the straps reach the part, and none of them the table. -/
theorem commandStep_imageLaw (c : Instr) (hpre : s.preloadLaw) (hwf : Memory.wf s.mem) (htable : s.tableLaw)
    (h : s.imageLaw) : (commandStep c s).imageLaw := by
  by_cases hrun : s.pu.power = .running
  · exact commandStep_running_imageLaw c hpre hwf htable h hrun
  · by_cases hc : reachesDormant c = true
    · cases c with
      | resetAssert u => exact resetAssertStep_imageLaw u s
      | resetRelease winsel lockout romen => exact resetReleaseStep_imageLaw hpre h winsel lockout romen
      | preloadEnd image => exact preloadEndStep_imageLaw hpre h image
      | timebaseTick =>
        simp only [commandStep, timebaseTickStep]
        split
        · exact h
        · exact h.beside rfl rfl rfl rfl rfl rfl rfl rfl rfl
      | hostWrite a e d => exact hostWriteStep_imageLaw h a e d
      | hostRead a e => exact h.keepPosts (hostReadStep_eq a e s) (hostReadStep_head a e s) (hostReadStep_posts a e s)
      | losChange w level =>
        simp only [commandStep, losChangeStep]
        split <;> exact h.beside rfl rfl rfl rfl rfl rfl rfl rfl rfl
      | _ => exact Bool.noConfusion hc
    · have hdormant := commandStep_dormant (Bool.eq_false_iff.2 hc) s
      rw [← hpre hrun] at hdormant
      rw [hdormant]
      exact h

end Commands

/-- Settles O59: each request on the table lists the destinations whose current word it changes, each grant writes a word of its
own block alone, and a mask write is in handling from its first request to its memory write. -/
theorem memoryFollowsTheTable : Obligations.MemoryFollowsTheTable := by
  unfold Obligations.MemoryFollowsTheTable
  intro s t hpre hwf htable himage hstep
  have hkeep := step_keeps_law (P := fun s => Memory.wf s.mem ∧ s.tableLaw ∧ s.imageLaw)
    (fun s rest ⟨hm, ht, hi⟩ => ⟨hm, ht.beside (State.keepsTable_of_beside rfl rfl rfl rfl) rfl (.inl rfl),
      hi.beside rfl rfl rfl rfl rfl rfl rfl rfl rfl⟩)
    (fun c s hp ⟨hm, ht, hi⟩ => ⟨commandStep_memory_wf c hm, commandStep_tableLaw c s hp ht, commandStep_imageLaw c hp hm ht hi⟩)
    hpre ⟨hwf, htable, himage⟩ hstep
  exact hkeep.2.2

end Sys2Proof.Machine
